-- ==== Sys2Proof/Syntax.lean ====
section
/-! DEFINITION. Sys2Proof/Syntax.lean: the commands of the block, one constructor per row of spec/opcode_table.json,
and the operand types they carry. A request that the node has taken is named by its number `r`; a management frame
carries its whole header; a packet carries its whole Pyvas header (R237). -/

namespace Sys2Proof

/-- Status codes (R35). -/
inductive Status where
  | ok | partialSkipped | capacity | preempted | keyFault | rangeFault | revoked | staleEpoch | busyRetry | timeout
  | mediaError | contextLost | unitAbsent | formatUnsupported | indeterminate | internal
  deriving DecidableEq, Repr

/-- The 8-bit code of a status (R35). -/
def Status.code : Status → Nat
  | .ok => 0x00 | .partialSkipped => 0x01 | .capacity => 0x10 | .preempted => 0x11 | .keyFault => 0x20
  | .rangeFault => 0x21 | .revoked => 0x22 | .staleEpoch => 0x30 | .busyRetry => 0x31 | .timeout => 0x32
  | .mediaError => 0x40 | .contextLost => 0x41 | .unitAbsent => 0x50 | .formatUnsupported => 0x51
  | .indeterminate => 0x60 | .internal => 0xFF

/-- A received code; an unlisted one is treated as INTERNAL (R36). -/
def Status.ofCode : Nat → Status
  | 0x00 => .ok | 0x01 => .partialSkipped | 0x10 => .capacity | 0x11 => .preempted | 0x20 => .keyFault
  | 0x21 => .rangeFault | 0x22 => .revoked | 0x30 => .staleEpoch | 0x31 => .busyRetry | 0x32 => .timeout
  | 0x40 => .mediaError | 0x41 => .contextLost | 0x50 => .unitAbsent | 0x51 => .formatUnsupported
  | 0x60 => .indeterminate | _ => .internal

/-- The unit classes of R396, in the order of objects 0x3000 to 0x300A. -/
inductive UnitClass where
  | core | crucible | engine | walker | nearBank | port | remoteEngine | stack | lowerCtl | prefixUnit | control
  deriving DecidableEq, Repr

/-- Kinds of privileged metadata (R187). -/
inductive MetaKind where
  | tableHigh | tableLow | seqDesc | alloc
  deriving DecidableEq, Repr

/-- A management route (R385), also the carrier of an assay (R420). -/
inductive Route where
  | mgmtPort
  | mailbox (ld : Nat)
  | pyvas (node : Nat)
  | doe (ld : Nat)
  deriving DecidableEq, Repr

/-- Class of a Pyvas packet (R237). -/
inductive PClass where
  | req | rsp | ack | mgt
  deriving DecidableEq, Repr

/-- A Pyvas packet: what the port reports of the frame, then the header fields of R237 and the payload. -/
structure Packet where
  port : Nat := 0
  /-- FCS and, in UDP framing, the UDP checksum are good (R239 step 1). -/
  frameOk : Bool := true
  /-- FEC codewords of the frame that were corrected, and that could not be (R232). -/
  fecFixed : Nat := 0
  fecLost : Nat := 0
  /-- The receive pool of its class was full when an ACK or MGT packet arrived (R240). -/
  crowded : Bool := false
  /-- The frame is as long as its LEN implies (R236). -/
  lenOk : Bool := true
  /-- UDP/IPv6 framing (R234); native otherwise (R233). -/
  udp : Bool := false
  /-- An IPv6 extension header was present (R234). -/
  extHdr : Bool := false
  /-- EtherType and, in UDP framing, the ports, flow label and hop limit (R233, R234). -/
  etherType : Nat := if udp then 0x86DD else 0x88B6
  dport : Nat := 0x59A6
  sport : Nat := 0
  flow : Nat := 0
  hopLimit : Nat := 64
  /-- ECN field of the traffic class; 3 is CE (R234, R247). -/
  ecn : Nat := 0
  srcMac : BitVec 48 := 0
  srcIp : BitVec 128 := 0
  dstMac : BitVec 48 := 0
  dstIp : BitVec 128 := 0
  /-- VID of the tag, 0 for none, its PCP, and the DSCP of the class (R233, R234). -/
  vlan : Nat := 0
  pcp : Nat := 0
  dscp : Nat := 0
  ver : Nat := 1
  cls : PClass := .req
  type : Nat := 1
  som : Bool := true
  eom : Bool := true
  retx : Bool := false
  acknow : Bool := false
  banked : Bool := false
  src : Nat := 0
  dst : Nat := 0
  tenant : Nat := 0
  hoplim : Nat := 8
  conn : Nat := 0
  retry : Nat := 0
  psn : Nat := 0
  mlen : Nat := 0
  reqId : Nat := 0
  comp : Nat := 0
  epoch : Nat := 0
  offset : Nat := 0
  tstamp : Nat := 0
  len : Nat := 0
  age : Nat := 0
  icrc : BitVec 32 := 0
  payload : List Byte := []
  deriving DecidableEq, Repr

/-- A VOP frame (R383), the route on which it arrived and, over Pyvas, the packet that carried it (R238). -/
structure VopFrame where
  route : Route := .mgmtPort
  via : Packet := {}
  /-- Source address of the Ethernet frame, on the management port (R382). -/
  mac : BitVec 48 := 0
  ver : Nat := 1
  op : Nat := 1
  flags : Nat := 0
  session : Nat := 0
  seq : Nat := 0
  index : Nat := 0
  sub : Nat := 0
  offset : Nat := 0
  len : Nat := 0
  payload : List Byte := []
  tag : BitVec 128 := 0
  deriving DecidableEq, Repr

/-- An assay request as it arrives (R417): its bytes and, over Pyvas, the packet that carried them (R238). -/
structure AssayMsg where
  bytes : List Byte := []
  via : Packet := {}
  deriving DecidableEq, Repr

/-- Where an uncorrectable error lies (R428); `req` is the request that met it. -/
inductive ErrWhere where
  | frameLine (frame line : Nat) (req : Option Nat)
  | freeUpper (channel granule : Nat)
  | freeLower (package chunk : Nat)
  | metadata (kind : MetaKind) (tenant key : Nat) (req : Option Nat)
  | keyStore (bank slot : Nat)
  | tagSlot (bank slot : Nat)
  | ledger (conn reqId : Nat)
  | accumulator (slot contrib : Nat)
  | requestState (req : Nat)
  | xlateCache
  | contextCache (conn : Nat)
  | missBuffer (port : Nat)
  | unitSram (cls : UnitClass) (unit row : Nat)
  deriving DecidableEq, Repr

/-- A container read that misses LT_LIMIT (R186, R187): of a request, of a host load at a host address, of privileged metadata. -/
inductive LateRead where
  | request (r : Nat)
  | host (ld hpa : Nat)
  | metadata (kind : MetaKind) (tenant key : Nat) (req : Option Nat)
  deriving DecidableEq, Repr

/-- What waits for sectors of the lower tier (R185): a request, or the host store that has waited longest. -/
inductive SectorWait where
  | request (r : Nat)
  | host
  deriving DecidableEq, Repr

/-- Where a correctable error lies (R427, R430). -/
inductive CeWhere where
  | upper (channel granule line : Nat)
  | lower (package chunk sector : Nat)
  | sram (cls : UnitClass) (unit : Nat)
  | prefixTag (bank slot : Nat)
  deriving DecidableEq, Repr

/-- What a burnish read finds (R429, R430). -/
inductive BurnFound where
  | clean | correctable | uncorrectable
  deriving DecidableEq, Repr

/-- A host write of MSI-X control (R371). -/
inductive MsixWrite where
  | function (enabled masked : Bool)
  | entry (index : Nat) (masked : Bool)
  /-- Message address and data of a table entry. -/
  | message (index : Nat) (address data : Nat)
  deriving DecidableEq, Repr

/-- A register that a host writes: a place in BAR0 or BAR2, Device Control, or one of the AER registers of uncorrectable errors. -/
inductive HostReg where
  | bar0 (offset : Nat)
  | bar2 (offset : Nat)
  | deviceControl
  | aerStatus
  | aerMask
  | aerSeverity
  deriving DecidableEq, Repr

/-- The commands. -/
inductive Instr where
  /-- GEOM_DEFINE (R59): Defines an immutable cache geometry after ordered format and range checks, copying INT8 channel scales into metadata. -/
  | geomDefine (r : Nat)
  /-- GEOM_RELEASE (R59): Releases a geometry ID that no live sequence uses. -/
  | geomRelease (r : Nat)
  /-- SEQ_CREATE (R67): Creates a sequence with fixed capacity and an 8 MiB-aligned virtual range and returns its handle. -/
  | seqCreate (r : Nat)
  /-- APPEND (R73): Allocates frames, copies shared frames, writes token K/V, widens touchstones and advances the layer fills, pre-empting victims if needed. -/
  | append (r : Nat) (dma : List Byte)
  /-- FORK (R75): Creates a child sequence that shares the parent's frames up to fork point k without copying. -/
  | fork (r : Nat)
  /-- SEQ_PIN (R80): Pins or unpins a sequence against victim selection, subject to the pinned-frame limit and the sequence state. -/
  | seqPin (r : Nat)
  /-- SEQ_PREEMPT (R84): Moves a sequence to PREEMPTING and swaps its unshared frames out to host swap once in-flight writes have ended. -/
  | seqPreempt (r : Nat)
  /-- SEQ_RESTORE (R86): Moves a PREEMPTED sequence to RESTORING, allocates frames, reads back the images and returns it to ACTIVE. -/
  | seqRestore (r : Nat)
  /-- RESTORE_FAILED (R473): A restore that ends other than OK leaves the sequence PREEMPTED and ends or redirects every request waiting on it. -/
  | restoreFailed (seq : Nat) (st : Status)
  /-- SEQ_DESTROY (R81): Advances the handle generation, waits for accepted requests, then quarantines frames and frees the range. -/
  | seqDestroy (r : Nat)
  /-- SEQ_TRUNCATE (R79): Lowers fills to k, unmaps the pages above k and rebuilds the new tail touchstone. -/
  | seqTruncate (r : Nat)
  /-- SEQ_QUERY (R69): Writes the 64-byte sequence status record to tenant memory. -/
  | seqQuery (r : Nat)
  /-- SEQ_FENCE (R96): Takes the walk epoch and completes when no live walk of the tenant is older. -/
  | seqFence (r : Nat)
  /-- SEQ_FENCE_TIMEOUT (R96): Ends a SEQ_FENCE with TIMEOUT when old walks outlast the tenant fence timeout. -/
  | seqFenceTimeout (r : Nat)
  /-- PAGE_SHARE (R76): Maps a full source page into a target layer and advances the target fill by 256. -/
  | pageShare (r : Nat)
  /-- MAP (R100): Allocates and maps zeroed loan frames with the given rights, pre-empting within the committed reservation. -/
  | map (r : Nat)
  /-- UNMAP (R100): Clears the mappings of a range and quarantines its frames. -/
  | unmap (r : Nat)
  /-- REMAP (R98): Moves mapped frames to new tenant addresses, writing the new entries before clearing the old. -/
  | remap (r : Nat)
  /-- QUARANTINE_END (R95): Frees a quarantined frame, swap slot or block once no live walk predates its tag. -/
  | quarantineEnd (item : Nat)
  /-- ATTEND (R103): Checks the descriptor and length table, generates work blocks, bounds and dispatches pages and returns merged partial records. -/
  | attend (r : Nat)
  /-- NEAR_BANK_STEP_END (R174): At a step boundary the unit runs owed refreshes, queued line accesses and then the next scheduled step, publishing m_pub when bounded. -/
  | nearBankStepEnd (unit : Nat)
  /-- REFRESH_DUE (R175): A channel refresh falls due and is owed until the next step boundary, forcing a step end when eight are owed. -/
  | refreshDue (unit : Nat)
  /-- BROADCAST_COMMAND_COMPLETE (R157): A broadcast command completes when every unit of its group has reported the end of its work list. -/
  | broadcastCommandComplete (r : Nat)
  /-- CRUCIBLE_MERGE_DONE (R120): The crucibles finish merging a request's partials and its records and completion are sent. -/
  | crucibleMergeDone (r : Nat)
  /-- MERGE_OPEN (R121): Allocates a merge context and its upper-tier accumulator initialised to identity records. -/
  | mergeOpen (r : Nat)
  /-- MERGE_SUBMIT (R124): Checks a source of records in memory and contributes them to a merge context. -/
  | mergeSubmit (r : Nat) (dma : List Byte)
  /-- MERGE_CLOSE (R125): Waits for all contributions or the timeout, writes the final records, releases the context and reports the status. -/
  | mergeClose (r : Nat)
  /-- MERGE_ABORT (R126): Releases a merge context at once, ending any waiting MERGE_CLOSE with REVOKED. -/
  | mergeAbort (r : Nat)
  /-- MERGE_TIMEOUT (R126): A merge context's timeout expires, so it refuses further records and a waiting MERGE_CLOSE proceeds. -/
  | mergeTimeout (slot : Nat)
  /-- TS_REBUILD (R137): Rebuilds the touchstones of the unshared pages of the named layers to their fills. -/
  | tsRebuild (r : Nat)
  /-- TS_READ (R138): Copies the headers and touchstone blocks of a layer's pages into tenant memory. -/
  | tsRead (r : Nat)
  /-- TOUCHSTONE_ERROR_REBUILD (R150): An uncorrectable touchstone error makes the page unbounded, rebuilds the block elsewhere and retires the granule. -/
  | touchstoneErrorRebuild (frame : Nat) (inWord : Bool)
  /-- GATHER_REDUCE (R161): NB_EXEC operation that reduces the indexed table rows per segment into output rows. -/
  | gatherReduce (r : Nat)
  /-- EWISE (R162): NB_EXEC operation that evaluates a chain of up to eight primitives per element. -/
  | ewise (r : Nat)
  /-- NORM (R163): NB_EXEC operation that applies RMS or layer normalisation per row. -/
  | norm (r : Nat)
  /-- OPT_STEP (R164): NB_EXEC operation that applies an AdamW or SGD update to packed state blocks. -/
  | optStep (r : Nat)
  /-- CAST (R166): NB_EXEC operation that decodes and re-encodes each element into the output format. -/
  | cast (r : Nat)
  /-- TIER_MOVE_UP (R203): TIER_MOVE with TARGET 00 migrates the range's frames to the upper tier, optionally holding them there. -/
  | tierMoveUp (r : Nat)
  /-- TIER_MOVE_DOWN (R203): TIER_MOVE with TARGET 01 moves the range's frames to the lower tier and releases their holds. -/
  | tierMoveDown (r : Nat)
  /-- TIER_MOVE_HOLD (R202): TIER_MOVE with TARGET 10 sets or releases holds on the upper-tier frames of the range without moving them. -/
  | tierMoveHold (r : Nat)
  /-- HEAT_PERIOD_EXPIRY (R196): Every HEAT_PERIOD the node halves the heat of every frame. -/
  | heatPeriodExpiry
  /-- DEMOTION_START (R197): When free upper-tier space falls below UPPER_LOW_WM, the node demotes the coldest frames until UPPER_HIGH_WM is reached. -/
  | demotionStart
  /-- PROMOTION_START (R198): A lower-tier frame whose heat reaches PROMOTE_HEAT is promoted under the free-space conditions. -/
  | promotionStart (frame : Nat)
  /-- MIGRATION_SWITCH (R199): After the copy passes, the migration switches the frame-table entry and quarantines the source. -/
  | migrationSwitch (frame : Nat)
  /-- LOWER_UNIT_RMW (R184): A write to a lower-tier frame is applied by decoding, modifying and re-encoding the 4 KiB unit and switching its directory entry. -/
  | lowerUnitRmw (frame : Nat) (off : Nat) (bytes : List Byte)
  /-- IMAGE_COMPACTION (R184): Compacts an image whose dead sectors exceed a quarter of it under a new SERIAL, then switches the frame-table entry. -/
  | imageCompaction (frame : Nat)
  /-- LOWER_SECTOR_WAIT_END (R185): A write that waited for lower-tier sectors proceeds once pre-emption frees room, or ends with CAPACITY. -/
  | lowerSectorWaitEnd (x : SectorWait)
  /-- LT_READ_LIMIT_EXPIRY (R186): A lower-tier container read misses LT_LIMIT and ends an ordinary request with TIMEOUT. -/
  | ltReadLimitExpiry (x : LateRead)
  /-- PRIVILEGED_READ_RETRY (R187): A failed or late privileged metadata read stalls and retries from the next copy, rewriting the failed copy on success. -/
  | privilegedReadRetry (id : Nat) (ok : Bool) (time : Nat)
  /-- SWAP_OUT_FRAME_DONE (R205): The host acknowledges a frame's swap image, so the entries become SWAPPED and the frame is freed after quarantine. -/
  | swapOutFrameDone (frame : Nat)
  /-- SWAP_OUT_FAILURE (R208): A DMA error or a missing acknowledgement within 1 ms abandons the image and returns the victim to ACTIVE. -/
  | swapOutFailure (frame : Nat)
  /-- RESTORE_FRAME_READ_DONE (R207): A swap image read back by DMA is checked, placed and mapped, freeing its run. -/
  | restoreFrameReadDone (frame : Nat) (hdr : BitVec 512) (decodes : Bool)
  /-- RESTORE_DMA_TIMEOUT (R208): No DMA read completion within 1 ms ends the restore with TIMEOUT. -/
  | restoreDmaTimeout (frame : Nat)
  /-- PS_INSERT (R216): Indexes one full page of a sequence in the home or spill CAM bank. -/
  | psInsert (r : Nat)
  /-- PS_REMOVE (R218): Removes one prefix entry named by its entry ID. -/
  | psRemove (r : Nat)
  /-- PS_SEARCH (R221): Looks up a batch of content keys with cursors and writes verified matches to the result array. -/
  | psSearch (r : Nat)
  /-- PS_PURGE (R218): Removes every entry of the tenant under one model key. -/
  | psPurge (r : Nat)
  /-- REQ_DATA_RX (R246): A REQ_DATA packet is checked, placed in a slot and handed over as a message once complete. -/
  | reqDataRx (p : Packet)
  /-- REQ_MERGE_RX (R123): A REQ_MERGE message is judged against its merge context and its records are merged into the accumulator. -/
  | reqMergeRx (p : Packet)
  /-- RSP_DATA_RX (R246): An RSP_DATA packet is placed directly into the requester's reserved response space. -/
  | rspDataRx (p : Packet)
  /-- RSP_END_RX (R291): An RSP_END acknowledges a request once all its data has arrived, and the request ends. -/
  | rspEndRx (p : Packet)
  /-- MISS_REPLY_RX (R281): A miss reply makes the requester back off and resend the dropped packet under its old PSN. -/
  | missReplyRx (p : Packet)
  /-- SACK_RX (R249): A SACK updates CUM, LIMIT and RTT samples and triggers fast retransmission of missing PSNs. -/
  | sackRx (p : Packet)
  /-- CREDIT_ASK_RX (R242): A receiver assigns freed REQ slots to asking connections by oldest AGE. -/
  | creditAskRx (p : Packet)
  /-- FENCE_ACK_RX (R293): Marks every SILENT request whose SOM PSN lies below C as acknowledged. -/
  | fenceAckRx (p : Packet)
  /-- COMP_ACK_RX (R292): Acknowledges one SILENT request that ended OK. -/
  | compAckRx (p : Packet)
  /-- KEEPALIVE_RX (R260): A KEEPALIVE records the peer's port status, pace and banked state. -/
  | keepaliveRx (p : Packet)
  /-- CONN_SETUP_RX (R244): The acceptor checks a CONN_SETUP, creates the queue pair and answers with CONN_ACCEPT. -/
  | connSetupRx (p : Packet)
  /-- CONN_ACCEPT_RX (R243): A CONN_ACCEPT moves a SETUP_SENT connection to OPEN, or to CLOSED with the status it carries. -/
  | connAcceptRx (p : Packet)
  /-- CONN_CLOSE_RX (R243): A CONN_CLOSE moves an OPEN connection to DRAINING, or answers a close in progress. -/
  | connCloseRx (p : Packet)
  /-- CONN_RESET_RX (R243): A CONN_RESET moves the named connection to RESET and ends its outstanding requests. -/
  | connResetRx (p : Packet)
  /-- PAUSE_FRAME_RX (R230): A PAUSE or PFC frame is discarded and counted without stopping transmission. -/
  | pauseFrameRx (port : Nat)
  /-- RETRANSMIT_TIMER_EXPIRY (R250): The retransmission timer expires, so the packet is resent on another path with the timer doubled and one retry used. -/
  | retransmitTimerExpiry (conn : Nat) (space : Nat) (psn : Nat)
  /-- RESPONSE_TIMER_EXPIRY (R291): The response timer expires, so the request's last packet is resent to prompt its response. -/
  | responseTimerExpiry (r : Nat)
  /-- SACK_DELAY_EXPIRY (R248): SACK_DELAY after the first uncovered packet, the receiver sends a SACK. -/
  | sackDelayExpiry (conn : Nat) (space : Nat)
  /-- RATE_UPDATE (R252): Once per SRTT the path rate is decreased on delay or ECN signals, or increased additively. -/
  | rateUpdate (conn : Nat) (peer : Nat) (port : Nat) (mac : BitVec 48) (ip : BitVec 128)
  /-- PATH_READMIT (R251): A path removed after three timer expiries is readmitted at CC_INIT after 10 ms. -/
  | pathReadmit (conn : Nat) (path : Nat)
  /-- CREDIT_ASK_REPEAT (R242): A sender held by LIMIT resends CREDIT_ASK every 10 µs. -/
  | creditAskRepeat (conn : Nat)
  /-- BACKOFF_EXPIRY (R256): After a random backoff following BUSY_RETRY, the requester reissues the request. -/
  | backoffExpiry (r : Nat)
  /-- KEEPALIVE_PERIOD (R259): A path idle for KA_PERIOD, or a banked lane, sends a KEEPALIVE. -/
  | keepalivePeriod (port : Nat) (node : Nat)
  /-- PEER_BANKED_TIMEOUT (R260): A peer is no longer treated as banked after 4 x KA_PERIOD without a packet. -/
  | peerBankedTimeout (node : Nat)
  /-- CONN_SETUP_RESEND (R243): CONN_SETUP is resent every 100 µs, and after 16 unanswered sends the connect ends with TIMEOUT. -/
  | connSetupResend (conn : Nat)
  /-- CONN_CLOSE_RESEND (R243): CONN_CLOSE is resent every 100 µs, and after 16 unanswered sends the connection moves to RESET. -/
  | connCloseResend (conn : Nat)
  /-- CONN_RESET_QUIET_END (R243): After 100 ms in RESET the connection becomes CLOSED and the DISCONNECT notification is written. -/
  | connResetQuietEnd (conn : Nat)
  /-- CONN_NUMBER_RELEASE (R243): A connection number returns to the free pool 100 ms after its connection left OPEN and DRAINING. -/
  | connNumberRelease (conn : Nat)
  /-- PORT_TRAINING_DONE (R229): A fabric port finishes training at the widest available mode and reports UP, DEGRADED or BANKED. -/
  | portTrainingDone (port : Nat) (partnerBanked : Bool)
  /-- PORT_LINK_DOWN (R251): A fabric port goes DOWN or DEGRADED, so its paths leave the path sets and packets are resent elsewhere. -/
  | portLinkDown (port : Nat) (lost : BitVec 9)
  /-- PI_DOORBELL_WRITE (R346): A work-queue PI write posts entries for fetching, or is discarded as a doorbell fault. -/
  | piDoorbellWrite (ld : Nat) (q : Nat) (v : BitVec 32)
  /-- CQ_CI_DOORBELL_WRITE (R346): A completion-queue CI write frees slots, or is discarded as a doorbell fault. -/
  | cqCiDoorbellWrite (ld : Nat) (q : Nat) (v : BitVec 32)
  /-- WORK_ENTRY_START (R267): The node fetches a work entry, reserves a completion slot, checks the header and starts the request. -/
  | workEntryStart (q : Nat) (e : BitVec 512)
  /-- REQUEST_END (R267): A request ends, so its completion entry is written, ENDED advances and its event is raised if asked. -/
  | requestEnd (r : Nat)
  /-- REMOTE_REQUEST (R274): An entry with REMOTE 1 is converted where needed and sent to the peer of QP as a REQ_DATA message. -/
  | remoteRequest (r : Nat) (dma : List Byte)
  /-- WRITE (R287): Writes bytes into a remote region line by line and acknowledges once they are visible. -/
  | write (r : Nat) (dma : List Byte)
  /-- READ (R287): Reads bytes from a remote region into the local buffer. -/
  | read (r : Nat) (dma : List Byte)
  /-- WRITE_IMM (R288): Writes bytes remotely, then writes a notification to the target's receive completion queue. -/
  | writeImm (r : Nat) (dma : List Byte)
  /-- FADD (R289): Atomically adds to a remote 64-bit word, recording the old value in the ledger. -/
  | fadd (r : Nat)
  /-- SWAP (R289): Atomically stores a new value in a remote word and returns the old value. -/
  | swap (r : Nat)
  /-- CAS (R289): Atomically compares and swaps a remote 64-bit word. -/
  | cas (r : Nat)
  /-- CAS128 (R289): Atomically compares and swaps a remote 16-byte word using the local operand. -/
  | cas128 (r : Nat) (dma : List Byte)
  /-- LEDGER_QUERY (R299): Reads a remote word atomically after the connection's earlier atomics have applied. -/
  | ledgerQuery (r : Nat)
  /-- FENCE (R294): Holds the work queue until every earlier request has been acknowledged. -/
  | fence (r : Nat)
  /-- WAIT_COUNT (R295): Holds the work queue until ENDED of a watched queue reaches N. -/
  | waitCount (r : Nat)
  /-- WAIT_COUNT_TIMEOUT (R295): WAIT_COUNT ends with TIMEOUT, ending the later entries unstarted if ABORT is set. -/
  | waitCountTimeout (r : Nat)
  /-- CONNECT (R276): Opens a run of connections to a peer under a composition. -/
  | connect (r : Nat)
  /-- DISCONNECT (R277): Moves a queue pair to DRAINING and completes when it reaches CLOSED or RESET. -/
  | disconnect (r : Nat)
  /-- REG (R283): Registers a NODE or HOST region with rights and returns its key. -/
  | reg (r : Nat)
  /-- REVOKE (R285): Advances a region key's generation, drains in-flight uses and frees the slot. -/
  | revoke (r : Nat)
  /-- WIN_BIND (R301): Binds or unbinds a rack-window slot to a remote region over a set of queue pairs. -/
  | winBind (r : Nat)
  /-- CONTEXT_FETCH_DONE (R280): A connection context arrives from the host area and the packets waiting in the miss buffer are processed. -/
  | contextFetchDone (conn : Nat)
  /-- CONTEXT_WRITEBACK (R279): Writes back the least recently used non-busy context to make room in the cache. -/
  | contextWriteback (die : Nat)
  /-- WINDOW_READ (R302): A host CXL.mem read in a window aperture becomes a remote 64-byte READ. -/
  | windowRead (ld : Nat) (tenant : Nat) (addr : Nat)
  /-- WINDOW_WRITE (R303): A host CXL.mem write in a window aperture becomes a remote WRITE, accepted into an engine slot. -/
  | windowWrite (ld : Nat) (tenant : Nat) (addr : Nat) (line : BitVec 512)
  /-- WIN_LIMIT_EXPIRY (R302): A window read unanswered at WIN_LIMIT returns undefined data and raises WINDOW_FAULT. -/
  | winLimitExpiry (op : Nat)
  /-- WINSYNC_READ (R347): A WINSYNC read returns once earlier window writes have ended, with the count that failed. -/
  | winsyncRead (ld : Nat) (tenant : Nat)
  /-- QUENCH (R327): Immediately reclaims a loan: the key is erased, work stops, resources are torn down and dynamic capacity is released. -/
  | quench (r : Nat)
  /-- ANNEAL (R332): Freezes a loan, streams its images under the export key to a destination, then quenches it. -/
  | anneal (r : Nat)
  /-- ANNEAL_DEADLINE_EXPIRY (R332): DEADLINE_S passes before the stream is complete, so no header is written and the quench follows. -/
  | annealDeadlineExpiry (slot : Nat)
  /-- ZEROING_DONE (R329): The last frame of a quenched tenant is zeroed and the tenant becomes FREE. -/
  | zeroingDone (tenant : Nat)
  /-- TENANT_ADMIN_COMMIT (R313): Commits ADMIN of a tenant, activating it with a new key or releasing and quenching it. -/
  | tenantAdminCommit (f : VopFrame)
  /-- COMPOSITION_ADMIN_COMMIT (R324): Commits ADMIN of a composition, activating it or moving a SERVING composition to RELEASING (a LOAN one quenches). -/
  | compositionAdminCommit (f : VopFrame)
  /-- COMPOSITION_FREED (R324): A RELEASING composition becomes FREE once both in-flight counts reach 0. -/
  | compositionFreed (slot : Nat)
  /-- MAP_COMMIT (R322): Checks and installs a staged composition map, making the previous map the old map. -/
  | mapCommit (f : VopFrame)
  /-- COMP_MAP_RELEASED (R323): When OLD_INFLIGHT reaches 0, the old map is released and the event is raised. -/
  | compMapReleased (slot : Nat)
  /-- QUENCH_NOW (R320): A write of 1 to QUENCH_NOW quenches a LOAN composition at once. -/
  | quenchNow (f : VopFrame)
  /-- EXPORT_KEY_WRITE (R320): Sets the AES-256-XTS export key that an anneal uses. -/
  | exportKeyWrite (f : VopFrame)
  /-- TENANT_LIMITS_COMMIT (R317): Commits tenant limits, rates, depths and weights, checked against admission rules. -/
  | tenantLimitsCommit (f : VopFrame)
  /-- SCHED_SAMPLE (R319): Every 10 µs each flow's queue depth and head delay are sampled. -/
  | schedSample
  /-- CXL_MEM_READ (R341): A host CXL.mem read is decoded through HDM and apertures, translated and returned as a whole line. -/
  | cxlMemRead (ld : Nat) (hpa : Nat)
  /-- CXL_MEM_WRITE (R341): A host CXL.mem write is decoded, translated and placed as a whole line, or discarded when poisoned or unmapped. -/
  | cxlMemWrite (ld : Nat) (hpa : Nat) (line : BitVec 512) (poison : Bool)
  /-- HDM_DECODER_COMMIT (R338): Commits an HDM decoder as CXL 3.1 defines for interleave ways 1. -/
  | hdmDecoderCommit (ld : Nat) (dec : Nat) (base : Nat) (size : Nat) (skip : Nat) (ways : Nat)
  /-- APERTURE_COMMIT (R339): Commits an LD's aperture table, with new accesses using the new mapping. -/
  | apertureCommit (f : VopFrame)
  /-- LD_CONFIG_COMMIT (R337): Commits LD_COUNT, MGMT_LD, TENANT_LD or TARGETS, the first two taking effect at the next warm reset. -/
  | ldConfigCommit (f : VopFrame)
  /-- IDENTIFY (R348): Standard mailbox command that reports device identification. -/
  | identify (ld : Nat)
  /-- BACKGROUND_OPERATION_STATUS (R348): Reports the state of the running background mailbox command. -/
  | backgroundOperationStatus (ld : Nat)
  /-- GET_SUPPORTED_LOGS (R348): Reports the logs the device supports. -/
  | getSupportedLogs (ld : Nat)
  /-- GET_LOG (R348): Returns a log, including the Command Effects Log. -/
  | getLog (ld : Nat) (off : Nat) (len : Nat)
  /-- GET_EVENT_RECORDS (R348): Returns event records from an LD's event logs. -/
  | getEventRecords (ld : Nat) (log : Nat)
  /-- CLEAR_EVENT_RECORDS (R348): Clears event records from an event log. -/
  | clearEventRecords (ld : Nat) (log : Nat) (handles : List Nat) (all : Bool)
  /-- GET_EVENT_INTERRUPT_POLICY (R362): Reports each log's interrupt route as an MSI-X table entry. -/
  | getEventInterruptPolicy (ld : Nat)
  /-- SET_EVENT_INTERRUPT_POLICY (R362): Sets a log's route entry to a single target and vector. -/
  | setEventInterruptPolicy (ld : Nat) (log : Nat) (entry : Nat)
  /-- GET_FW_INFO (R423): Reports the two firmware slots on the management LD. -/
  | getFwInfo (ld : Nat)
  /-- TRANSFER_FW (R423): Stages firmware bytes into STAGE, with the last part committing them. -/
  | transferFw (ld : Nat) (off : Nat) (bytes : List Byte) (last : Bool)
  /-- ACTIVATE_FW (R423): Writes ACTIVATE 1 for online activation or 2 for cold-reset activation. -/
  | activateFw (ld : Nat) (online : Bool)
  /-- GET_TIMESTAMP (R348): Returns the host-set timestamp advanced by the local counter. -/
  | getTimestamp (ld : Nat)
  /-- SET_TIMESTAMP (R348): Stores a host timestamp for standard event records. -/
  | setTimestamp (ld : Nat) (v : BitVec 64)
  /-- IDENTIFY_MEMORY_DEVICE (R338): Reports volatile capacity as the end of the highest aperture. -/
  | identifyMemoryDevice (ld : Nat)
  /-- GET_HEALTH_INFO (R348): Reports device health information. -/
  | getHealthInfo (ld : Nat)
  /-- GET_DYNAMIC_CAPACITY_CONFIGURATION (R338): Reports eight dynamic capacity regions of 2^48 bytes with 2 MiB blocks. -/
  | getDynamicCapacityConfiguration (ld : Nat)
  /-- GET_DYNAMIC_CAPACITY_EXTENT_LIST (R343): Reports the dynamic capacity extents of the LD. -/
  | getDynamicCapacityExtentList (ld : Nat)
  /-- ADD_DYNAMIC_CAPACITY_RESPONSE (R343): The host accepts an offered loan extent in whole or in part. -/
  | addDynamicCapacityResponse (ld : Nat) (ranges : List (Nat × Nat))
  /-- RELEASE_DYNAMIC_CAPACITY (R343): The host releases a loan extent. -/
  | releaseDynamicCapacity (ld : Nat) (ranges : List (Nat × Nat))
  /-- UNSUPPORTED_MAILBOX_COMMAND (R348): Any other standard or unlisted vendor opcode returns Unsupported. -/
  | unsupportedMailboxCommand (ld : Nat) (op : Nat)
  /-- VOP_FRAME (R350): Vendor mailbox command that carries one VOP frame each way. -/
  | vopFrame (ld : Nat) (f : VopFrame)
  /-- QUEUE_CREATE (R351): Creates a work or completion queue ring under a composition. -/
  | queueCreate (ld : Nat) (payload : List Byte)
  /-- QUEUE_DESTROY (R352): Stops fetching and completes, as a background operation, when the queue's started requests have ended. -/
  | queueDestroy (ld : Nat) (payload : List Byte)
  /-- AREA_GRANT (R353): Grants a context area, swap area or DMA range in host memory. -/
  | areaGrant (ld : Nat) (payload : List Byte)
  /-- AREA_RECLAIM (R353): Reclaims a granted area once it is unused, restoring swapped sequences for the swap area. -/
  | areaReclaim (ld : Nat) (payload : List Byte)
  /-- RECLAIM (R354): Vendor mailbox command that runs a QUENCH or ANNEAL for tenant 0. -/
  | reclaim (ld : Nat) (payload : List Byte)
  /-- BACKGROUND_COMMAND_DONE (R348): A background mailbox command ends and raises the MAILBOX event. -/
  | backgroundCommandDone (ld : Nat)
  /-- DOE_DISCOVERY (R355): DOE Discovery request on function 0. -/
  | doeDiscovery (ld : Nat) (index : Nat)
  /-- CDAT_TABLE_ACCESS (R355): Returns CDAT entries for apertures and dynamic capacity regions. -/
  | cdatTableAccess (ld : Nat) (handle : Nat)
  /-- ASSAY_REQUEST (R417): Checks an assay request arriving over DOE, VOP or Pyvas MGT and starts a quote. -/
  | assayRequest (route : Route) (m : AssayMsg)
  /-- QUOTE_READY (R418): A signed quote over the state snapshot is produced and returned within 3 ms. -/
  | quoteReady (id : Nat)
  /-- FUNCTION_LEVEL_RESET (R454): Resets one LD: its queues are destroyed, its sources masked and its targets' CURPRIO set to 0xFF. -/
  | functionLevelReset (ld : Nat)
  /-- CXL_RESET (R455): Acts as a function-level reset and also resets the LD's decoders and re-offers its loan extents. -/
  | cxlReset (ld : Nat)
  /-- PERST_N_ASSERT (R455): PERST_N active applies a CXL reset to every LD and takes the link down. -/
  | perstNAssert
  /-- PERST_N_RELEASE (R455): On release of PERST_N the CXL link trains within 50 to 250 ms. -/
  | perstNRelease
  /-- PEND_SET (R366): Raises the selected sources as if their causes had occurred. -/
  | pendSet (ld : Nat) (word : Nat) (v : BitVec 64)
  /-- PEND_CLR (R369): Acknowledges the events of the selected sources. -/
  | pendClr (ld : Nat) (word : Nat) (v : BitVec 64)
  /-- MASK_SET (R366): Masks the selected sources. -/
  | maskSet (ld : Nat) (word : Nat) (v : BitVec 64)
  /-- MASK_CLR (R366): Unmasks the selected sources and routes any that are pending. -/
  | maskClr (ld : Nat) (word : Nat) (v : BitVec 64)
  /-- FPEND_SET (R367): Raises the selected fast slots. -/
  | fpendSet (ld : Nat) (v : BitVec 64)
  /-- FPEND_CLR (R367): Acknowledges the selected fast slots. -/
  | fpendClr (ld : Nat) (v : BitVec 64)
  /-- FMASK_SET (R367): Masks the selected fast slots. -/
  | fmaskSet (ld : Nat) (v : BitVec 64)
  /-- FMASK_CLR (R367): Unmasks the selected fast slots and routes any that are pending. -/
  | fmaskClr (ld : Nat) (v : BitVec 64)
  /-- CURPRIO_WRITE (R371): Sets a target's current priority, rerouting waiting sources when it falls. -/
  | curprioWrite (ld : Nat) (target : Nat) (v : BitVec 8)
  /-- ROUTES_COMMIT (R365): Commits route entries, resetting pending and mask where OWNER or KIND changes. -/
  | routesCommit (f : VopFrame)
  /-- EVIN_PIN_ACTIVE (R373): EVIN0_N or EVIN1_N goes active or has an edge, raising its source or adding to its edge count. -/
  | evinPinActive (i : Nat) (active : Bool)
  /-- VOP_READ (R378): Returns an object's value of up to 1,024 bytes after the ordered checks. -/
  | vopRead (f : VopFrame)
  /-- VOP_WRITE (R392): Writes an RW or WO object, or stages an RWC value, for objects without a row of their own. -/
  | vopWrite (f : VopFrame)
  /-- VOP_COMMIT (R393): Applies or discards the staged subindices of an index, or of every held index. -/
  | vopCommit (f : VopFrame)
  /-- BLOCK_READ (R394): Returns up to 1,024 bytes of an OCTETS object from a snapshot taken at OFFSET 0. -/
  | blockRead (f : VopFrame)
  /-- BLOCK_WRITE (R394): Stages bytes of an RWC OCTETS object at OFFSET. -/
  | blockWrite (f : VopFrame)
  /-- SUBSCRIBE (R395): Subscribes to or cancels change notifications for an object. -/
  | subscribe (f : VopFrame)
  /-- NOTIFY (R395): Sends a NOTIFY for a changed subscribed object, at most once per MIN_INTERVAL. -/
  | notify (sid : Nat) (sub : Nat)
  /-- HELLO (R386): Starts a session set-up and replies with a signed ephemeral key. -/
  | hello (f : VopFrame)
  /-- PROOF (R386): Verifies the manager's signature and opens the session, or enrols the first owner key. -/
  | proof (f : VopFrame)
  /-- CLOSE (R388): Ends a VOP session and discards its staged values. -/
  | close (f : VopFrame)
  /-- SESSION_IDLE_EXPIRY (R388): A session with no request for SESSION_IDLE ends. -/
  | sessionIdleExpiry (sid : Nat)
  /-- SESSION_SETUP_TIMEOUT (R386): A setup that has not completed within 5 s is discarded. -/
  | sessionSetupTimeout (sid : Nat)
  /-- UNIT_ADMIN_COMMIT (R397): Commits unit ADMIN states, draining units taken out or starting TESTING for units returned. -/
  | unitAdminCommit (f : VopFrame)
  /-- UNIT_DRAIN_DONE (R399): A DRAINING unit finishes its held work and reports OUT_OF_SERVICE. -/
  | unitDrainDone (cls : UnitClass) (unit : Nat)
  /-- DRAIN_LIMIT_EXPIRY (R398): DRAINING beyond DRAIN_LIMIT counts as a disagreement and raises MGMT_STATE_MISMATCH. -/
  | drainLimitExpiry (cls : UnitClass) (unit : Nat)
  /-- SELF_TEST_DONE (R400): A unit's self-test ends, and the unit reports IN_SERVICE or FAULTED. -/
  | selfTestDone (cls : UnitClass) (unit : Nat) (pass : Bool)
  /-- CALIBRATION_COMMIT (R402): Commits calibration values to flash with layout checks. -/
  | calibrationCommit (f : VopFrame)
  /-- RECALIBRATE (R403): Enters the banked state, measures the selected groups, writes them and retrains. -/
  | recalibrate (f : VopFrame)
  /-- RECALIBRATE_DONE (R403): The recalibration run ends, clearing its bank cause and setting RECAL_STATE. -/
  | recalibrateDone (measured : List (Nat × List Byte)) (failed : BitVec 4)
  /-- REHEARSAL_COMMIT (R404): Commits rehearsal ENABLE or a schedule slot, ending every running slot when ENABLE is 0. -/
  | rehearsalCommit (f : VopFrame)
  /-- REHEARSAL_RUN_START (R440): A scheduled fault-injection run starts or is skipped, raising REHEARSAL. -/
  | rehearsalRunStart (slot : Nat)
  /-- REHEARSAL_RUN_END (R440): A run ends after DURATION, undoing its effects and raising REHEARSAL. -/
  | rehearsalRunEnd (slot : Nat)
  /-- STAGE_COMMIT (R423): Writes a staged image into the idle slot and verifies it. -/
  | stageCommit (f : VopFrame)
  /-- ACTIVATE (R424): ACTIVATE 1 banks the node and boots the verified slot online; ACTIVATE 2 selects the slot for the next power-good. -/
  | activate (f : VopFrame)
  /-- ACTIVATION_DONE (R424): The new firmware is loaded and measured, or the previous slot is restored, and banked exit begins. -/
  | activationDone (failed : Option Status)
  /-- ROLLBACK_COMMIT (R425): Blows rollback fuses up to the running SVN and revokes the key slots below it. -/
  | rollbackCommit (f : VopFrame)
  /-- UNCORRECTABLE_ERROR (R428): An uncorrectable error ends the request or stalls metadata reads and starts retirement of the failed storage. -/
  | uncorrectableError (w : ErrWhere)
  /-- CORRECTABLE_ERROR (R430): A correctable error is corrected and counted, and relocation starts at 16 errors per granule. -/
  | correctableError (w : CeWhere)
  /-- CHANNEL_LOST (R428): A channel or package with more than 64 uncorrectable errors in 1 s, or a training failure, is declared lost and emptied. -/
  | channelLost (upper : Bool) (unit : Nat)
  /-- BURNISH_READ (R429): The patrol scrub reads the next line or sector at its paced rate, writing back corrected data. -/
  | burnishRead (upper : Bool) (unit : Nat) (found : BurnFound)
  /-- RELOCATION_DONE (R431): A frame relocated from retired storage is switched and its touchstone rebuilt, and FRAME_RETIRED is raised. -/
  | relocationDone (frame : Nat)
  /-- CONTEXT_LOST_SRAM (R435): A request whose state SRAM fails between phases ends with CONTEXT_LOST. -/
  | contextLostSram (r : Nat)
  /-- PIECE_OVERRUN (R438): A piece running over four times its planned time plus 100 µs ends its request and switches the unit out. -/
  | pieceOverrun (cls : UnitClass) (unit : Nat)
  /-- SPARE_SWITCH (R438): A spare takes over a faulted unit's logical number at the next boundary, raising SPARE_SWITCHED. -/
  | spareSwitch (cls : UnitClass) (unit : Nat)
  /-- PACE_UPDATE (R439): Every 1 ms each die's replica-measured pace is updated and the node PACE is published. -/
  | paceUpdate (paces : List (BitVec 32))
  /-- PWRGOOD_RISE (R447): Power-good starts the boot sequence, with straps sampled and the local counter started. -/
  | pwrgoodRise (straps : BitVec 32)
  /-- PWRGOOD_FALL (R445): PWRGOOD low for 1 µs or more is a power-down that loses keys and volatile state. -/
  | pwrgoodFall
  /-- RECOVERY_ENTRY (R413): When both flash slots fail, the node stays in recovery with the ROM serving the management port only. -/
  | recoveryEntry
  /-- READY (R448): After PHY and link training, READY is raised and the node is RUNNING or BANKED. -/
  | ready
  /-- FORCE_HOLD_CHANGE (R449): FORCE_HOLD active sets, and inactive clears, the FORCE_HOLD bank cause. -/
  | forceHoldChange (active : Bool)
  /-- THERM_TRIP_N_CHANGE (R467): THERM_TRIP_N active sets the THERMAL bank cause; going inactive starts its 1 s clear timer. -/
  | thermTripNChange (active : Bool)
  /-- THERMAL_CLEAR_TIMER (R449): THERMAL clears after THERM_TRIP_N has been inactive 1 s with every die below its resume limit. -/
  | thermalClearTimer
  /-- THERM_TRIP_STUCK (R456): THERM_TRIP_N active for 10 s raises STUCK_INPUT and sets STUCK bit 0. -/
  | thermTripStuck
  /-- DIE_TRIP_LIMIT (R467): A die reaching its trip limit sets the THERMAL bank cause. -/
  | dieTripLimit (sensor : Nat) (temp : Int)
  /-- CRITICAL_TEMPERATURE (R467): A sensor at CRITICAL forces VCORE to 0.60 V in hardware, sets THERMAL and drives ALERT_N low. -/
  | criticalTemperature (sensor : Nat) (temp : Int)
  /-- CRITICAL_HOLD_END (R467): When every die is below its resume limit, the hardware hold ends and the governor resumes from 0.60 V. -/
  | criticalHoldEnd
  /-- NODE_RST_N_ASSERT (R453): NODE_RST_N active sets its bank cause with a warm reset pending. -/
  | nodeRstNAssert
  /-- NODE_RST_N_RELEASE (R453): Release of NODE_RST_N lets the pending warm reset proceed. -/
  | nodeRstNRelease
  /-- BANK_CMD (R449): A write of 1 sets, and of 0 clears, the MANAGEMENT bank cause. -/
  | bankCmd (f : VopFrame)
  /-- WARM_RESET (R453): Banks the node, ends sessions, resets and self-tests units, applies LD settings, retrains CXL and exits. -/
  | warmReset (f : VopFrame)
  /-- BANKED_ENTRY (R450): The first bank cause starts entry: queues stop starting entries and REQ messages are dropped while requests drain. -/
  | bankedEntry
  /-- DRAIN_BOUND_EXPIRY (R450): At the drain bound, requests still held end with CONTEXT_LOST, the core is held and tiers enter self-refresh. -/
  | drainBoundExpiry
  /-- BANKED_EXIT (R452): When the last cause clears, tiers leave self-refresh, the core is released and the ports retrain. -/
  | bankedExit
  /-- FABREF_LOSS (R463): Loss of FABREF switches the counter to the internal oscillator, takes ports down and drives ALERT_N low. -/
  | fabrefLoss
  /-- FABREF_RETURN (R463): FABREF stable for 1 ms resumes the counter from the reference, releases ALERT_N and retrains the ports. -/
  | fabrefReturn
  /-- PE_REFCLK_LOSS (R463): Loss of PE_REFCLK takes the CXL link down. -/
  | peRefclkLoss
  /-- GOVERNOR_TICK (R466): Every 100 µs the governor computes the VCORE setpoint from thermal margin and power and sends it over AVSBus. -/
  | governorTick (temps : List Int) (power : Nat) (meas : Nat) (avsFailed : Nat)
  /-- GOVERNOR_LIMITS_COMMIT (R465): Commits VCORE limits, the power cap, throttle points or the governor table. -/
  | governorLimitsCommit (f : VopFrame)
  /-- REGISTER_WRITE (R10): A write to a register or object with no behaviour of its own takes effect by its access right. -/
  | registerWrite (ld : Nat) (reg : HostReg) (v : BitVec 64)
  /-- CONN_RESET_RESEND (R243): In RESET, CONN_RESET is sent again 100 µs after the previous send, three times in all. -/
  | connResetResend (conn : Nat)
  /-- BUCKET_REFILL (R316): A tenant's committed or peak token bucket refills to zero or above, so a scheduler point that served nothing resumes serving the flow. -/
  | bucketRefill (tenant : Nat) (res : Nat)
  /-- ATTENTION_CORE_PIECE_END (R438): A piece of work on an attention core ends, its busy time is charged and compute-die dispatch chooses the next piece or lets a spare take over. -/
  | attentionCorePieceEnd (core : Nat)
  /-- CXL_LINK_TRAINING_DONE (R455): The CXL link finishes training after PERST_N release, start-up or PE_REFCLK return and comes up. -/
  | cxlLinkTrainingDone
  /-- MSIX_CONTROL_WRITE (R371): A host write that enables or unmasks MSI-X, at function level or in a table entry's Vector Control, makes a target live or sends a waiting message. -/
  | msixControlWrite (ld : Nat) (w : MsixWrite)
  /-- BUS_MASTER_ENABLE_WRITE (R454): A change of an LD's Bus Master Enable holds, or lets resume, the node's DMA to the areas that the LD granted. -/
  | busMasterEnableWrite (ld : Nat) (on : Bool)
  deriving DecidableEq, Repr

end Sys2Proof
end

