-- ==== Sys2Proof/WellFormed.lean ====
section
/-! DEFINITION. Sys2Proof/WellFormed.lean: the widths and ranges that the spec gives a command's operands. A meaning
does not rely on them; they say which terms stand for something that can reach the node. -/

namespace Sys2Proof

/-- A packet's fields fit the widths of R237, its port exists (R19) and its payload has LEN bytes. -/
def Packet.wf (p : Packet) : Bool :=
  decide (p.port < 8) && decide (p.ver < 16) && decide (p.type < 64) && decide (p.src < 4096) && decide (p.dst < 4096) &&
  decide (p.tenant < 4096) && decide (p.hoplim < 256) && decide (p.conn < 2 ^ 24) && decide (p.retry < 256) &&
  decide (p.psn < 2 ^ 32) && decide (p.mlen < 2 ^ 32) && decide (p.reqId < 2 ^ 32) && decide (p.comp < 2 ^ 16) &&
  decide (p.epoch < 2 ^ 16) && decide (p.offset < 2 ^ 32) && decide (p.tstamp < 2 ^ 32) && decide (p.len < 2 ^ 16) &&
  decide (p.age < 256) && decide (p.etherType < 2 ^ 16) && decide (p.dport < 2 ^ 16) && decide (p.sport < 2 ^ 16) && decide (p.flow < 2 ^ 20) &&
  decide (p.hopLimit < 256) && decide (p.ecn < 4) && decide (p.vlan < 4096) && decide (p.pcp < 8) && decide (p.dscp < 64) &&
  (!p.lenOk || decide (p.payload.length = p.len))

/-- A route names an existing logical device or node (R32, R337). -/
def Route.wf : Route → Bool
  | .mgmtPort => true
  | .mailbox ld => decide (ld < 16)
  | .pyvas n => decide (n < 4096)
  | .doe ld => decide (ld < 16)

/-- A VOP frame's fields fit the header of R383. -/
def VopFrame.wf (f : VopFrame) : Bool :=
  f.route.wf && decide (f.ver < 256) && decide (f.op < 256) && decide (f.flags < 256) && decide (f.session < 2 ^ 32) &&
  decide (f.seq < 2 ^ 64) && decide (f.index < 2 ^ 16) && decide (f.sub < 256) && decide (f.offset < 2 ^ 32) &&
  decide (f.len < 2 ^ 16) && decide (f.payload.length = f.len) && f.via.wf

/-- How many logical units a class has on the largest variant (R19, R396). -/
def UnitClass.most : UnitClass → Nat
  | .core => 96 | .crucible => 16 | .engine => 32 | .walker => 64 | .nearBank => 1024 | .port => 8
  | .remoteEngine => 16 | .stack => 8 | .lowerCtl => 16 | .prefixUnit => 1 | .control => 8

/-- The operands of a command that a rule bounds lie in range. -/
def Instr.wf : Instr → Bool
  | .reqDataRx p | .reqMergeRx p | .rspDataRx p | .rspEndRx p | .missReplyRx p | .sackRx p | .creditAskRx p
  | .fenceAckRx p | .compAckRx p | .keepaliveRx p | .connSetupRx p | .connAcceptRx p | .connCloseRx p
  | .connResetRx p => p.wf
  | .vopRead f | .vopWrite f | .vopCommit f | .blockRead f | .blockWrite f | .subscribe f | .hello f | .proof f
  | .close f | .routesCommit f | .unitAdminCommit f | .calibrationCommit f | .recalibrate f | .rehearsalCommit f
  | .stageCommit f | .activate f | .rollbackCommit f | .bankCmd f | .warmReset f | .governorLimitsCommit f
  | .tenantAdminCommit f | .compositionAdminCommit f | .mapCommit f | .quenchNow f | .exportKeyWrite f
  | .tenantLimitsCommit f | .apertureCommit f | .ldConfigCommit f => f.wf
  | .vopFrame ld f => decide (ld < 16) && f.wf
  | .assayRequest route m => route.wf && m.via.wf
  | .nearBankStepEnd u | .refreshDue u => decide (u < 1024)
  | .attentionCorePieceEnd c => decide (c < 96)
  | .pauseFrameRx p | .keepalivePeriod p _ | .rateUpdate _ _ p _ _ | .portTrainingDone p _ | .portLinkDown p _ => decide (p < 8)
  | .unitDrainDone c u | .drainLimitExpiry c u | .selfTestDone c u _ | .pieceOverrun c u | .spareSwitch c u =>
    decide (u < c.most)
  | .piDoorbellWrite ld q _ | .cqCiDoorbellWrite ld q _ => decide (ld < 16) && decide (q < 16384)
  | .workEntryStart q _ => decide (q < 16384)
  | .windowRead ld t a => decide (ld < 16) && decide (t < 4096) && decide (a < 2 ^ 48) && decide (a % 64 = 0)
  | .windowWrite ld t a _ => decide (ld < 16) && decide (t < 4096) && decide (a < 2 ^ 48) && decide (a % 64 = 0)
  | .cxlMemRead ld a => decide (ld < 16) && decide (a % 64 = 0)
  | .cxlMemWrite ld a _ _ => decide (ld < 16) && decide (a % 64 = 0)
  | .hdmDecoderCommit ld d b n k _ =>
    decide (ld < 16) && decide (d < 4) && decide (b < 2 ^ 64) && decide (n < 2 ^ 64) && decide (k < 2 ^ 64)
  | .pendSet ld w _ | .pendClr ld w _ | .maskSet ld w _ | .maskClr ld w _ => decide (ld < 16) && decide (w < 32)
  | .fpendSet ld _ | .fpendClr ld _ | .fmaskSet ld _ | .fmaskClr ld _ => decide (ld < 16)
  | .curprioWrite ld t _ => decide (ld < 16) && decide (t < 64)
  | .evinPinActive i _ => decide (i < 2)
  | .rehearsalRunStart i | .rehearsalRunEnd i => decide (i < 16)
  | .bucketRefill t r => decide (t < 4096) && decide (r < 4)
  | .schedSample => true
  | .governorTick ts _ _ f => decide (ts.length = 20) && decide (f ≤ 3)
  | .paceUpdate ps => decide (ps.length = 11)
  | .dieTripLimit i _ | .criticalTemperature i _ => decide (i < 20)
  | .winsyncRead ld _
  | .identify ld
  | .backgroundOperationStatus ld
  | .getSupportedLogs ld
  | .getLog ld _ _
  | .getEventRecords ld _
  | .clearEventRecords ld _ _ _
  | .getEventInterruptPolicy ld
  | .setEventInterruptPolicy ld _ _
  | .getFwInfo ld
  | .transferFw ld _ _ _
  | .activateFw ld _
  | .getTimestamp ld
  | .setTimestamp ld _
  | .identifyMemoryDevice ld
  | .getHealthInfo ld
  | .getDynamicCapacityConfiguration ld
  | .getDynamicCapacityExtentList ld
  | .addDynamicCapacityResponse ld _
  | .releaseDynamicCapacity ld _
  | .unsupportedMailboxCommand ld _
  | .queueCreate ld _
  | .queueDestroy ld _
  | .areaGrant ld _
  | .areaReclaim ld _
  | .reclaim ld _
  | .backgroundCommandDone ld
  | .doeDiscovery ld _
  | .cdatTableAccess ld _
  | .functionLevelReset ld
  | .cxlReset ld
  | .registerWrite ld _ _
  | .msixControlWrite ld _
  | .busMasterEnableWrite ld _ => decide (ld < 16)
  | .geomDefine _ | .geomRelease _ | .seqCreate _ | .append _ _ | .fork _ | .seqPin _ | .seqPreempt _ | .seqRestore _
  | .restoreFailed _ _ | .seqDestroy _ | .seqTruncate _ | .seqQuery _ | .seqFence _ | .seqFenceTimeout _
  | .pageShare _ | .map _ | .unmap _ | .remap _ | .quarantineEnd _ | .attend _ | .broadcastCommandComplete _
  | .crucibleMergeDone _ | .mergeOpen _ | .mergeSubmit _ _ | .mergeClose _ | .mergeAbort _ | .mergeTimeout _
  | .tsRebuild _ | .tsRead _ | .touchstoneErrorRebuild _ _ | .gatherReduce _ | .ewise _ | .norm _ | .optStep _
  | .cast _ | .tierMoveUp _ | .tierMoveDown _ | .tierMoveHold _ | .heatPeriodExpiry | .demotionStart
  | .promotionStart _ | .migrationSwitch _ | .lowerUnitRmw _ _ _ | .imageCompaction _ | .lowerSectorWaitEnd _
  | .ltReadLimitExpiry _ | .privilegedReadRetry _ _ _ | .swapOutFrameDone _ | .swapOutFailure _
  | .restoreFrameReadDone _ _ _ | .restoreDmaTimeout _ | .psInsert _ | .psRemove _ | .psSearch _ | .psPurge _
  | .retransmitTimerExpiry _ _ _ | .responseTimerExpiry _ | .sackDelayExpiry _ _
  | .pathReadmit _ _ | .creditAskRepeat _ | .backoffExpiry _ | .peerBankedTimeout _ | .connSetupResend _
  | .connCloseResend _ | .connResetQuietEnd _ | .connNumberRelease _ | .requestEnd _ | .remoteRequest _ _
  | .write _ _ | .read _ _ | .writeImm _ _ | .fadd _ | .swap _ | .cas _ | .cas128 _ _ | .ledgerQuery _ | .fence _
  | .waitCount _ | .waitCountTimeout _ | .connect _ | .disconnect _ | .reg _ | .revoke _ | .winBind _
  | .contextFetchDone _ | .contextWriteback _ | .winLimitExpiry _ | .quench _ | .anneal _ | .annealDeadlineExpiry _
  | .zeroingDone _ | .compositionFreed _ | .compMapReleased _ | .quoteReady _ | .perstNAssert
  | .perstNRelease | .notify _ _ | .sessionIdleExpiry _ | .sessionSetupTimeout _ | .recalibrateDone _ _
  | .activationDone _ | .uncorrectableError _ | .correctableError _ | .channelLost _ _ | .burnishRead _ _ _
  | .relocationDone _ | .contextLostSram _ | .pwrgoodRise _ | .pwrgoodFall | .recoveryEntry | .ready
  | .forceHoldChange _ | .thermTripNChange _ | .thermalClearTimer | .thermTripStuck | .criticalHoldEnd
  | .nodeRstNAssert | .nodeRstNRelease | .bankedEntry | .drainBoundExpiry | .bankedExit | .fabrefLoss | .fabrefReturn
  | .peRefclkLoss | .connResetResend _ | .cxlLinkTrainingDone => true

end Sys2Proof
end

