-- ==== Sys2Proof/Machine/State.lean ====
section
/-! DEFINITION. Sys2Proof/Machine/State.lean: everything the spec gives the node, as plain data, and its value at
reset. INVENTORY.md lists each piece with its rule. -/

namespace Sys2Proof.Machine

open Sys2Proof

/-- The machine never stops on a fault: a request that fails ends with a status of R35, and every other trouble is an
event, a counter or a bank cause. `unused` is raised by nobody; it keeps the type inhabited (safe). -/
inductive Fault where
  | unused
  deriving DecidableEq, Repr

/-- `notModelled` is raised by an arm of `exec` for a command without a meaning (safe: the machine stops). -/
inductive Refusal where
  | notModelled (mnemonic : String)
  deriving DecidableEq, Repr

/-- The four variants (R1). -/
inductive Variant where
  | fn8_2x | fn8_2 | fn6_1 | fn4_1p
  deriving DecidableEq, Repr

/-- Local time counter and the clocks it runs from (R26, R463); the host-set timestamp of R348. -/
structure Clock where
  ltime : BitVec 64 := 0
  /-- Fractional accumulator, in fifths of a nanosecond. -/
  frac : Nat := 0
  fabref : Bool := true
  refclk : Bool := true
  stamp : BitVec 64 := 0
  stampAt : BitVec 64 := 0
  deriving DecidableEq, Repr

/-- NODE_STATE (R446). -/
inductive NodePhase where
  | starting | running | entering | banked | exiting
  deriving DecidableEq, Repr

/-- Node state of chapter 17 and the pin states. -/
structure Node where
  powered : Bool := true
  phase : NodePhase := .starting
  ready : Bool := false
  readyTime : BitVec 64 := 0
  /-- BANK_CAUSES (R446). -/
  causes : BitVec 32 := 0
  /-- PINS (R446): conditioned levels, 1 for active. -/
  pins : BitVec 32 := 0
  stuck : BitVec 32 := 0
  straps : BitVec 32 := 0
  coreHeld : Bool := false
  selfRefresh : Bool := false
  bankedAt : BitVec 64 := 0
  thermCut : Bool := false
  /-- THERM_TRIP_N has been reported stuck and has not been inactive for 1 s since (R456). -/
  stuckDone : Bool := false
  warmPending : Bool := false
  warmRunning : Bool := false
  recovery : Bool := false
  critHold : Bool := false
  alertRecovery : Bool := false
  alertAvs : Bool := false
  alertClk : Bool := false
  linkUp : Bool := false
  /-- FABREF has returned in the banked state or its exit, which then waits for the ports to train (R472). -/
  clkWait : Bool := false
  /-- Number of the draw of the node metadata key (R310). -/
  metaKey : Nat := 0
  /-- Groups of the running RECALIBRATE (R403). -/
  recal : BitVec 8 := 0
  /-- Calibration values in use that differ from the flash's, by Index · 256 + Sub (R401). -/
  calUse : List (Nat × List Byte) := []
  deriving DecidableEq, Repr

/-- Tenant STATE (R312); a tenant that no record names is FREE. -/
inductive TenantState where
  | active | quenching | zeroing
  deriving DecidableEq, Repr

/-- A committed and a peak bucket of one resource (R316): how far each stands below its depth at local time `atTime`, in
10^-9 units; 0 is full, and above the depth the bucket is negative. -/
structure Bucket where
  committed : Nat := 0
  peak : Nat := 0
  atTime : Nat := 0
  deriving DecidableEq, Repr

/-- The last 1,024 samples of a flow, the newest first: depth and head delay (R319). -/
structure Sample where
  hist : List (Nat × Nat) := []
  deriving DecidableEq, Repr

structure Tenant where
  id : Nat
  state : TenantState := .active
  /-- The tenant's key is held (R311), and the number by which Config.tenantKey knows it: that of its draw. -/
  keyed : Bool := true
  key : Nat := 0
  /-- ROOT (R312). -/
  root : Nat := 0
  /-- Buckets of resources 0 to 3. -/
  buckets : List Bucket := []
  /-- Samples of (resource, class), index 2r + c. -/
  samples : List Sample := []
  sampleTime : BitVec 64 := 0
  /-- Residency of frames whose composition has been released, in byte-ns: upper, lower, swap (R312, R324). -/
  residue : List Nat := [0, 0, 0]
  deriving DecidableEq, Repr

/-- Composition STATE (R320). -/
inductive CompState where
  | active | releasing | quenching | annealing
  deriving DecidableEq, Repr

/-- One path of a map's node entry (R321). -/
structure MapPath where
  port : Nat
  mac : BitVec 48
  ip : BitVec 128
  deriving DecidableEq, Repr

structure MapNode where
  node : Nat
  nextHop : Nat
  paths : List MapPath
  deriving DecidableEq, Repr

structure MapAdapter where
  id : Nat
  kind : Nat
  via : Nat
  node : Nat
  base : Nat
  length : Nat
  deriving DecidableEq, Repr

/-- An installed composition map (R321, R323). -/
structure CompMap where
  epoch : Nat
  crc : Nat
  nodes : List MapNode
  adapters : List MapAdapter
  deriving DecidableEq, Repr

/-- METERS (R325); residencies in byte-ns, integrated up to local time `upTo`. -/
structure Meters where
  egress : Nat := 0
  coreNs : Nat := 0
  nbNs : Nat := 0
  ltBytes : Nat := 0
  upperRes : Nat := 0
  lowerRes : Nat := 0
  swapRes : Nat := 0
  requests : Nat := 0
  since : Nat := 0
  upTo : Nat := 0
  deriving DecidableEq, Repr

structure Comp where
  slot : Nat
  id : Nat
  tenant : Nat
  loan : Bool
  state : CompState := .active
  exportKey : Option (BitVec 512) := none
  map : Option CompMap := none
  oldMap : Option CompMap := none
  /-- Logical device and dynamic capacity region (R342). -/
  region : Option (Nat × Nat) := none
  /-- Region offsets of the 2 MiB blocks withdrawn for errors (R343). -/
  withdrawn : List Nat := []
  meters : Meters := {}
  deriving DecidableEq, Repr

/-- A scheduler point (R314). -/
inductive Point where
  | port (p : Nat) | cores | unit (n : Nat) | lower (p : Nat)
  deriving DecidableEq, Repr

/-- A flow's finish tag at a point (R315). -/
structure Flow where
  point : Point
  tenant : Nat
  loan : Bool
  finish : Rat
  deriving DecidableEq, Repr

/-- A cache geometry (R59). -/
structure Geom where
  tenant : Nat
  id : Nat
  layers : Nat
  hkv : Nat
  d : Nat
  dv : Nat
  kfmt : Nat
  vfmt : Nat
  latent : Bool
  /-- The BF16 channel scales of R60, in the order of R60; empty without an INT8 format. -/
  scales : List (BitVec 16) := []
  deriving DecidableEq, Repr

/-- Sequence states (R68) but DESTROYING, which `Seq.destroying` holds: requests accepted before a SEQ_DESTROY still run. -/
inductive SeqState where
  | active | preempting | preempted | restoring
  deriving DecidableEq, Repr

structure Seq where
  idx : Nat
  gen : Nat
  tenant : Nat
  comp : Nat
  geom : Nat
  base : Nat
  cap : Nat
  /-- Layer fills (R66), layer 0 first. -/
  fills : List Nat
  pinned : Bool := false
  rclass : Nat := 0
  state : SeqState := .active
  destroying : Bool := false
  lastAtt : BitVec 64 := 0
  parent : Nat := 0
  /-- Frames swapped out or in by the operation in progress. -/
  moved : Nat := 0
  /-- The request that started the restore in progress, if any; of a PREEMPTING sequence the SEQ_PREEMPT that has not begun its swap-out (R84). -/
  starter : Option Nat := none
  /-- Sequences whose swap-out failed while its restore waited for room, and those that it pre-empted for room (R85, R86). -/
  tried : List Nat := []
  victims : List Nat := []
  deriving DecidableEq, Repr

/-- Where a frame lies (R180): 16 KiB granule of a channel, a package, or chunks of the swap area. -/
inductive Place where
  | upper (channel granule : Nat)
  | lower (package : Nat)
  | swap (slot chunks : Nat)
  deriving DecidableEq, Repr

/-- A touchstone block's location (R131): TSBLOCK number, channel, first granule, byte offset, bytes. -/
structure TsBlock where
  num : Nat
  channel : Nat
  granule : Nat
  offset : Nat
  size : Nat
  deriving DecidableEq, Repr

/-- A frame's touchstone word and block (R129, R132). `vals` holds (MIN, MAX) for h·D + c; empty: reset values. -/
structure Touch where
  block : TsBlock
  cover : Nat := 0
  nonfin : Bool := false
  vals : List (BitVec 16 × BitVec 16) := []
  /-- The word or the block met an uncorrectable error not yet rebuilt (R138, R150). -/
  bad : Bool := false
  deriving DecidableEq, Repr

inductive FrameKind where
  | page | loan | accumulator | ledger
  deriving DecidableEq, Repr

/-- A retirement record (R433). -/
structure RetireRec where
  time : BitVec 64
  cause : Nat
  tier : Nat
  tenant : Nat
  unit : Nat
  lines : Nat
  location : Nat
  frame : Nat
  address : Nat
  deriving DecidableEq, Repr

/-- A migration in progress (R199), or a relocation (R431). -/
structure Migration where
  dest : Place
  /-- 4 KiB units written during the copy. -/
  dirty : List Nat := []
  req : Option Nat := none
  hold : Bool := false
  reloc : Bool := false
  /-- Image sectors at the destination, when it is the lower tier, and the chunks reserved for them. -/
  total : Nat := 0
  chunks : List Nat := []
  serial : Nat := 0
  /-- Passes made over the dirty units (R199 step 4). -/
  passes : Nat := 0
  /-- The frame-table entry has been switched, by a write that waited for it (R199 step 5). -/
  moved : Bool := false
  /-- The package whose controller moves its image. -/
  package : Option Nat := none
  /-- A frame whose promotion starts after this demotion (R198). -/
  thenUp : Option Nat := none
  /-- A table page that gains an upper-tier copy after this demotion (R92): tenant, level, index. -/
  thenTable : Option (Nat × Nat × Nat) := none
  deriving DecidableEq, Repr

/-- One entry of the frame table (R181) with what hangs on the frame. -/
structure Frame where
  num : Nat
  gen : Nat := 1
  size : Nat
  tenant : Nat
  /-- Composition slot charged for residency (R325); 1024: none (released). -/
  comp : Nat
  kind : FrameKind
  place : Place
  home : Nat
  heat : Nat := 0
  held : Bool := false
  touch : Option Touch := none
  /-- 64-byte lines that met an uncorrectable error and are not yet relocated. -/
  badLines : List Nat := []
  /-- Retirement records that wait for the frame's relocation (R431, R432). Until then ADDRESS holds the offset in the frame of
  the first failed line. -/
  retire : List RetireRec := []
  /-- Walks older than this saw the storage before its error. -/
  retireTag : Nat := 0
  /-- TOTAL, dead sectors and SERIAL of the image (R184, R189). -/
  total : Nat := 0
  dead : Nat := 0
  serial : Nat := 0
  /-- The 4 KiB chunks of its package that hold the image, in order (R181, R185). -/
  chunks : List Nat := []
  /-- Directory entries of the image, by unit; 0 past the end (R190). -/
  dir : List Nat := []
  mig : Option Migration := none
  /-- Swap run of the image being written out (R205), or of one being read back. -/
  swapRun : Option (Nat × Nat) := none
  deriving DecidableEq, Repr

/-- A mapped range of one frame: the LEAF or SWAPPED entries of R89. -/
structure Mapping where
  tenant : Nat
  addr : Nat
  frame : Nat
  /-- Frame generation written in the entries (R89). -/
  gen : Nat
  r : Bool
  w : Bool
  seq : Bool
  deriving DecidableEq, Repr

/-- A table page (R88, R92), a root among them: `index` is the tenant address divided by what the page covers. -/
structure TablePage where
  tenant : Nat
  level : Nat
  index : Nat
  /-- Table page number (R89). -/
  num : Nat := 0
  /-- The two mirrored copies: a package each, or on FN4-1P a granule of two upper-tier stacks. -/
  copies : List Place := []
  /-- The chunk of each copy in a package. -/
  chunks : List Nat := []
  /-- The upper-tier copy that walks read, as channel and granule; four pages share a granule. -/
  upper : Option (Nat × Nat) := none
  heat : Nat := 0
  deriving DecidableEq, Repr

/-- A live walk (R95). -/
structure Walk where
  req : Nat
  tenant : Nat
  /-- The frame it yielded. -/
  frame : Nat
  w : Nat
  deriving DecidableEq, Repr

/-- Storage in quarantine (R95). -/
inductive Storage where
  | place (p : Place) (size : Nat) (chunks : List Nat)
  | block (b : TsBlock)
  deriving DecidableEq, Repr

structure QItem where
  id : Nat
  tag : Nat
  tenant : Nat
  what : Storage
  /-- The frame number that is quarantined with the storage, when its frame has been released. -/
  frame : Option Nat := none
  /-- The touchstone block that is freed with the frame (R131, R135). -/
  block : Option TsBlock := none
  /-- Displaced by the swap-out of this sequence (R84). -/
  victim : Option Nat := none
  deriving DecidableEq, Repr

/-- A granule that holds touchstone blocks (R131). -/
structure TsGranule where
  tenant : Nat
  channel : Nat
  granule : Nat
  /-- Its place in the touchstone area, in granules (R132). -/
  area : Nat
  /-- (offset, size) of the blocks it holds. -/
  blocks : List (Nat × Nat)
  deriving DecidableEq, Repr

/-- A privileged read in its passes (R187). -/
structure Stall where
  id : Nat
  kind : MetaKind
  tenant : Nat
  key : Nat
  req : Option Nat
  copies : Nat
  attempts : Nat
  /-- Where its copies lie, in the order of reading: upper tier, channel or package, granule or chunk. -/
  places : List (Bool × Nat × Nat) := []
  deriving DecidableEq, Repr

/-- A prefix entry: CAM slot and key record (R212). -/
structure PsSlot where
  bank : Nat
  slot : Nat
  gen : Nat
  tenant : Nat
  tag : BitVec 64
  ckey : BitVec 256
  mkey : BitVec 64
  handle : Nat
  page : Nat
  deriving DecidableEq, Repr

/-- A record of an accumulator: FP32 m, l, o and the counts (R114). -/
structure Record where
  m : BitVec 32
  l : BitVec 32
  o : List (BitVec 32)
  pagesRead : Nat := 0
  pagesSkipped : Nat := 0
  tokens : Nat := 0
  beta : BitVec 32 := 0
  deriving DecidableEq, Repr

/-- A contribution that has begun (R123). -/
structure Contrib where
  idx : Nat
  /-- The connection and REQ_ID, or none and the request, that it comes from. -/
  src : Option Nat × Nat
  ended : Bool := false
  status : Status := .ok
  blocks : Nat := 0
  /-- Records that arrived with PAGES_SKIPPED above 0. -/
  skipped : Nat := 0
  /-- A failure met while merging it (R428). -/
  failed : Option Status := none
  deriving DecidableEq, Repr

structure MergeCtx where
  slot : Nat
  gen : Nat
  tenant : Nat
  comp : Nat
  result : Nat
  records : Nat
  contribs : Nat
  deadline : Nat
  dv : Nat
  ofmt : Nat
  counts : Bool
  normalise : Bool
  /-- Accumulator records that differ from the identity, by index. -/
  acc : List (Nat × Record) := []
  begun : List Contrib := []
  closing : Option Nat := none
  timedOut : Bool := false
  frames : List Nat := []
  deriving DecidableEq, Repr

/-- Who sent a request. -/
inductive Origin where
  | queue (q : Nat)
  | remote (conn psn : Nat)
  | mailbox (ld : Nat)
  | window (op : Nat)
  /-- A WRITE of the stream of an ANNEAL, by composition slot (R332). -/
  | stream (slot : Nat)
  deriving DecidableEq, Repr

/-- What a request waits for. -/
inductive Wait where
  | restore (seq : Nat)
  | swapOut (seq : Nat)
  | seqIdle (seq : Nat)
  | destroy (seq : Nat)
  | fence (epoch : Nat)
  | work
  | mergeClose (slot : Nat)
  | tier
  | remote
  | queueFence
  | waitCount
  | revoke (slot gen : Nat)
  | revoked (slot gen : Nat)
  | winBind
  | connect
  | disconnect (conn : Nat)
  | quench (slot : Nat)
  | anneal (slot : Nat)
  | sectors
  | slots
  /-- Earlier requests of its connection that touch a common byte (R290). -/
  | turn
  deriving DecidableEq, Repr

inductive Phase where
  | started
  | waiting (w : Wait)
  | ended (st : Status) (result : Nat)
  deriving DecidableEq, Repr

/-- A candidate page of a record (R142): its visible slots and the bound B_p. -/
structure Cand where
  page : Nat
  slots : Nat
  bound : BitVec 32
  deriving DecidableEq, Repr

/-- A score as the reference of R52 sees it: its value, +infinity or NaN (R49). -/
inductive SlotScore where
  | fin (x : Rat) | pos | nan
  deriving DecidableEq, Repr

/-- A visible slot of the reference: page, local slot, score and value vector. A slot whose score is -infinity is none (R49). -/
structure RefSlot where
  page : Nat
  slot : Nat
  score : SlotScore
  v : List (BitVec 32)
  deriving DecidableEq, Repr

/-- The reference of a record: E_s and the slots of its whole context (R52, R53). -/
structure Reference where
  es : Rat := 0
  slots : List RefSlot := []
  deriving DecidableEq, Repr

/-- One record of an ATTEND in progress (R107, R113, R143). -/
structure RecWork where
  k : Nat
  cands : List Cand
  ref : Reference := {}
  omitted : List Nat := []
  mpub : BitVec 32 := 0xFF800000
  deriving DecidableEq, Repr

/-- One read of a work block (R111) over a group run (R112). `parent` numbers the block of R111; its lead and its follow
entries are read apart (R143, R169). -/
structure Block where
  id : Nat
  parent : Nat
  page : Nat
  frame : Nat
  /-- Where the walk found the frame (R29). -/
  place : Place
  recs : List Nat
  kv : Nat
  /-- Local slots `[lo, hi)` of the group run (R112). -/
  lo : Nat
  hi : Nat
  bytes : Nat
  /-- Planned time on a unit, and its arithmetic alone (R152), in ps (R173). -/
  planned : Nat
  arith : Nat
  /-- Query table that its vectors lie in, by number in the request (R167). -/
  table : Nat := 0
  lead : Bool := false
  follow : Bool := false
  deriving DecidableEq, Repr

/-- A query table (R167): up to 64 vectors of a row and a KV head, with the part of the ATTEND_PAGES body that it fixes. -/
structure QTable where
  body : BitVec 384
  rbase : Nat
  hpp : Nat
  /-- The vectors, packed (R108). -/
  bytes : List Byte
  deriving DecidableEq, Repr

/-- What a unit combines for a record over the pages that it reads for it in a command, and the partial once it has been sent to the
crucibles (R120, R169). A piece on an attention core has no command, and its block's number stands for the unit. -/
structure Partial where
  k : Nat
  cmd : Option Nat
  unit : Nat
  pages : List Nat
  sent : Option Record := none
  deriving DecidableEq, Repr

/-- ATTEND in progress. -/
structure AttWork where
  geom : Geom
  /-- Sequences of its rows, by handle index. -/
  seqs : List Nat
  recs : List RecWork
  /-- Blocks waiting for the follow wave of R143. -/
  held : List Block := []
  /-- Blocks on units or cores, not ended. -/
  busy : List Block := []
  /-- Lead blocks that have not ended their first step. -/
  leadLeft : List Nat := []
  /-- Blocks of R111 that have read their page. -/
  readIds : List Nat := []
  /-- Number of the next read of the follow wave. -/
  nextId : Nat := 0
  tables : List QTable := []
  partials : List Partial := []
  deriving DecidableEq, Repr

/-- A row of a loan operation with the places that dispatch walked to: frame, generation and offset of the destination,
and frame and offset of the source rows. -/
structure LoanRow where
  idx : Nat
  frame : Nat
  gen : Nat
  off : Nat
  srcs : List (Option (Nat × Nat))
  deriving DecidableEq, Repr

/-- Loan operation in progress (R155): descriptor, rows not yet done by item number, and the counts of its result. For
GATHER_REDUCE the rows are the listed table rows, with the position of the output row as `idx`; `outs` are the output rows
and `parts` the values read so far: output row, item and values (R161). -/
structure LoanWork where
  op : Nat
  desc : List Byte
  rows : List (Nat × LoanRow)
  outs : List LoanRow := []
  parts : List (Nat × Nat × List (BitVec 32)) := []
  /-- What the steps of a row so far have made of its output (R173), and the row as its statistics pass read it (R163). -/
  held : List (Nat × List Byte) := []
  stats : List (Nat × List (BitVec 32)) := []
  /-- Items of the parts on units or cores that have not ended, one for each part. -/
  jobs : List Nat
  rowsDone : Nat
  /-- Destination rows that the attention cores have been given (R179). -/
  fwd : List Nat
  deriving DecidableEq, Repr

/-- Outgoing side of a request whose messages go to a peer (R274, R287, R291), or of a contribution (R123). -/
structure RemoteOp where
  conn : Nat
  /-- REQ_ID on the wire. -/
  reqId : Nat := 0
  /-- The message, sent again at a reissue (R253, R255). -/
  msg : List Byte := []
  /-- A REQ_MERGE message. -/
  merge : Bool := false
  /-- Bytes of the response, for which space is reserved (R241). -/
  space : Nat := 0
  /-- PSN of its first and last packet. -/
  som : Nat := 0
  last : Nat := 0
  retries : Nat := 0
  /-- Local time of the first issue, for AGE (R237). -/
  firstIssue : Nat := 0
  /-- EPOCH of the map by which it was routed (R253). -/
  epoch : Nat := 0
  /-- HOPLIM with which its packets leave, and that of the response (R258). -/
  hop : Nat := 8
  rspHop : Nat := 8
  /-- RSP_DATA bytes placed. -/
  got : Nat := 0
  /-- An RSP_END that waits for the bytes it counts (R246): the count and the completion entry. -/
  rspEnd : Option (Nat × BitVec 256) := none
  /-- A response byte that could not be placed (R91). -/
  failed : Option Status := none
  /-- It waits for the context of its connection before its message is sent (R280). -/
  held : Bool := false
  /-- The path that its latest packet took (R249, R252). -/
  path : Nat := 0
  /-- It waits to be reissued (R256), or its packets of these PSNs wait to be sent again (R281). -/
  backoff : Bool := false
  resends : List Nat := []
  /-- The completion entry of its target is in, and decides its result. -/
  ended : Bool := false
  /-- The status and result that a contributor's own request has (R123). -/
  own : Status × Nat := (.ok, 0)
  deriving DecidableEq, Repr

/-- A request in progress (R16). -/
structure Req where
  id : Nat
  origin : Origin
  tenant : Nat
  comp : Nat
  loan : Bool
  entry : BitVec 512
  inlineData : List Byte := []
  phase : Phase := .started
  /-- Its row has run, passed its checks and found something to wait for. -/
  accepted : Bool := false
  att : Option AttWork := none
  loanWork : Option LoanWork := none
  remote : Option RemoteOp := none
  /-- Frames of a TIER_MOVE left to switch. -/
  tierLeft : List Nat := []
  /-- Count kept for the result field. -/
  count : Nat := 0
  /-- AGE on arrival (R237, R257); 0 for a request of this node. -/
  age : Nat := 0
  /-- Handles that the rows of an accepted ATTEND name (R99). -/
  handles : List Nat := []
  /-- Row of an ATTEND that R106 found at fault (R127). -/
  row : Option Nat := none
  /-- EPOCH of its packets, when it came from a peer (R254). -/
  epoch : Nat := 0
  /-- A contribution whose final message has not been sent (R123). -/
  finalDue : Bool := false
  /-- At the target: REQ_ID in the header of its message, and the payload of the answer. -/
  wireId : Nat := 0
  reply : List Byte := []
  /-- Region slots it holds in flight (R284). -/
  uses : List Nat := []
  /-- At the target: the answer has been sent in the step of the operation (R296). -/
  answered : Bool := false
  /-- CONNECT: connections of the run that failed, with their statuses (R276). -/
  fails : List (Nat × Status) := []
  /-- ORDER / NB chaining: requests that must end first. -/
  after : List Nat := []
  /-- Sequences whose swap-out failed while it waited for room (R85). -/
  tried : List Nat := []
  /-- Sequences that have been pre-empted for its room (R84). -/
  victims : List Nat := []
  /-- An APPEND whose copies are being made: the frames it has allocated, by layer and page (R73, R78). -/
  newFrames : List ((Nat × Nat) × Nat) := []
  /-- Its pieces have been entered at the controllers of the lower tier. -/
  lower : Bool := false
  deriving DecidableEq, Repr

/-- What a step does of one piece of work, a row or the read of a block: lines `[lo, hi)` of the piece's `n` (R173). -/
structure Part where
  item : Nat
  lo : Nat := 0
  hi : Nat := 1
  n : Nat := 1
  /-- The first step of the piece. -/
  first : Bool := true
  deriving DecidableEq, Repr

/-- A 64-byte line, or a state block, that a step has made of a row and will write at its end (R176): its part's item and line, the place
that dispatch walked to, and the exceptions of its elements (R43). -/
structure LineWrite where
  item : Nat
  line : Nat
  frame : Nat
  gen : Nat
  off : Nat
  bytes : List Byte
  sat : Nat := 0
  nanInt : Nat := 0
  deriving DecidableEq, Repr

/-- What a COPY copies: frames, and the offset of its first line (R172). -/
structure CopySpec where
  src : Nat
  dst : Nat
  off : Nat
  deriving DecidableEq, Repr

/-- What a piece of a lower-tier controller is for: a request's row, a frame that a TIER_MOVE moves, or the piece that an attention core began at
a time. -/
inductive LtItem where
  | request
  | frame (n : Nat)
  | core (c began : Nat)
  deriving DecidableEq, Repr

/-- A step of a command on a near-bank unit, or a piece on an attention core (R173, R315). -/
structure Job where
  req : Nat
  /-- The broadcast command that it belongs to. -/
  cmd : Option Nat := none
  parts : List Part
  /-- Touchstone work, whose effect is its request's, or a COPY. -/
  bare : Bool := false
  copy : Option CopySpec := none
  /-- Lines made by the step in progress. -/
  made : List LineWrite := []
  tenant : Nat
  comp : Nat
  loan : Bool
  /-- Node work, which is neither scheduled nor charged (R314). -/
  node : Bool := false
  /-- AGE of its request on arrival (R257). -/
  age : Nat := 0
  /-- Planned time, in ps. -/
  planned : Nat := 0
  start : Rat := 0
  /-- Local time at which it began to wait, and at which it began to run. -/
  since : Nat := 0
  began : Nat := 0
  /-- At a controller of the lower tier, where `planned` is bytes. -/
  item : LtItem := .request
  deriving DecidableEq, Repr

/-- A controller of the lower tier: the pieces that wait for it, and the one that it serves (R314). -/
structure LtCtl where
  p : Nat
  queue : List Job := []
  serving : Option Job := none
  deriving DecidableEq, Repr

/-- A broadcast command (R157): its word, what dispatch writes to the command slot that it names, and the work list and the steps of
each unit. Until a slot and work-list space are free it waits; `left` are the units that have not reported the end of their list. -/
structure NbCmd where
  num : Nat
  req : Nat
  word : BitVec 512
  slot : List Byte := []
  lists : List (Nat × List (BitVec 128))
  steps : List (Nat × List Job)
  issued : Bool := false
  left : List Nat := []
  deriving DecidableEq, Repr

/-- A host access to a 64-byte line whose frame has been found. -/
structure HostLine where
  ld : Nat
  tenant : Nat
  dpa : Nat
  addr : Nat
  frame : Nat
  line : Nat
  write : Option (BitVec 512)
  /-- The epoch of its walk (R95). -/
  walk : Nat := 0
  deriving DecidableEq, Repr

/-- An operand row for a unit: of one item of a request, or the broadcast row that serves every row (R160). -/
structure BufKey where
  req : Nat
  item : Option Nat
  opnd : Nat
  deriving DecidableEq, Repr

/-- An access waiting in a channel's bank queue (R174, R176): a host line, or a request of a peer. -/
inductive LineAcc where
  | host (x : HostLine)
  | remote (req : Nat)
  /-- The foreign lines of a row that another unit's step needs (R151): that unit, the operand, and where it lies. -/
  | fetch (unit : Nat) (key : BufKey) (frame off len : Nat)
  deriving DecidableEq, Repr

/-- An operand row in a unit's operand buffer (R151, R160). -/
structure BufRow where
  key : BufKey
  bytes : List Byte
  deriving DecidableEq, Repr

/-- A near-bank unit (R151, R174, R175); a unit that no record names is idle with no refresh owed. -/
structure NbUnit where
  n : Nat
  step : Option Job := none
  queue : List Job := []
  owed : Nat := 0
  cut : Bool := false
  /-- Commands of which it has begun a step. -/
  begun : List Nat := []
  lines : List LineAcc := []
  buffer : List BufRow := []
  deriving DecidableEq, Repr

/-- An attention core's piece in progress. -/
structure CoreSt where
  n : Nat
  piece : Option Job := none
  deriving DecidableEq, Repr

/-- OPER (R397). -/
inductive Oper where
  | absent | inService | draining | outOfService | faulted | testing
  deriving DecidableEq, Repr

/-- A unit whose OPER is not its resting value, or that is in disagreement (R398). -/
structure UnitRec where
  cls : UnitClass
  unit : Nat
  oper : Oper
  late : Bool := false
  mismatch : Bool := false
  deriving DecidableEq, Repr

/-- A work queue (R266, R267). -/
structure Wq where
  num : Nat
  tenant : Nat
  comp : Nat
  ld : Nat
  base : Nat
  log2 : Nat
  cq : Nat
  pi : BitVec 32 := 0
  ci : BitVec 32 := 0
  ended : Nat := 0
  /-- FENCE or WAIT_COUNT that holds the queue. -/
  holder : Option Nat := none
  /-- Entries fetched up to this index end with TIMEOUT unstarted (R295). -/
  abortTo : Option (BitVec 32) := none
  /-- Fetching has stopped for QUEUE_DESTROY (R352). -/
  stopped : Bool := false
  /-- Destroyed by a reset: no completion entry is written any more (R453, R454). -/
  dead : Bool := false
  deriving DecidableEq, Repr

/-- A completion queue. -/
structure Cq where
  num : Nat
  tenant : Nat
  comp : Nat
  ld : Nat
  base : Nat
  log2 : Nat
  event : Nat
  /-- Entries written, counted without wrap; PI is its low 32 bits and PHASE follows from it (R270). -/
  written : Nat := 0
  ci : BitVec 32 := 0
  /-- Slots reserved for started requests and for notifications (R267, R272). -/
  reserved : Nat := 0
  deriving DecidableEq, Repr

/-- Connection states (R243). -/
inductive ConnState where
  | setupSent | opened | draining | reset
  deriving DecidableEq, Repr

/-- A packet sent and not yet acknowledged. -/
structure OutPkt where
  psn : Nat
  req : Option Nat
  path : Nat
  expiries : Nat := 0
  /-- False while credit, the window, the pace of its path or the tenant's egress bucket holds it (R242, R245, R252). -/
  sent : Bool := false
  /-- Local time from which it has waited to leave. -/
  since : Nat := 0
  /-- It is to be sent again once its path and bucket permit (R249, R252). -/
  again : Bool := false
  /-- AGE of its request when it came to the port's scheduler, and its place in arrival order (R257). -/
  age : Nat := 0
  arr : Nat := 0
  pkt : Packet
  deriving DecidableEq, Repr

/-- A sending space (R245). -/
structure SendSpace where
  next : Nat := 0
  cum : Nat := 0
  outs : List OutPkt := []
  deriving DecidableEq, Repr

/-- A receiving space (R246-R248). -/
structure RecvSpace where
  cum : Nat := 0
  /-- PSNs received at or above CUM. -/
  got : List Nat := []
  unsacked : Nat := 0
  rxPkts : Nat := 0
  rxCe : Nat := 0
  /-- TSTAMP, arrival time, port and source addresses of the first packet that no SACK has covered (R247, R248). -/
  echo : Nat := 0
  echoAt : Nat := 0
  echoPort : Nat := 0
  echoMac : BitVec 48 := 0
  echoIp : BitVec 128 := 0
  echoUdp : Bool := false
  /-- SOM PSN of the next message to hand over, and the packets of messages not handed over. -/
  deliver : Nat := 0
  held : List Packet := []
  /-- Epoch verdicts of messages not handed over, by REQ_ID (R253). -/
  verdicts : List (Nat × Status) := []
  deriving DecidableEq, Repr

/-- A path of a connection and its rate (R251, R252). -/
structure Path where
  port : Nat
  mac : BitVec 48
  ip : BitVec 128
  /-- Mbit/s. -/
  rate : Nat
  /-- Next permitted sending time. -/
  next : Nat := 0
  expiries : Nat := 0
  out : Bool := false
  failedAt : Nat := 0
  rises : Nat := 0
  /-- Local time at which it last carried a packet other than a KEEPALIVE (R259). -/
  used : Nat := 0
  /-- Delay samples of the last 10 ms with their times, newest first (R252). -/
  samples : List (Nat × Nat) := []
  /-- RXCE and RXPKTS of each space: as its SACKs last gave them, and as they stood at the last rate update (R252). -/
  seen : List (Nat × Nat × Nat) := []
  base : List (Nat × Nat × Nat) := []
  deriving DecidableEq, Repr

/-- The tag and priorities of a connection's packets, as they stood when it was set up (R261): VLAN, PCP_MAP and DSCP_MAP. -/
structure Marks where
  vlan : Nat := 0
  pcp : Nat := 0xD51
  dscp : Nat := 0xC2E48A
  deriving DecidableEq, Repr

/-- A ledger entry (R296). -/
structure LedgerEntry where
  reqId : Nat
  psn : Nat
  status : Status
  width : Nat
  old : Nat
  bad : Bool := false
  deriving DecidableEq, Repr

structure Ledger where
  frame : Nat
  entries : List LedgerEntry := []
  deriving DecidableEq, Repr

structure Conn where
  num : Nat
  peer : Nat
  tenant : Nat
  comp : Nat
  state : ConnState
  peerConn : Nat := 0
  setupId : Nat := 0
  mtu : Nat := 4096
  marks : Marks := {}
  rcq : Nat := 0
  epoch : Nat := 0
  sreq : SendSpace := {}
  srsp : SendSpace := {}
  smerge : SendSpace := {}
  rreq : RecvSpace := {}
  rrsp : RecvSpace := {}
  rmerge : RecvSpace := {}
  /-- LIMIT granted by the peer for our REQ space (R242), and whether CREDIT_ASK has been sent while held by it. -/
  limit : Nat := 0
  asking : Bool := false
  /-- REQ slots assigned to the peer. -/
  slots : Nat := 0
  /-- Last LIMIT reported to the peer. -/
  limitTold : Nat := 0
  srtt : Nat := 0
  rttvar : Nat := 0
  sampled : Bool := false
  rto : Nat := 100000
  paths : List Path := []
  /-- CONN_SETUP, CONN_CLOSE or CONN_RESET packets sent in the present state. -/
  sends : Nat := 0
  /-- The status that moved it to RESET. -/
  endStatus : Status := .ok
  /-- CONNECT or DISCONNECT request it serves. -/
  req : Option Nat := none
  ledger : Option Ledger := none
  /-- C of R293: every request with a SOM PSN below it has ended here and been answered. -/
  fenceLow : Nat := 0
  /-- Local time of the last FENCE_ACK sent, and whether C has advanced since. -/
  fenceAt : Option Nat := none
  fenceDue : Bool := false
  /-- REQ_ID of the request whose end advanced C last (R237). -/
  fenceId : Nat := 0
  /-- Packets outside the sending spaces that wait to leave: miss replies (R281), and last packets sent again (R291). -/
  loose : List OutPkt := []
  /-- The peer has sent CONN_CLOSE (R243). -/
  peerClosed : Bool := false
  /-- Local time of the last CONN_RESET sent by R239 step 6. -/
  resetAt : Option Nat := none
  cached : Bool := true
  fetching : Bool := false
  lastUse : Nat := 0
  setupPkt : List Byte := []
  deriving DecidableEq, Repr

/-- An ACK or MGT packet that the cap of R314 holds, and where it goes. -/
structure CtlPkt where
  pkt : Packet
  port : Nat
  mac : BitVec 48
  ip : BitVec 128
  marks : Marks
  path : Nat := 0
  deriving DecidableEq, Repr

/-- A connection number in its wait (R243): the peer, and the CONN_CLOSE that answers one sent again (R277). -/
structure Resting where
  num : Nat
  peer : Nat
  close : Packet
  marks : Marks
  deriving DecidableEq, Repr

/-- A registered region (R282). -/
structure Region where
  slot : Nat
  gen : Nat
  tenant : Nat
  base : Nat
  length : Nat
  comp : Nat
  anyComp : Bool
  host : Bool
  remoteA : Bool
  remoteW : Bool
  remoteR : Bool
  localW : Bool
  localR : Bool
  deriving DecidableEq, Repr

/-- Generations of a region slot and who held the one before (R285). -/
structure RegionGen where
  slot : Nat
  gen : Nat
  prevTenant : Nat
  deriving DecidableEq, Repr

/-- A bound window slot (R301). -/
structure Window where
  tenant : Nat
  slot : Nat
  rbase : Nat
  rkey : Nat
  qp0 : Nat
  nqp : Nat
  deriving DecidableEq, Repr

/-- A window access outstanding (R302, R303). -/
structure WinOp where
  id : Nat
  ld : Nat
  tenant : Nat
  qp : Nat
  /-- The binding under which it was accepted. -/
  rbase : Nat := 0
  rkey : Nat := 0
  /-- It has an engine slot (R303). -/
  taken : Bool := false
  /-- DPA and window address. -/
  dpa : Nat
  addr : Nat
  slot : Nat
  write : Option (BitVec 512)
  /-- The request that carries it; none while it waits to be issued. -/
  req : Option Nat := none
  /-- The host has been answered at WIN_LIMIT. -/
  late : Bool := false
  deriving DecidableEq, Repr

/-- A WINSYNC read waiting (R347), with the writes it waits for. -/
structure WinSync where
  ld : Nat
  tenant : Nat
  waitFor : List Nat
  /-- Writes that failed since the read before (R347). -/
  failed : Nat := 0
  deriving DecidableEq, Repr

/-- An HDM decoder (R338). -/
structure Decoder where
  base : Nat := 0
  size : Nat := 0
  /-- DPA bytes skipped before it. -/
  skip : Nat := 0
  committed : Bool := false
  /-- Error Not Committed: a commit failed (R334). -/
  error : Bool := false
  deriving DecidableEq, Repr

/-- A dynamic capacity extent (R342, R343). -/
structure Extent where
  region : Nat
  off : Nat
  len : Nat
  accepted : Bool := false
  /-- Number of the offer that it belongs to, in the order of the offers. -/
  offer : Nat := 0
  deriving DecidableEq, Repr

/-- Event records (R343, R357, R358). -/
inductive EvRec where
  | vendor (cause : Nat) (write : Bool) (tenant count dpa address : Nat) (time : BitVec 64)
  | media (write : Bool) (dpa : Nat)
  | dcd (kind region off len tenant comp : Nat)
  deriving DecidableEq, Repr

structure LogRec where
  log : Nat
  handle : Nat
  /-- Timestamp of R348 when it was logged. -/
  stamp : BitVec 64
  body : EvRec
  deriving DecidableEq, Repr

/-- A background mailbox command (R348). -/
structure Background where
  op : Nat
  arg : Nat
  status : Option Status := none
  /-- Output bytes after the status byte (R349). -/
  output : List Byte := []
  /-- It has ended, and Background Operation Status reports its result. -/
  reported : Bool := false
  deriving DecidableEq, Repr

/-- The primary mailbox's registers: the opcode of the last command, its return code and its output (R344; PRESUMED from CXL 3.1, log 12). -/
structure MboxRegs where
  op : Nat := 0
  rc : Nat := 0
  output : List Byte := []
  deriving DecidableEq, Repr

/-- AER of function 0: status, mask and severity of Uncorrectable Internal Error, and the reporting enables of Device Control (R357; reset
values PRESUMED from PCIe, log 12). -/
structure Aer where
  status : Bool := false
  masked : Bool := true
  fatal : Bool := true
  reportNonFatal : Bool := false
  reportFatal : Bool := false
  deriving DecidableEq, Repr

/-- A logical device (R337). -/
structure Ld where
  n : Nat
  decoders : List Decoder := [{}, {}, {}, {}]
  /-- Extents accepted by the host, and those offered to it. -/
  extents : List Extent := []
  nextOffer : Nat := 0
  log : List LogRec := []
  nextHandle : Nat := 1
  background : Option Background := none
  discard : Bool := false
  busMaster : Bool := false
  msixOn : Bool := false
  msixMask : Bool := false
  vecMask : BitVec 2048 := BitVec.allOnes 2048
  pba : BitVec 2048 := 0
  /-- Message address and data of MSI-X table entries; an entry not listed holds zeros (R344; PRESUMED from PCIe, log 12). -/
  vectors : List (Nat × Nat × Nat) := []
  transfer : Bool := false
  aer : Aer := {}
  mbox : MboxRegs := {}
  recorded : List (Bool × List (Nat × Nat)) := []
  deriving DecidableEq, Repr

/-- A host target of the event controller (R368). -/
structure Target where
  t : Nat
  curprio : BitVec 8 := 0xFF
  lastSrc : BitVec 32 := 0xFFFFFFFF
  lastTime : BitVec 64 := 0
  delivered : Nat := 0
  deriving DecidableEq, Repr

/-- The event controller (chapter 13). -/
structure Events where
  pend : BitVec 2048 := 0
  mask : BitVec 2048 := BitVec.allOnes 2048
  fpend : BitVec 64 := 0
  fmask : BitVec 64 := BitVec.allOnes 64
  /-- FPRIO by slot; a slot not listed holds 0. -/
  fprio : List (Nat × Nat) := []
  /-- Round-robin pointers; a source not listed holds 0. -/
  rr : List (Nat × Nat) := []
  /-- Sources waiting for an eligible target (R371). -/
  waiting : List Nat := []
  targets : List Target := []
  corePrio : List (BitVec 8) := List.replicate 8 0xFF
  /-- PIN_EDGES: THERM_TRIP, FORCE_HOLD, EVIN0, EVIN1. -/
  edges : List (BitVec 8) := [0, 0, 0, 0]
  /-- Local time of the last software clear of EVIN0 and EVIN1, and their re-trigger times (R374). -/
  clearedAt : List (Nat × Nat) := []
  retrig : List (Nat × Nat) := []
  deriving DecidableEq, Repr

/-- A subscription (R395). -/
structure Subscription where
  index : Nat
  sub : Nat
  interval : Nat
  lastSent : Option Nat := none
  /-- The value last notified or, before that, at the SUBSCRIBE. -/
  seen : List Byte := []
  /-- The value at the last look, and the local time of the last change (R395). -/
  last : List Byte := []
  changed : Nat := 0
  deriving DecidableEq, Repr

/-- An open VOP session (R385-R395). -/
structure Session where
  id : Nat
  role : Nat
  route : Route
  /-- The 96 bytes that key its frames (R387). -/
  key : List Byte
  /-- Ethernet address of the manager, on the management port (R382). -/
  mac : BitVec 48 := 0
  lastSeq : Nat := 0
  /-- The stored reply, as its frame. -/
  reply : List Byte := []
  ownSeq : Nat := 1
  lastAt : BitVec 64 := 0
  subs : List Subscription := []
  /-- Snapshots of OCTETS objects in reading (R394): index, subindex, bytes. -/
  snaps : List (Nat × Nat × List Byte) := []
  assay : List Byte := []
  deriving DecidableEq, Repr

/-- A session in setup (R386). -/
structure Setup where
  id : Nat
  role : Nat
  route : Route
  hello : List Byte
  reply : List Byte
  /-- The node's ephemeral private key (R386). -/
  secret : Nat := 1
  deriving DecidableEq, Repr

/-- A staged value (R393): the bytes written, by offset. -/
structure Staged where
  session : Nat
  index : Nat
  sub : Nat
  val : List (Nat × Byte)
  deriving DecidableEq, Repr

structure Mgmt where
  sessions : List Session := []
  setups : List Setup := []
  staged : List Staged := []
  nextId : Nat := 1
  deriving DecidableEq, Repr

/-- A quote in progress (R417): the snapshot it will sign. -/
structure Quote where
  id : Nat
  route : Route
  session : Nat
  body : List Byte
  deriving DecidableEq, Repr

/-- An image slot of the flash (R411, R422). -/
structure Image where
  valid : Bool := false
  version : Nat := 0
  svn : Nat := 0
  keyslot : Nat := 0
  manifest : BitVec 384 := 0
  comps : List (Nat × BitVec 384) := []
  deriving DecidableEq, Repr

/-- An entry of the measured-boot record (R415). -/
structure Measured where
  stage : Nat
  slot : Nat
  svn : Nat
  version : Nat
  time : BitVec 64
  digest : BitVec 384
  deriving DecidableEq, Repr

/-- Boot trust (chapter 15). -/
structure Trust where
  /-- KEY_REVOKED fuses. -/
  keyRevoked : BitVec 4 := 0
  /-- ROLLBACK: blown bits, 0 to 64. -/
  rollback : Nat := 0
  lifecycle : BitVec 2 := 1
  slotA : Image := { valid := true, version := 1, svn := 1 }
  slotB : Image := {}
  /-- The slot named active: false A, true B. -/
  activeB : Bool := false
  runningB : Bool := false
  record : List Measured := []
  running : BitVec 384 := 0
  quotes : List Quote := []
  nextQuote : Nat := 0
  deriving DecidableEq, Repr

/-- A rehearsal run in progress (R440). -/
structure Rehearsal where
  slot : Nat
  kind : Nat
  target : Nat
  /-- RSP packets to the peer so far (DROPPED_REPLY), or the lane bits of the port before the run (LANE_LOSS). -/
  seen : Nat := 0
  deriving DecidableEq, Repr

/-- Burnish of one channel or package (R429): the next line or sector, passes completed, and when the pass began, with the
banked time of that moment. -/
structure Burn where
  upper : Bool
  unit : Nat
  pos : Nat := 0
  passes : Nat := 0
  start : Nat := 0
  banked : Nat := 0
  deriving DecidableEq, Repr

/-- Fault state (chapter 16). -/
structure Faults where
  /-- Correctable errors of a granule or chunk since burnish's read: upper, unit, location, lines (R430). -/
  ce : List (Bool × Nat × Nat × List Nat) := []
  /-- Uncorrectable error times: upper, unit, times (R428). -/
  ue : List (Bool × Nat × List Nat) := []
  lost : List (Bool × Nat) := []
  /-- Retired locations: upper, unit, granule or chunk. -/
  retired : List (Bool × Nat × Nat) := []
  flashList : List RetireRec := []
  log : List RetireRec := []
  sram : List (UnitClass × Nat × Nat) := []
  rows : List (UnitClass × Nat × Nat) := []
  burns : List Burn := []
  /-- Times of correctable errors within the last second: upper, unit, times (R442). -/
  ceTimes : List (Bool × Nat × List Nat) := []
  health : BitVec 32 := 0
  /-- Physical unit of a logical unit, where it is not the first choice; none: no unit serves it. -/
  spare : List (UnitClass × Nat × Option Nat) := []
  /-- Physical units in the flash fault list. -/
  failed : List (UnitClass × Nat) := []
  switching : List (UnitClass × Nat) := []
  pace : List (BitVec 32) := List.replicate 11 0x3F800000
  /-- PACE (R439). -/
  paceNode : BitVec 32 := 0x3F800000
  paceAt : Nat := 0
  /-- Readings of the last 60 s, as (time, pace), of which none is followed by a smaller one. -/
  paceHist : List (Nat × BitVec 32) := []
  rehearsals : List Rehearsal := []
  /-- Prefix entries that an error removed while a PS_SEARCH of their tenant was under way, with that request (R224). -/
  prefixes : List (Nat × PsSlot) := []
  /-- Runs of each schedule slot that have fallen due since its COMMIT (R404). -/
  dues : List (Nat × Nat) := []
  deriving DecidableEq, Repr

/-- The voltage governor (chapter 18). Voltages in mV, temperatures in 0.001 °C, power in mW (DESIGN CHOICE, log 15). -/
structure Governor where
  vset : Rat := 750
  meas : Nat := 750
  temps : List Int := List.replicate 20 0
  power : Nat := 0
  cause : BitVec 32 := 0
  lastRise : Nat := 0
  lastTick : Nat := 0
  deriving DecidableEq, Repr

/-- A fabric port (R229, R232). -/
inductive PortStatus where
  | absent | down | training | up | degraded | banked
  deriving DecidableEq, Repr

structure Port where
  p : Nat
  status : PortStatus := .down
  width : Nat := 0
  /-- Physical lanes that have failed (the flash fault list's). -/
  bad : BitVec 9 := 0
  /-- The logical lane that the spare serves (R437). -/
  spareFor : Option Nat := none
  deriving DecidableEq, Repr

/-- An ANNEAL in progress (R332): the request, once the loan is frozen the frames and bytes of its stream and the header
that is still to be written, and for a remote destination the WRITEs that have not ended and the status of one that failed. -/
structure Reclaim where
  slot : Nat
  req : Nat
  frozenAt : Option Nat := none
  /-- Frames and bytes of the stream once it is made, and the parts still to be written, with their offsets: images, manifest, header (R332). -/
  stream : Option (Nat × Nat × List (Nat × List Byte)) := none
  /-- WRITEs of the present part that have not ended. -/
  sent : List Nat := []
  failed : Option Status := none
  deriving DecidableEq, Repr

/-- What the node sends or writes outside itself (DESIGN CHOICE, log 7). -/
inductive Out where
  | completion (cq slot : Nat) (entry : BitVec 256)
  /-- A Pyvas packet, and the bytes of its frame (R233, R234). -/
  | packet (p : Packet) (frame : List Byte)
  /-- An MSI-X message of a table entry, with its address and data. -/
  | msix (ld entry address data : Nat)
  | core (c : Nat) (source : Nat)
  | hostLine (ld : Nat) (line : BitVec 512)
  | hostDone (ld : Nat)
  | winsync (ld tenant failed : Nat)
  | mailbox (ld rc : Nat) (output : List Byte)
  /-- An error message of PCIe: ERR_FATAL or ERR_NONFATAL (R357). -/
  | errorMessage (ld : Nat) (fatal : Bool)
  /-- A VOP frame: header, payload and tag (R383). -/
  | vop (route : Route) (frame : List Byte)
  | assay (route : Route) (bytes : List Byte)
  | doe (ld : Nat) (bytes : List Byte)
  | dma (addr : Nat) (bytes : List Byte)
  /-- METADATA_LOST names the tenant and the kind (R188). -/
  | metadataLost (tenant : Nat) (kind : MetaKind)
  | avs (mv : Rat)
  deriving DecidableEq, Repr

/-- The storage state: frames, translation, walks, tiers and swap. -/
structure Mem where
  frames : List Frame := []
  maps : List Mapping := []
  /-- At reset the root of tenant 0 alone, at the places that the allocator gives it (log 79). -/
  tpages : List TablePage := [{ tenant := 0, level := 3, index := 0, num := 1, copies := [.lower 1, .lower 2], chunks := [0, 0], upper := some (1, 0) }]
  /-- Contents of the frames: key frame · 2^23 + offset; an unlisted byte reads 0 (R64, R100). -/
  data : List Host.Cell := []
  walkEpoch : Nat := 1
  walks : List Walk := []
  /-- The translation cache (R93): tenant, frame-aligned address, frame; newest first. -/
  tlb : List (Nat × Nat × Nat) := []
  quar : List QItem := []
  nextQ : Nat := 0
  tsGran : List TsGranule := []
  stalls : List Stall := []
  lost : List (Nat × MetaKind × Nat) := []
  serial : Nat := 1
  swapArea : Option (Nat × Nat × Nat) := none
  /-- AREA_RECLAIM of the swap area is in progress: no run is placed. -/
  swapClosing : Bool := false
  /-- Demotion has begun and has not reached UPPER_HIGH_WM (R197). -/
  demoting : Bool := false
  deriving DecidableEq, Repr

/-- Last generations issued, by slot: handles, merge slots, prefix slots (bank · 65536 + slot), frame numbers. -/
structure Gens where
  seqs : List (Nat × Nat) := []
  merges : List (Nat × Nat) := []
  prefixes : List (Nat × Nat) := []
  frames : List (Nat × Nat) := []
  regions : List RegionGen := []
  deriving DecidableEq, Repr

/-- Near-bank units, attention cores and the schedulers. -/
structure Engines where
  units : List NbUnit := []
  /-- Broadcast commands built and not complete, in the order in which they were built (R157). -/
  cmds : List NbCmd := []
  nextCmd : Nat := 0
  /-- Host stores that wait for sectors of the lower tier, oldest first (R185). -/
  stores : List HostLine := []
  cores : List CoreSt := []
  coreQueue : List Job := []
  flows : List Flow := []
  /-- Controllers of the lower tier that have had work, and the image bytes that each has moved for requests (R314). -/
  lower : List LtCtl := []
  pins : List (Nat × Nat) := []
  /-- V of each scheduler point as it last stood (R315). -/
  virt : List (Point × Rat) := []
  oper : List UnitRec := []
  deriving DecidableEq, Repr

/-- Fabric side: ports, connections, pools, window. -/
structure Fabric where
  ports : List Port := (List.range 8).map fun p => { p := p }
  conns : List Conn := []
  /-- Connection numbers in their 100 ms wait (R243). -/
  resting : List Resting := []
  ctxArea : Option (Nat × Nat × Nat) := none
  missBuf : List Packet := []
  /-- CREDIT_ASK: connection, slots wanted, AGE (R242). -/
  asks : List (Nat × Nat × Nat) := []
  /-- Start tags of the flows that hold packets at a port: port, tenant, LOAN class, tag (R315). -/
  heads : List (Nat × Nat × Bool × Rat) := []
  /-- Number of the next packet to come to a port's scheduler (R257). -/
  nextArr : Nat := 0
  /-- ACK and MGT packets that the cap holds, and the port, time and bytes of those sent within the last 100 us (R314). -/
  ctl : List CtlPkt := []
  ctlSent : List (Nat × Nat × Nat) := []
  /-- Unknown connections answered by CONN_RESET: peer, number and time (R239). -/
  resetsSent : List (Nat × Nat × Nat) := []
  bankedPeers : List Nat := []
  /-- PORTS and PACE of the last KEEPALIVE of each node (R259). -/
  peers : List (Nat × List Byte × BitVec 32) := []
  regions : List Region := []
  windows : List Window := []
  winOps : List WinOp := []
  nextWin : Nat := 0
  winFails : List (Nat × Nat) := []
  winSyncs : List WinSync := []
  /-- COMP_ACKs sent, kept for duplicates until the fence passes them: connection, SOM PSN, REQ_ID (R291). -/
  compAcks : List (Nat × Nat × Nat) := []
  deriving DecidableEq, Repr

/-- The whole node. -/
structure State where
  /-- Commands waiting, first in first out. -/
  pending : List Instr := []
  /-- Counter of free values (the model's own, DESIGN CHOICE, log 2). -/
  free : Nat := 0
  out : List Out := []
  variant : Variant := .fn8_2x
  clk : Clock := {}
  node : Node := {}
  /-- Scalar object values that differ from the default, by Index · 256 + Sub, ascending; KEY_GEN of tenant 0, which has received its
  key, counts 1 (R308, R311). -/
  objs : List (Nat × Nat) := [(256 * 0x4000 + 3, 1)]
  /-- Bytes of OCTETS objects that differ from the default, by (Index · 256 + Sub) · 2^27 + offset. -/
  octs : List Host.Cell := []
  tenants : List Tenant := [{ id := 0, root := 1, buckets := List.replicate 4 {} }]
  comps : List Comp := []
  reclaims : List Reclaim := []
  geoms : List Geom := []
  seqs : List Seq := []
  mem : Mem := {}
  ps : List PsSlot := []
  merges : List MergeCtx := []
  gens : Gens := {}
  reqs : List Req := []
  nextReq : Nat := 0
  eng : Engines := {}
  wqs : List Wq := []
  cqs : List Cq := []
  fab : Fabric := {}
  lds : List Ld := (List.range 16).map fun n => { n := n }
  ev : Events := {}
  mgmt : Mgmt := {}
  trust : Trust := {}
  flt : Faults := {}
  gov : Governor := {}
  deriving DecidableEq, Repr

/-- The node at the rising edge of PWRGOOD (R445, R447 step 1), straps undriven (DESIGN CHOICE, log 1, log 6, log 8). -/
def State.reset : State := {}

end Sys2Proof.Machine
end

