-- ==== Sys2Proof/Machine/Fitted.lean ====
section
/-! DEFINITION. Sys2Proof/Machine/Fitted.lean: what each variant carries (R1-R3, R19, R23, R396). -/

namespace Sys2Proof.Machine

open Sys2Proof

namespace Variant

def stackCount : Variant → Nat
  | .fn8_2x | .fn8_2 => 8 | .fn6_1 => 6 | .fn4_1p => 4

def nearBank : Variant → Bool
  | .fn4_1p => false | _ => true

def ioDies : Variant → Nat
  | .fn8_2x | .fn8_2 => 2 | _ => 1

/-- Lower-tier packages. -/
def packages : Variant → Nat
  | .fn8_2x | .fn8_2 => 16 | .fn6_1 => 8 | .fn4_1p => 0

def hasLower (v : Variant) : Bool := v.packages != 0

def prefixUnit : Variant → Bool
  | .fn8_2x => true | _ => false

/-- Design power, in W. -/
def designPower : Variant → Nat
  | .fn8_2x => 960 | .fn8_2 => 950 | .fn6_1 => 720 | .fn4_1p => 470

/-- Upper-tier channels fitted: 128 a stack. -/
def channels (v : Variant) : Nat := 128 * v.stackCount

def ports (v : Variant) : Nat := 4 * v.ioDies

/-- Presence bits (R2). -/
def presence (v : Variant) : Nat :=
  b2n v.nearBank + 2 * b2n v.prefixUnit + 4 * b2n v.hasLower + 8 * b2n (v.ioDies == 2)

/-- Raw bytes of one package. -/
def packageBytes : Nat := 128 * 2 ^ 30

def upperBytes (v : Variant) : Nat := v.stackCount * 48 * 2 ^ 30
def lowerBytes (v : Variant) : Nat := v.packages * packageBytes
def rawBytes (v : Variant) : Nat := v.upperBytes + v.lowerBytes

/-- DEVICE_ID (R336). -/
def deviceId : Variant → Nat
  | .fn8_2x => 0x0810 | .fn8_2 => 0x0811 | .fn6_1 => 0x0610 | .fn4_1p => 0x0410

/-- Capacity of scheduled resource `r` in units per second (R314), scaled with the units present. -/
def capacity (v : Variant) : Nat → Nat
  | 0 => v.ports * 200000000000
  | 1 => 96 * 1000000000
  | 2 => if v.nearBank then v.channels * 1000000000 else 0
  | _ => v.packages * 68125000000

/-- COUNT of a unit class (R396). -/
def count (v : Variant) : UnitClass → Nat
  | .core => 96
  | .crucible => 16
  | .engine => if v.hasLower then 32 else 0
  | .walker => 64
  | .nearBank => if v.nearBank then v.channels else 0
  | .port => v.ports
  | .remoteEngine => 8 * v.ioDies
  | .stack => v.stackCount
  | .lowerCtl => v.packages
  | .prefixUnit => b2n v.prefixUnit
  | .control => 8

end Variant

end Sys2Proof.Machine
end

