-- ==== Sys2Proof/Machine/Objects.lean ====
section
/-! DEFINITION. Sys2Proof/Machine/Objects.lean: the object dictionary's map (R377, R380): type, access right, default and
persistence of every object, and the reading and writing of stored values. -/

namespace Sys2Proof.Machine

open Sys2Proof

/-- Types of R377. `enum n` lists its values 0 to n. -/
inductive OTy where
  | bool | u8 | u16 | u32 | u64 | i32 | f32 | enum (top : Nat) | bitset | octets (n : Nat) | utf8 (n : Nat) | ltime
  deriving DecidableEq, Repr

/-- Access rights of R10. -/
inductive Access where
  | const | ro | rw | rwc | wo
  deriving DecidableEq, Repr

structure Obj where
  ty : OTy
  acc : Access
  dflt : Nat := 0
  flash : Bool := false
  deriving DecidableEq, Repr

/-- Bytes of a scalar type; of OCTETS and UTF8, the largest length. -/
def OTy.bytes : OTy → Nat
  | .bool | .u8 | .enum _ => 1
  | .u16 => 2
  | .u32 | .i32 | .f32 | .bitset => 4
  | .u64 | .ltime => 8
  | .octets n | .utf8 n => n

def OTy.isOctets : OTy → Bool
  | .octets _ => true
  | _ => false

/-- Objects `first` to `first + n - 1` of one shape. -/
def objRun (first n : Nat) (o : Obj) : List (Nat × Obj) := (List.range n).map fun i => (first + i, o)

/-- Counters: volatile, read-only, default 0. -/
def counters (ty : OTy) (subs : List Nat) : List (Nat × Obj) := subs.map fun i => (i, ⟨ty, .ro, 0, false⟩)

/-- Identity (R381). -/
def objs1000 (v : Variant) : List (Nat × Obj) :=
  [(1, ⟨.utf8 32, .const, 0, true⟩), (2, ⟨.u16, .const, 0x1FC5, true⟩), (3, ⟨.u16, .const, v.deviceId, true⟩),
   (4, ⟨.utf8 32, .const, 0, true⟩), (5, ⟨.octets 16, .const, 0, true⟩), (6, ⟨.u8, .const, 0, true⟩),
   (7, ⟨.u8, .const, 1, true⟩)]

/-- Hallmark (15). -/
def objs1010 : List (Nat × Obj) := objRun 1 3 ⟨.octets 2048, .const, 0, true⟩
def objs1011 : List (Nat × Obj) :=
  [(1, ⟨.u8, .ro, 0, false⟩), (2, ⟨.octets 2048, .ro, 0, false⟩), (3, ⟨.octets 48, .ro, 0, false⟩)]
def objs1012 : List (Nat × Obj) := [(1, ⟨.octets 40, .wo, 0, false⟩), (2, ⟨.octets 280, .ro, 0, false⟩)]

/-- Management communication (R381). PLCA_NODE_ID's default is the MGMT_ID straps, and is read through them. -/
def objs1100 : List (Nat × Obj) :=
  [(1, ⟨.octets 6, .rwc, 0, true⟩), (2, ⟨.bool, .rwc, 1, true⟩), (3, ⟨.u8, .rwc, 0, true⟩), (4, ⟨.u8, .rwc, 8, true⟩),
   (5, ⟨.u8, .rwc, 32, true⟩), (6, ⟨.u8, .rwc, 0, true⟩), (7, ⟨.u8, .rwc, 128, true⟩), (8, ⟨.bitset, .rwc, 7, true⟩),
   (9, ⟨.ltime, .rw, 60000000000, true⟩), (10, ⟨.u8, .ro, 0, false⟩)]
def objs1101 : List (Nat × Obj) := objRun 1 4 ⟨.octets 97, .rwc, 0, true⟩

def objs1200 (v : Variant) : List (Nat × Obj) :=
  [(1, ⟨.bitset, .const, v.presence, true⟩), (2, ⟨.u8, .const, v.stackCount, true⟩)]

/-- Calibration (R401). -/
def objs2000 : List (Nat × Obj) := objRun 1 0x48 ⟨.octets 16, .rwc, 0, true⟩
def objs2001 : List (Nat × Obj) := objRun 1 0x14 ⟨.i32, .rwc, 0, true⟩
def objs2002 : List (Nat × Obj) := [(1, ⟨.octets 256, .rwc, 0, true⟩)]
def objs2003 : List (Nat × Obj) := objRun 1 8 ⟨.octets 512, .rwc, 0, true⟩
def objs2004 : List (Nat × Obj) := objRun 1 16 ⟨.octets 64, .rwc, 0, true⟩
def objs2005 : List (Nat × Obj) :=
  [(1, ⟨.octets 5, .ro, 0, true⟩), (2, ⟨.bitset, .ro, 0, true⟩), (3, ⟨.u32, .ro, 0, true⟩)]
def objs2006 : List (Nat × Obj) :=
  [(1, ⟨.u8, .wo, 0, true⟩), (2, ⟨.enum 3, .ro, 0, true⟩), (3, ⟨.bitset, .ro, 0, true⟩)]

/-- Governor and thermal limits (R464). -/
def objs2100 (v : Variant) : List (Nat × Obj) :=
  [(1, ⟨.f32, .ro, 0x3F400000, false⟩), (2, ⟨.f32, .ro, 0, false⟩), (3, ⟨.f32, .rwc, 0x3F400000, true⟩),
   (4, ⟨.f32, .rwc, 0x3F19999A, true⟩), (5, ⟨.u16, .rwc, v.designPower, true⟩), (6, ⟨.f32, .ro, 0, false⟩),
   (7, ⟨.bitset, .ro, 0, false⟩), (8, ⟨.ltime, .ro, 0, false⟩), (9, ⟨.u32, .ro, 0, false⟩), (10, ⟨.u32, .ro, 0, false⟩)]
def objs2101 : List (Nat × Obj) := objRun 1 0x15 ⟨.f32, .ro, 0, false⟩
def objs2102 : List (Nat × Obj) :=
  [(1, ⟨.f32, .rwc, 0x42BE0000, true⟩), (2, ⟨.f32, .rwc, 0x42B40000, true⟩), (3, ⟨.f32, .const, 0x42DC0000, true⟩),
   (4, ⟨.f32, .const, 0x42C80000, true⟩), (5, ⟨.f32, .const, 0x42BE0000, true⟩), (6, ⟨.f32, .const, 0x42AA0000, true⟩),
   (7, ⟨.f32, .const, 0x42FA0000, true⟩)]

/-- Unit states (R396): ADMIN and OPER byte per logical unit, COUNT. -/
def unitObjs (n : Nat) (rwc : Bool) (count : Nat) : List (Nat × Obj) :=
  [(1, ⟨.octets n, if rwc then .rwc else .ro, 0, false⟩), (2, ⟨.octets n, .ro, 0, false⟩), (3, ⟨.u16, .const, count, false⟩)]

/-- The class of index 0x3000 + k, its OCTETS length, and whether ADMIN is RWC. -/
def unitClassAt : Nat → Option (UnitClass × Nat × Bool)
  | 0 => some (.core, 96, true) | 1 => some (.crucible, 16, true) | 2 => some (.engine, 32, true)
  | 3 => some (.walker, 64, true) | 4 => some (.nearBank, 1024, true) | 5 => some (.port, 8, true)
  | 6 => some (.remoteEngine, 16, true) | 7 => some (.stack, 8, false) | 8 => some (.lowerCtl, 16, false)
  | 9 => some (.prefixUnit, 1, false) | 10 => some (.control, 8, false) | _ => none

/-- Node state (R396, R446). -/
def objs3010 : List (Nat × Obj) :=
  [(1, ⟨.u32, .ro, 0, false⟩), (2, ⟨.u32, .ro, 0, false⟩), (3, ⟨.ltime, .rw, 1000000000, true⟩),
   (0x10, ⟨.enum 4, .ro, 0, false⟩), (0x11, ⟨.bool, .ro, 0, false⟩), (0x12, ⟨.bitset, .ro, 0, false⟩),
   (0x13, ⟨.u8, .wo, 0, false⟩), (0x14, ⟨.u8, .wo, 0, false⟩), (0x15, ⟨.ltime, .ro, 0, false⟩),
   (0x16, ⟨.u32, .ro, 0, false⟩), (0x17, ⟨.ltime, .ro, 0, false⟩), (0x18, ⟨.u32, .ro, 0, false⟩),
   (0x19, ⟨.u32, .ro, 0, false⟩), (0x1A, ⟨.u32, .ro, 0, false⟩), (0x1B, ⟨.bitset, .ro, 0, false⟩),
   (0x1C, ⟨.bitset, .ro, 0, false⟩), (0x1D, ⟨.ltime, .rw, 2000000, true⟩)]

/-- Fabric ports (R232). -/
def objs3200 : List (Nat × Obj) :=
  [(1, ⟨.enum 5, .ro, 0, false⟩), (2, ⟨.u8, .ro, 0, false⟩), (3, ⟨.octets 6, .rwc, 0, true⟩),
   (4, ⟨.octets 16, .rwc, 0, true⟩)] ++ counters .u64 [5, 6, 7]

/-- Transport settings (R261). -/
def objs3210 : List (Nat × Obj) :=
  [(1, ⟨.u16, .rwc, 0, true⟩), (2, ⟨.enum 1, .rwc, 0, true⟩), (3, ⟨.u16, .rwc, 0x59A6, true⟩), (4, ⟨.enum 2, .rwc, 2, true⟩),
   (5, ⟨.u16, .rwc, 0, true⟩), (6, ⟨.u16, .rwc, 0x0D51, true⟩), (7, ⟨.u32, .rwc, 0x00C2E48A, true⟩),
   (8, ⟨.ltime, .rw, 20000, true⟩), (9, ⟨.ltime, .rw, 4000000, true⟩), (0xA, ⟨.u32, .rw, 200000, true⟩),
   (0xB, ⟨.u32, .rw, 100, true⟩), (0xC, ⟨.ltime, .rw, 4000, true⟩), (0xD, ⟨.u32, .rw, 1000, true⟩),
   (0xE, ⟨.ltime, .rw, 1000000, true⟩), (0xF, ⟨.u16, .rw, 64, true⟩), (0x10, ⟨.ltime, .rw, 2000, true⟩),
   (0x11, ⟨.ltime, .rw, 1000000, true⟩), (0x12, ⟨.ltime, .rw, 2000, true⟩)]

def objs3220 : List (Nat × Obj) := [(1, ⟨.ltime, .rw, 500000, true⟩)]

/-- Logical devices (R337). -/
def objs3230 (ld : Nat) : List (Nat × Obj) :=
  [(1, ⟨.u64, .rwc, if ld = 0 then 2 ^ 64 - 1 else 0, false⟩), (2, ⟨.octets 2048, .rwc, 0, false⟩)] ++
  counters .u64 [3, 4, 5, 6, 7]
def objs3240 : List (Nat × Obj) :=
  [(1, ⟨.u8, .rwc, 1, true⟩), (2, ⟨.u8, .rwc, 0, true⟩), (3, ⟨.octets 4096, .rwc, 0, false⟩),
   (4, ⟨.u8, .ro, 1, false⟩), (5, ⟨.u8, .ro, 0, false⟩)]

/-- Event routes and pin modes (R364, R373). -/
def objs3300 : List (Nat × Obj) :=
  [(1, ⟨.octets 32768, .rwc, 0, false⟩), (2, ⟨.u8, .rwc, 0, true⟩), (3, ⟨.octets 4, .ro, 0, false⟩)]

/-- Tier policy (R201). -/
def objs3400 : List (Nat × Obj) :=
  [(1, ⟨.u8, .rw, 4, true⟩), (2, ⟨.u8, .rw, 6, true⟩), (3, ⟨.u8, .rw, 4, true⟩), (4, ⟨.ltime, .rw, 10000000, true⟩),
   (5, ⟨.u8, .rw, 25, true⟩), (6, ⟨.ltime, .rw, 20000, true⟩), (7, ⟨.u8, .rw, 2, true⟩)]

/-- Rates of resource `r` of a tenant: CIR, CBS, PIR, PBS (R312, R317). -/
def rateObjs (r : Nat) : List (Nat × Obj) :=
  let depth := if r = 0 ∨ r = 3 then 1048576 else 1000000
  [(0x20 + 4 * r, ⟨.u64, .rwc, 0, false⟩), (0x21 + 4 * r, ⟨.u64, .rwc, depth, false⟩),
   (0x22 + 4 * r, ⟨.u64, .rwc, 2 ^ 64 - 1, false⟩), (0x23 + 4 * r, ⟨.u64, .rwc, depth, false⟩)]

/-- A tenant (R312, R391). -/
def objs4000 (v : Variant) : List (Nat × Obj) :=
  [(1, ⟨.enum 3, .ro, 0, false⟩), (2, ⟨.enum 1, .rwc, 0, false⟩), (3, ⟨.u32, .ro, 0, false⟩),
   (4, ⟨.u64, .rwc, 2 ^ 50, false⟩), (5, ⟨.u64, .ro, 0, false⟩), (6, ⟨.u64, .rwc, 0, false⟩),
   (7, ⟨.u64, .rwc, v.rawBytes, false⟩), (8, ⟨.u64, .rwc, 0, false⟩), (9, ⟨.u64, .rwc, 0, false⟩),
   (0xA, ⟨.u64, .rwc, 0, false⟩), (0xB, ⟨.u32, .rwc, 1024, false⟩), (0xC, ⟨.u32, .rwc, 0, false⟩),
   (0xD, ⟨.ltime, .rwc, 100000000, false⟩), (0xE, ⟨.u16, .rwc, 0xFFFF, false⟩), (0xF, ⟨.u64, .ro, 0, false⟩),
   (0x10, ⟨.octets 97, .rwc, 0, false⟩)] ++
  rateObjs 0 ++ rateObjs 1 ++ rateObjs 2 ++ rateObjs 3 ++
  [(0x30, ⟨.u16, .rwc, 16, false⟩), (0x31, ⟨.u16, .rwc, 16, false⟩), (0x38, ⟨.octets 136, .ro, 0, false⟩),
   (0x48, ⟨.octets 128, .ro, 0, false⟩)] ++ counters .u64 [0x50, 0x51, 0x52, 0x53, 0x54]

/-- A composition (R320). -/
def objs5000 : List (Nat × Obj) :=
  [(1, ⟨.u16, .rwc, 0, false⟩), (2, ⟨.u16, .rwc, 0, false⟩), (3, ⟨.enum 1, .rwc, 0, false⟩), (4, ⟨.enum 1, .rwc, 0, false⟩),
   (5, ⟨.enum 4, .ro, 0, false⟩), (6, ⟨.octets 1050688, .rwc, 0, false⟩), (7, ⟨.u16, .ro, 0, false⟩),
   (8, ⟨.u16, .ro, 0, false⟩), (9, ⟨.u32, .ro, 0, false⟩), (0xA, ⟨.u32, .ro, 0, false⟩), (0xB, ⟨.u64, .rwc, 0, false⟩),
   (0xC, ⟨.u16, .rwc, 4096, false⟩), (0xD, ⟨.u32, .rwc, 65536, false⟩), (0xE, ⟨.octets 64, .wo, 0, false⟩),
   (0xF, ⟨.u8, .wo, 0, false⟩), (0x10, ⟨.octets 128, .ro, 0, false⟩), (0x11, ⟨.u32, .rwc, 32768, false⟩)]

/-- Pace, health, spares and fault counters (R27, R442). -/
def objs6000 : List (Nat × Obj) :=
  [(1, ⟨.ltime, .ro, 0, false⟩), (2, ⟨.f32, .ro, 0, false⟩), (3, ⟨.octets 44, .ro, 0, false⟩), (4, ⟨.f32, .ro, 0, false⟩),
   (5, ⟨.ltime, .ro, 0, false⟩), (6, ⟨.bitset, .ro, 0, false⟩), (0x10, ⟨.octets 96, .ro, 0, false⟩),
   (0x11, ⟨.octets 1024, .ro, 0, false⟩), (0x12, ⟨.octets 64, .ro, 0, false⟩), (0x13, ⟨.octets 17, .ro, 0, false⟩),
   (0x14, ⟨.octets 256, .ro, 0, true⟩), (0x18, ⟨.octets 65536, .ro, 0, true⟩), (0x19, ⟨.octets 2048, .ro, 0, false⟩),
   (0x1A, ⟨.u64, .ro, 0, true⟩)] ++
  counters .u64 [0x20, 0x21, 0x22, 0x23, 0x24, 0x25, 0x26, 0x27] ++ [(0x28, ⟨.u64, .ro, 0, true⟩)] ++
  counters .u32 [0x29, 0x2A] ++ counters .u64 [0x30, 0x31, 0x32, 0x33, 0x34]

/-- Tier counters (R201). -/
def objs6100 : List (Nat × Obj) := counters .u64 [1, 2, 3, 4, 5, 6, 7, 8, 9, 10, 11, 12, 13] ++
  counters .ltime [14] ++ counters .u64 [15]
/-- Prefix search counters (R227). -/
def objs6200 : List (Nat × Obj) := counters .u32 [1] ++ counters .u64 [2, 3, 4, 5, 6, 7] ++ counters .u32 [8, 9] ++
  counters .u64 [10]
/-- Transport counters (R262). -/
def objs6300 : List (Nat × Obj) := counters .u64 [1, 2, 3, 4, 5, 6, 7, 8, 9, 10, 11, 12, 13]
/-- Remote-access counters (R306). -/
def objs6400 : List (Nat × Obj) := counters .u32 [1] ++ counters .u64 [2, 3, 4, 5] ++ counters .u32 [6] ++
  counters .u64 [7, 8, 9, 10, 11, 12, 13]
/-- Event counters (R375). -/
def objs6500 : List (Nat × Obj) := counters .u64 [1, 2, 3] ++ counters .u32 [4] ++ counters .u64 [5]
/-- Management counters (R407). -/
def objs6700 : List (Nat × Obj) := counters .u64 [1, 2, 3, 4, 5, 6, 7] ++ [(8, ⟨.u64, .ro, 0, true⟩)]

/-- Rehearsal (R404). -/
def objs7000 : List (Nat × Obj) := [(1, ⟨.bool, .rwc, 0, false⟩), (2, ⟨.u8, .ro, 0, false⟩)] ++ counters .u64 [3, 4]
def objs7001 : List (Nat × Obj) :=
  [(1, ⟨.enum 6, .rwc, 0, false⟩), (2, ⟨.u32, .rwc, 0, false⟩), (3, ⟨.ltime, .rwc, 0, false⟩),
   (4, ⟨.ltime, .rwc, 1000000, false⟩), (5, ⟨.ltime, .rwc, 0, false⟩), (6, ⟨.u16, .rwc, 1, false⟩),
   (7, ⟨.u32, .rwc, 0, false⟩), (8, ⟨.enum 3, .ro, 0, false⟩), (9, ⟨.u32, .ro, 0, false⟩), (10, ⟨.ltime, .ro, 0, false⟩)]

/-- Bytes of STAGE (R422). -/
def stageBytes : Nat := 67108864

/-- Firmware (R422). -/
def objs7100 : List (Nat × Obj) :=
  [(1, ⟨.enum 1, .ro, 0, false⟩), (2, ⟨.u32, .ro, 0, true⟩), (3, ⟨.u8, .ro, 0, true⟩), (4, ⟨.u32, .ro, 0, true⟩),
   (5, ⟨.u8, .ro, 0, true⟩), (6, ⟨.octets stageBytes, .rwc, 0, true⟩), (7, ⟨.enum 3, .ro, 0, false⟩),
   (8, ⟨.u8, .ro, 0, false⟩), (9, ⟨.u8, .wo, 0, false⟩), (0xA, ⟨.enum 3, .ro, 0, false⟩), (0xB, ⟨.u8, .ro, 0, false⟩),
   (0xC, ⟨.u8, .wo, 0, false⟩), (0xD, ⟨.u32, .ro, 0, false⟩), (0xE, ⟨.bitset, .ro, 0, false⟩)]

/-- The objects of an index (R380); empty where none is defined. -/
def indexObjs (v : Variant) (idx : Nat) : List (Nat × Obj) :=
  if 0x4000 ≤ idx ∧ idx < 0x5000 then objs4000 v
  else if 0x5000 ≤ idx ∧ idx < 0x5400 then objs5000
  else if 0x7001 ≤ idx ∧ idx < 0x7011 then objs7001
  else if 0x3230 ≤ idx ∧ idx < 0x3240 then objs3230 (idx - 0x3230)
  else if 0x3200 ≤ idx ∧ idx < 0x3208 then objs3200
  else if 0x3000 ≤ idx ∧ idx < 0x300B then
    match unitClassAt (idx - 0x3000) with
    | some (c, n, w) => unitObjs n w (v.count c)
    | none => []
  else match idx with
    | 0x1000 => objs1000 v | 0x1010 => objs1010 | 0x1011 => objs1011 | 0x1012 => objs1012 | 0x1100 => objs1100 | 0x1101 => objs1101
    | 0x1200 => objs1200 v | 0x2000 => objs2000 | 0x2001 => objs2001 | 0x2002 => objs2002 | 0x2003 => objs2003
    | 0x2004 => objs2004 | 0x2005 => objs2005 | 0x2006 => objs2006 | 0x2100 => objs2100 v | 0x2101 => objs2101
    | 0x2102 => objs2102 | 0x3010 => objs3010 | 0x3210 => objs3210 | 0x3220 => objs3220 | 0x3240 => objs3240
    | 0x3300 => objs3300 | 0x3400 => objs3400 | 0x6000 => objs6000 | 0x6100 => objs6100 | 0x6200 => objs6200
    | 0x6300 => objs6300 | 0x6400 => objs6400 | 0x6500 => objs6500 | 0x6700 => objs6700 | 0x7000 => objs7000
    | 0x7100 => objs7100 | _ => []

/-- The highest subindex defined for an index (R378, subindex 0). -/
def highestSub (os : List (Nat × Obj)) : Nat := os.foldl (fun a o => max a o.1) 0

/-- The object Index.Sub, if it is defined; subindex 0 is a U8 CONST. -/
def objAt (v : Variant) (idx sub : Nat) : Option Obj :=
  let os := indexObjs v idx
  if os.isEmpty then none
  else if sub = 0 then some ⟨.u8, .const, highestSub os, false⟩
  else os.lookup sub

/-! ### Sparse association lists -/

/-- The value a key holds, else the default `d`. -/
def assocGet {α : Type} : List (Nat × α) → Nat → α → α
  | [], _, d => d
  | (k', v) :: l, k, d => if k' = k then v else if k < k' then d else assocGet l k d

/-- Store `v` under `k`, keeping keys ascending and leaving out a value equal to the default `d`. -/
def assocPut {α : Type} [DecidableEq α] : List (Nat × α) → Nat → α → α → List (Nat × α)
  | [], k, v, d => if v = d then [] else [(k, v)]
  | (k', v') :: l, k, v, d =>
    if k < k' then (if v = d then (k', v') :: l else (k, v) :: (k', v') :: l)
    else if k = k' then (if v = d then l else (k, v) :: l)
    else (k', v') :: assocPut l k v d

/-- Keys ascend strictly and no value equals its default. -/
def assocWf {α : Type} [DecidableEq α] (dflt : Nat → α) : List (Nat × α) → Bool
  | [] => true
  | [(k, v)] => decide (v ≠ dflt k)
  | (k, v) :: (k', v') :: l => decide (v ≠ dflt k) && decide (k < k') && assocWf dflt ((k', v') :: l)

/-- Index and subindex as one key. -/
def objKey (idx sub : Nat) : Nat := idx * 256 + sub

/-- The default of a scalar object. -/
def scalarDefault (v : Variant) (key : Nat) : Nat :=
  match objAt v (key / 256) (key % 256) with
  | some o => o.dflt
  | none => 0

/-- A stored scalar. -/
def State.scalar (s : State) (idx sub : Nat) : Nat :=
  assocGet s.objs (objKey idx sub) (scalarDefault s.variant (objKey idx sub))

/-- Set a stored scalar. -/
def State.setScalar (s : State) (idx sub v : Nat) : State :=
  { s with objs := assocPut s.objs (objKey idx sub) v (scalarDefault s.variant (objKey idx sub)) }

/-- Largest value of a counter of a type: it wraps there. -/
def OTy.span (t : OTy) : Nat := 2 ^ (8 * t.bytes)

/-- Advance a stored counter. -/
def State.count (s : State) (idx sub : Nat) (n : Nat := 1) : State :=
  let w := match objAt s.variant idx sub with | some o => o.ty.span | none => 2 ^ 64
  s.setScalar idx sub ((s.scalar idx sub + n) % w)

/-- Span of one OCTETS object in the byte store: 2^27, above STAGE's length. -/
def octSpan : Nat := 2 ^ 27

/-- The factory governor table (R465), as (TMARGIN in 0.1 degC, mV). -/
def factoryGovernor : List (Int × Nat) :=
  [(-100, 600), (-80, 630), (-60, 660), (-40, 690), (-20, 720), (0, 750), (50, 850)]

/-- Default byte of an OCTETS object (R337, R364, R465). -/
def octDefault (idx sub off : Nat) : Byte :=
  if idx = 0x3240 ∧ sub = 3 then (if off = 0 then 0 else 0xFF)
  else if idx = 0x3300 ∧ sub = 1 ∧ off % 16 = 6 then 0x80
  else if idx = 0x2002 ∧ sub = 1 then
    match factoryGovernor[off / 8]? with
    | some (t, mv) =>
      if off % 8 = 0 ∨ off % 8 = 1 then BitVec.ofNat 8 ((t % 65536).toNat / 256 ^ (off % 8))
      else if off % 8 = 2 ∨ off % 8 = 3 then BitVec.ofNat 8 (mv / 256 ^ (off % 8 - 2))
      else 0
    | none => 0
  else 0

def octKey (idx sub off : Nat) : Nat := objKey idx sub * octSpan + off

/-- Default byte under a key of the byte store. -/
def octDefaultKey (k : Nat) : Byte :=
  octDefault (k / octSpan / 256) (k / octSpan % 256) (k % octSpan)

/-- One stored byte of an OCTETS object. -/
def State.octByte (s : State) (idx sub off : Nat) : Byte :=
  assocGet s.octs (octKey idx sub off) (octDefault idx sub off)

/-- `n` stored bytes from `off`. -/
def State.octets (s : State) (idx sub off n : Nat) : List Byte :=
  (List.range n).map fun i => s.octByte idx sub (off + i)

def State.setOct (s : State) (idx sub off : Nat) (b : Byte) : State :=
  { s with octs := assocPut s.octs (octKey idx sub off) b (octDefault idx sub off) }

/-- Store bytes from `off` on. -/
def State.setOctets (s : State) (idx sub : Nat) : Nat → List Byte → State
  | _, [] => s
  | off, b :: bs => (s.setOct idx sub off b).setOctets idx sub (off + 1) bs

/-- Return every byte of an OCTETS object to its default. -/
def State.clearOctets (s : State) (idx sub : Nat) : State :=
  { s with octs := s.octs.filter fun c => c.1 / octSpan ≠ objKey idx sub }

/-- Return every stored scalar of an index to its default. -/
def State.clearScalars (s : State) (idx : Nat) : State :=
  { s with objs := s.objs.filter fun c => c.1 / 256 ≠ idx }

end Sys2Proof.Machine
end

