-- ==== Sys2Proof/Machine/Flags.lean ====
section
/-! DEFINITION. Sys2Proof/Machine/Flags.lean: the flag words of the node, by bit number: BANK_CAUSES, PINS, STUCK (R446),
HEALTH (R442), GOV_CAUSE (R464), and the event sources by number (R361-R363). -/

namespace Sys2Proof.Machine

open Sys2Proof

/-- Set or clear one bit. -/
def putBit {n : Nat} (v : BitVec n) (i : Nat) (b : Bool) : BitVec n :=
  if b then v ||| (BitVec.ofNat n (2 ^ i)) else v &&& ~~~(BitVec.ofNat n (2 ^ i))

/-- Bits of BANK_CAUSES. -/
def causeForceHold : Nat := 0
def causeThermal : Nat := 1
def causeActivation : Nat := 2
def causeManagement : Nat := 3
def causeRecalibrate : Nat := 4
def causeWarmReset : Nat := 5
def causeNodeRst : Nat := 6

/-- Bits of PINS. -/
def pinForceHold : Nat := 0
def pinThermTrip : Nat := 1
def pinNodeRst : Nat := 2
def pinPerst : Nat := 3
def pinEvin (i : Nat) : Nat := 4 + i

/-- Bits of STUCK. -/
def stuckThermTrip : Nat := 0
def stuckEvin (i : Nat) : Nat := 1 + i

/-- Bits of HEALTH. -/
def healthSpareExhausted : Nat := 0
def healthUnitFaulted : Nat := 1
def healthRetireFull : Nat := 2
def healthMirrorDegraded : Nat := 3
def healthCeStorm : Nat := 4
def healthRehearsing : Nat := 5
def healthBurnishLate : Nat := 6
def healthChannelLost : Nat := 7

/-- Bits of GOV_CAUSE. -/
def govThermal : Nat := 0
def govPower : Nat := 1
def govLimit : Nat := 2
def govAvsFault : Nat := 3

/-- Node sources (R361). -/
def srcMgmtMismatch : Nat := 0x000
def srcStuckInput : Nat := 0x001
def srcMetadataLost : Nat := 0x002
def srcCompMapReleased : Nat := 0x003
def srcLoanReclaimDone : Nat := 0x004
def srcThermalLimit : Nat := 0x005
def srcThermTrip : Nat := 0x006
def srcForceHold : Nat := 0x007
def srcEvin (i : Nat) : Nat := 0x008 + i
def srcBankedEntry : Nat := 0x00A
def srcBankedExit : Nat := 0x00B
def srcReady : Nat := 0x00C
def srcUnitState : Nat := 0x00D
def srcSpareSwitched : Nat := 0x00E
def srcFrameRetired : Nat := 0x00F
def srcRehearsal : Nat := 0x010
def srcPortStatus : Nat := 0x011

/-- LD source k of an LD (R362). -/
def srcLd (ld k : Nat) : Nat := 0x080 + 8 * ld + k
def ldDcd : Nat := 4
def ldMailbox : Nat := 5

/-- Kinds of assignable sources (R363). -/
def kindCompletion : Nat := 1
def kindReclaim : Nat := 2
def kindXlate : Nat := 3
def kindWindow : Nat := 4
def kindDoorbell : Nat := 5

end Sys2Proof.Machine
end

