-- ==== Sys2Proof/Config.lean ====
section
/-! DEFINITION. Sys2Proof/Config.lean: what the spec leaves open. Every constant here has no body, so no proof can
rest on a value of it. -/

namespace Sys2Proof.Config

/-- Free values (DESIGN CHOICE, log 2): the step applies it to the counter `State.free` and advances the counter. -/
opaque freeNat : Nat → Nat

/-- The exponential of an FP32 value inside R47's range, within ε_exp of the exact result. -/
opaque expFn : BitVec 32 → BitVec 32
/-- The reciprocal of R47, within 2^-23. -/
opaque recipFn : BitVec 32 → BitVec 32
/-- The reciprocal square root of R47, within 2^-22. -/
opaque rsqrtFn : BitVec 32 → BitVec 32
/-- tanh of R47, absolute error at most 2^-21. -/
opaque tanhFn : BitVec 32 → BitVec 32

/-- The device identity key that IDENTITY_SEED fixes, and the nonce of its signature over a message (R414; DESIGN CHOICE, log 14). -/
opaque identityKey : BitVec 384
opaque signNonce : List Byte → BitVec 384
/-- The key of a tenant by the number of its draw (R311). -/
opaque tenantKey : Nat → Nat → BitVec 512
/-- The node metadata key by the number of its draw, and the cipher of node metadata at a place under it: the spec names no mode for it (R310;
DESIGN CHOICE, log 14). -/
opaque metaKey : Nat → BitVec 512
opaque metaSeal : BitVec 512 → Nat → List (BitVec 8) → List (BitVec 8)
/-- KEY_HASH fuses (R409). -/
opaque keyHash : Nat → BitVec 384
/-- The ROM's fixed digest for the stepping (R415). -/
opaque romDigest : BitVec 384
/-- CORES bits that firmware writes into the route entry of a node source (R364). -/
opaque routeCores : Nat → BitVec 8
/-- Bytes of a payload whose layout CXL 3.1 or PCIe fixes and the spec only names (R334, R348, R355): command and
state digest of what it reports. -/
opaque cxlPayload : Nat → List Nat → List Byte
/-- Bytes of configuration space and of the component registers that CXL 3.1 or PCIe fixes and the spec does not give (R336, R344): the ID
of a DVSEC, or 0x100 + the ID of a component capability, and the offset in it; and where the next capability stands. -/
opaque capByte : Nat → Nat → BitVec 8
opaque capNext : Nat → BitVec 12
/-- Which onward member a relayed REQ message of a connection is meant for, by position among them; 0 for the node itself
(R258; the header names no final node). -/
opaque relayPick : Nat → List Byte → Nat
/-- Bytes that an entry names of a sequence at a peer, whose geometry this node does not hold (R274): kind (0 query block, 1
records, 2 source of an APPEND), peer and entry. -/
opaque peerBytes : Nat → Nat → BitVec 512 → Nat

/-- The hashes of SRC_NODE, DST_NODE, CONN and path index that give the flow label and the UDP source port (R234). -/
opaque flowLabel : Nat → Nat → Nat → Nat → BitVec 20
opaque flowPort : Nat → Nat → Nat → Nat → BitVec 14
/-- Mbit/s of the peer's port with a MAC address, which no map and no packet tells (R251). -/
opaque peerRate : BitVec 48 → Nat

end Sys2Proof.Config
end

