-- ==== Sys2Proof/Machine/Numerics.lean ====
section
/-! DEFINITION. Sys2Proof/Machine/Numerics.lean: the number formats of chapter 02 (R38-R44), FP32 arithmetic rounded
once (R42, R46) and the primitives of R47. Values are exact dyadic numbers until they are rounded. -/

namespace Sys2Proof.Machine

open Sys2Proof

/-- An exact value: a NaN, an infinity, or `(-1)^neg * m * 2^e`. -/
inductive Num where
  | nan
  | inf (neg : Bool)
  | fin (neg : Bool) (m : Nat) (e : Int)
  deriving DecidableEq, Repr

/-- Rounding directions: nearest with ties to even (R42); toward plus and minus infinity (R54). -/
inductive Rnd where
  | nearest | up | down
  deriving DecidableEq, Repr

/-- What a format does with its highest exponent: IEEE infinities and NaN, E4M3's one NaN, or neither (MX elements). -/
inductive FmtKind where
  | ieee | e4m3 | mx
  deriving DecidableEq, Repr

/-- A binary format of R38. -/
structure Fmt where
  ebits : Nat
  mbits : Nat
  bias : Nat
  kind : FmtKind
  deriving DecidableEq, Repr

def Fmt.fp32 : Fmt := ⟨8, 23, 127, .ieee⟩
def Fmt.bf16 : Fmt := ⟨8, 7, 127, .ieee⟩
def Fmt.fp16 : Fmt := ⟨5, 10, 15, .ieee⟩
def Fmt.fp8E4M3 : Fmt := ⟨4, 3, 7, .e4m3⟩
def Fmt.fp8E5M2 : Fmt := ⟨5, 2, 15, .ieee⟩
def Fmt.mx6 : Fmt := ⟨2, 3, 1, .mx⟩
def Fmt.mx4 : Fmt := ⟨2, 1, 1, .mx⟩

/-- Format codes (R38). -/
def fmtFP32 : Nat := 0
def fmtBF16 : Nat := 1
def fmtFP16 : Nat := 2
def fmtE4M3 : Nat := 3
def fmtE5M2 : Nat := 4
def fmtMX6 : Nat := 5
def fmtMX4 : Nat := 6
def fmtINT8 : Nat := 7
def fmtINT4 : Nat := 8

/-- The binary format of a code whose elements stand alone. -/
def fmtOf : Nat → Fmt
  | 1 => .bf16 | 2 => .fp16 | 3 => .fp8E4M3 | 4 => .fp8E5M2 | 5 => .mx6 | 6 => .mx4 | _ => .fp32

/-- A format whose vectors come in blocks or groups of 32, or take a channel scale: the length rule of R39. -/
def fmtBlocked (code : Nat) : Bool := code ≥ 5

/-- Exponent of the smallest subnormal. -/
def Fmt.qmin (f : Fmt) : Int := 1 - (f.bias : Int) - (f.mbits : Int)

/-- The code of the largest finite magnitude. -/
def Fmt.maxCode (f : Fmt) : Nat :=
  match f.kind with
  | .ieee => (2 ^ f.ebits - 1) * 2 ^ f.mbits - 1
  | .e4m3 => 0x7E
  | .mx => 2 ^ (f.ebits + f.mbits) - 1

/-- The sign bit's weight. -/
def Fmt.signBit (f : Fmt) : Nat := 2 ^ (f.ebits + f.mbits)

/-- R43: the canonical quiet NaN of a format. -/
def Fmt.nanCode (f : Fmt) : Nat :=
  match f.kind with
  | .ieee => if f.mbits = 2 then 0x7F else (2 ^ f.ebits - 1) * 2 ^ f.mbits + 2 ^ (f.mbits - 1)
  | .e4m3 => 0x7F
  | .mx => 0

/-- The code of infinity in an IEEE-like format. -/
def Fmt.infCode (f : Fmt) : Nat := (2 ^ f.ebits - 1) * 2 ^ f.mbits

/-- Decode one code exactly (R41). -/
def Fmt.decode (f : Fmt) (code : Nat) : Num :=
  let neg := code / f.signBit % 2 == 1
  let mag := code % f.signBit
  let ex := mag / 2 ^ f.mbits
  let fr := mag % 2 ^ f.mbits
  if f.kind = .ieee ∧ ex = 2 ^ f.ebits - 1 then (if fr = 0 then .inf neg else .nan)
  else if f.kind = .e4m3 ∧ mag = 0x7F then .nan
  else if ex = 0 then .fin neg fr f.qmin
  else .fin neg (2 ^ f.mbits + fr) (f.qmin + ((ex : Int) - 1))

/-- Divide by `2^sh` with rounding; `sticky` says that a nonzero part below was already dropped. -/
def roundShift (r : Rnd) (neg : Bool) (m sh : Nat) (sticky : Bool) : Nat :=
  let q := m / 2 ^ sh
  let rem := m % 2 ^ sh
  let inexact := rem != 0 || sticky
  let incr := match r with
    | .nearest => decide (2 * rem > 2 ^ sh) || (decide (2 * rem = 2 ^ sh) && (sticky || q % 2 == 1) && sh != 0)
    | .up => inexact && !neg
    | .down => inexact && neg
  if incr then q + 1 else q

/-- Magnitude code of a finite value in a format, before any overflow rule. -/
def Fmt.roundCode (f : Fmt) (r : Rnd) (neg : Bool) (m : Nat) (e : Int) (sticky : Bool := false) : Nat :=
  if m = 0 then (if sticky then roundShift r neg 0 1 true else 0) else
  let top : Int := e + (Nat.log2 m : Int)
  let q : Int := max (top - f.mbits) f.qmin
  let m' := if q ≤ e then m * 2 ^ (e - q).toNat else roundShift r neg m (q - e).toNat sticky
  (q - f.qmin).toNat * 2 ^ f.mbits + m'

/-- The sign of a code. -/
def Fmt.signed (f : Fmt) (neg : Bool) (mag : Nat) : Nat := if neg then f.signBit + mag else mag

/-- Does a rounded overflow go to infinity (R43, and the directed roundings of R54)? -/
def overflowInf (f : Fmt) (r : Rnd) (neg : Bool) : Bool :=
  match r with
  | .nearest => f.kind == .ieee && f.mbits != 2
  | .up => !neg
  | .down => neg

/-- Encode (R42, R43); the flag tells that a finite value was saturated. -/
def Fmt.encode (f : Fmt) (r : Rnd) : Num → Nat × Bool
  | .nan => (f.nanCode, false)
  | .inf neg => (if f.kind = .ieee then f.signed neg f.infCode else f.nanCode, false)
  | .fin neg m e =>
    let c := f.roundCode r neg m e
    if c ≤ f.maxCode then (f.signed neg c, false)
    else if overflowInf f r neg then (f.signed neg f.infCode, false)
    else (f.signed neg f.maxCode, true)

/-! ### FP32 arithmetic -/

/-- An FP32 word. -/
abbrev F32 := BitVec 32

def F32.num (x : F32) : Num := Fmt.fp32.decode x.toNat
def F32.ofNum (r : Rnd) (x : Num) : F32 := BitVec.ofNat 32 (Fmt.fp32.encode r x).1
def F32.nan : F32 := 0x7FC00000
def F32.posInf : F32 := 0x7F800000
def F32.negInf : F32 := 0xFF800000
def F32.zero : F32 := 0
def F32.one : F32 := 0x3F800000
def F32.isNan (x : F32) : Bool := x.num == .nan
def F32.isZero (x : F32) : Bool := (x &&& 0x7FFFFFFF) == 0

/-- The signed integer numerator at exponent `e`. -/
def scaled (neg : Bool) (m : Nat) (e tgt : Int) : Int :=
  let v : Int := (m : Int) * 2 ^ (e - tgt).toNat
  if neg then -v else v

/-- Exact sum; an exact zero of two opposite values is +0 (−0 when rounding down), as IEEE 754 gives. -/
def Num.add (r : Rnd) : Num → Num → Num
  | .nan, _ => .nan
  | _, .nan => .nan
  | .inf a, .inf b => if a = b then .inf a else .nan
  | .inf a, .fin _ _ _ => .inf a
  | .fin _ _ _, .inf b => .inf b
  | .fin n1 m1 e1, .fin n2 m2 e2 =>
    let e := min e1 e2
    let v := scaled n1 m1 e1 e + scaled n2 m2 e2 e
    if v = 0 then
      .fin (if m1 = 0 ∧ m2 = 0 ∧ n1 = n2 then n1 else r == .down) 0 e
    else .fin (decide (v < 0)) v.natAbs e

/-- Exact product. -/
def Num.mul : Num → Num → Num
  | .nan, _ => .nan
  | _, .nan => .nan
  | .inf a, .inf b => .inf (a != b)
  | .inf a, .fin n m _ => if m = 0 then .nan else .inf (a != n)
  | .fin n m _, .inf b => if m = 0 then .nan else .inf (n != b)
  | .fin n1 m1 e1, .fin n2 m2 e2 => .fin (n1 != n2) (m1 * m2) (e1 + e2)

def Num.neg : Num → Num
  | .nan => .nan
  | .inf n => .inf (!n)
  | .fin n m e => .fin (!n) m e

def Num.abs : Num → Num
  | .nan => .nan
  | .inf _ => .inf false
  | .fin _ m e => .fin false m e

/-- Is the first at most the second? False when either is NaN. Zeros are equal. -/
def Num.le : Num → Num → Bool
  | .nan, _ => false
  | _, .nan => false
  | .inf true, _ => true
  | _, .inf false => true
  | .inf false, .inf true => false
  | .inf false, .fin _ _ _ => false
  | .fin _ _ _, .inf true => false
  | .fin n1 m1 e1, .fin n2 m2 e2 => let e := min e1 e2; decide (scaled n1 m1 e1 e ≤ scaled n2 m2 e2 e)

def Num.lt (a b : Num) : Bool := a.le b && !b.le a

/-- A quotient: mantissa with 30 extra bits and a sticky flag, for one rounding. -/
def divCode (f : Fmt) (r : Rnd) (neg : Bool) (m1 m2 : Nat) (e : Int) : Nat :=
  let sh := 64 + (Nat.log2 m2 + 1) - min (Nat.log2 m2 + 1) (Nat.log2 m1)
  f.roundCode r neg (m1 * 2 ^ sh / m2) (e - sh) (m1 * 2 ^ sh % m2 != 0)

def F32.addR (r : Rnd) (a b : F32) : F32 := F32.ofNum r (Num.add r a.num b.num)
def F32.mulR (r : Rnd) (a b : F32) : F32 := F32.ofNum r (Num.mul a.num b.num)
def F32.add (a b : F32) : F32 := F32.addR .nearest a b
def F32.sub (a b : F32) : F32 := F32.ofNum .nearest (Num.add .nearest a.num b.num.neg)
def F32.mul (a b : F32) : F32 := F32.mulR .nearest a b
/-- One rounding for a fused multiply-add (R46). -/
def F32.fma (a b c : F32) : F32 := F32.ofNum .nearest (Num.add .nearest (Num.mul a.num b.num) c.num)

/-- Finish a rounded magnitude code as an FP32 word. -/
def F32.ofCode (neg : Bool) (c : Nat) : F32 :=
  BitVec.ofNat 32 (Fmt.fp32.signed neg (if c ≤ Fmt.fp32.maxCode then c else Fmt.fp32.infCode))

/-- The same for a finite result: past the largest finite value a directed rounding goes to infinity on its own side alone (R54). -/
def F32.ofRound (r : Rnd) (neg : Bool) (c : Nat) : F32 :=
  if c ≤ Fmt.fp32.maxCode ∨ r = .nearest ∨ overflowInf Fmt.fp32 r neg then F32.ofCode neg c
  else F32.ofCode neg Fmt.fp32.maxCode

def F32.divR (r : Rnd) (a b : F32) : F32 :=
  match a.num, b.num with
  | .nan, _ => F32.nan
  | _, .nan => F32.nan
  | .inf _, .inf _ => F32.nan
  | .inf n1, .fin n2 _ _ => F32.ofCode (n1 != n2) Fmt.fp32.infCode
  | .fin n1 _ _, .inf n2 => F32.ofCode (n1 != n2) 0
  | .fin n1 m1 e1, .fin n2 m2 e2 =>
    if m2 = 0 then (if m1 = 0 then F32.nan else F32.ofCode (n1 != n2) Fmt.fp32.infCode)
    else if m1 = 0 then F32.ofCode (n1 != n2) 0
    else F32.ofRound r (n1 != n2) (divCode Fmt.fp32 r (n1 != n2) m1 m2 (e1 - e2))

def F32.div (a b : F32) : F32 := F32.divR .nearest a b

/-- The integer square root by binary digits, `k` digits above the unit. -/
def isqrtAux : Nat → Nat → Nat → Nat
  | 0, _, acc => acc
  | k + 1, n, acc => let t := acc + 2 ^ k; isqrtAux k n (if t * t ≤ n then t else acc)

def isqrt (n : Nat) : Nat := isqrtAux (Nat.log2 n / 2 + 1) n 0

/-- Square root, rounded once; of a negative value NaN, and of -0 it is -0. -/
def F32.sqrt (a : F32) : F32 :=
  match a.num with
  | .nan => F32.nan
  | .inf n => if n then F32.nan else F32.posInf
  | .fin n m e =>
    if m = 0 then F32.ofCode n 0
    else if n then F32.nan
    else
      let e' := if e % 2 = 0 then e else e - 1
      let m' := if e % 2 = 0 then m else 2 * m
      let r := isqrt (m' * 2 ^ 60)
      F32.ofCode false (Fmt.fp32.roundCode .nearest false r (e' / 2 - 30) (r * r != m' * 2 ^ 60))

/-- R49: NaN wins; the maximum of +0 and -0 is +0. -/
def F32.max (a b : F32) : F32 :=
  if a.isNan || b.isNan then F32.nan
  else if Num.lt a.num b.num then b
  else if Num.lt b.num a.num then a
  else a &&& b

/-- The minimum: NaN wins; of +0 and -0 it is -0, as IEEE 754's minimum. -/
def F32.min (a b : F32) : F32 :=
  if a.isNan || b.isNan then F32.nan
  else if Num.lt a.num b.num then a
  else if Num.lt b.num a.num then b
  else a ||| b

def F32.neg (a : F32) : F32 := if a.isNan then F32.nan else a ^^^ 0x80000000
def F32.abs (a : F32) : F32 := if a.isNan then F32.nan else a &&& 0x7FFFFFFF

/-! ### Exact values, and open values within a bound -/

/-- Exact value of a finite F32; 0 for the others. -/
def f32Rat (x : F32) : Rat :=
  match x.num with
  | .fin neg m e =>
    let v : Rat := if 0 ≤ e then (m : Rat) * (2 ^ e.toNat : Nat) else (m : Rat) / ((2 ^ (-e).toNat : Nat) : Rat)
    if neg then -v else v
  | _ => 0

/-- The F32 that a rational rounds to. -/
def ratF32R (r : Rnd) (x : Rat) : F32 :=
  if x = 0 then F32.zero
  else
    let neg := decide (x < 0)
    F32.ofRound r neg (divCode Fmt.fp32 r neg x.num.natAbs x.den 0)

/-- The F32 nearest a rational. -/
def ratF32 (x : Rat) : F32 := ratF32R .nearest x

/-- An open value that the spec confines: the drawn value where it meets the bound, else `d`. -/
def pickBy (ok : Rat → Bool) (d x : F32) : F32 :=
  match x.num with
  | .fin _ _ _ => if ok (f32Rat x) then x else d
  | _ => d

/-- The least magnitude that rounds to an FP32 infinity. -/
def f32Over : Rat := ((2 ^ 128 - 2 ^ 103 : Nat) : Rat)

/-- An open value within `e` of the exact `c`: the drawn value where it is one, an infinity among them where the range reaches past FP32;
else the value nearest `c`. -/
def pickNear (c e : Rat) (y : F32) : F32 :=
  match y.num with
  | .fin _ _ _ => if c - e ≤ f32Rat y && f32Rat y ≤ c + e then y else ratF32 c
  | .inf neg => if f32Over ≤ (if neg then e - c else c + e) then y else ratF32 c
  | .nan => ratF32 c

/-- u of R52: 2^-24. -/
def unitU : Rat := 1 / 2 ^ 24

/-- The least k with n ≤ 2^k. -/
def ceilLog2 (n : Nat) : Nat := if n ≤ 1 then 0 else Nat.log2 (n - 1) + 1

/-- A square root within 2^-100 of itself, relatively. -/
def ratSqrt (x : Rat) : Rat :=
  if x ≤ 0 then 0 else (isqrt (x.num.natAbs * x.den * 2 ^ 200) : Rat) / ((x.den * 2 ^ 100 : Nat) : Rat)

def ratAbs (x : Rat) : Rat := if x < 0 then -x else x

/-- 88.72 and -103.28 as exact hundredths. -/
def expHigh : Int := 8872
def expLow : Int := -10328

/-- Compare an FP32 value with hundredths: is `a > h / 100`? -/
def Num.gtCent (a : Num) (h : Int) : Bool := Num.lt (Num.fin (decide (h < 0)) h.natAbs 0) (Num.mul a (.fin false 100 0))
def Num.ltCent (a : Num) (h : Int) : Bool := Num.lt (Num.mul a (.fin false 100 0)) (Num.fin (decide (h < 0)) h.natAbs 0)

/-! ### The exponential and tanh of an exact value

The bounds of R47 and R52 to R54 compare with exact values. These are reached here within 2^-250, relatively for the exponential and
absolutely for tanh, and every comparison allows that much more (safe: log 20). -/

/-- Fixed point of the series. -/
def expOne : Nat := 2 ^ 320

/-- The exponential series at `y / expOne` by Horner's rule, from the term of degree `k` down. -/
def expSeries (y : Nat) : Nat → Nat → Nat
  | 0, acc => acc
  | k + 1, acc => expSeries y k (expOne + y * acc / (expOne * (k + 1)))

/-- Square `m / expOne * 2^e`, `m` between `expOne` and twice that, `k` times. -/
def expSquare : Nat → Nat × Nat → Nat × Nat
  | 0, x => x
  | k + 1, x =>
    let m := x.1 * x.1 / expOne
    expSquare k (if 2 * expOne ≤ m then (m / 2, 2 * x.2 + 1) else (m, 2 * x.2))

/-- e^x for 0 ≤ x ≤ 4096: the series at x / 2^13, squared 13 times. -/
def expPos (x : Rat) : Rat :=
  let y := x.num.natAbs * expOne / (x.den * 2 ^ 13)
  let r := expSquare 13 (expSeries y 64 expOne, 0)
  ((r.1 * 2 ^ r.2 : Nat) : Rat) / ((expOne : Nat) : Rat)

/-- e^x. Beyond 4096 in magnitude it is out of every format's range, and 2^5909 or 2^-5909 stands for it. -/
def ratExp (x : Rat) : Rat :=
  if 4096 < ratAbs x then (if x < 0 then 1 / ((2 ^ 5909 : Nat) : Rat) else ((2 ^ 5909 : Nat) : Rat))
  else if x < 0 then 1 / expPos (-x) else expPos x

/-- tanh x; beyond 128 in magnitude it lies within 2^-250 of ±1. -/
def ratTanh (x : Rat) : Rat :=
  let t := 1 - 2 / (ratExp (2 * min (ratAbs x) 128) + 1)
  if x < 0 then -t else t

/-- ε_exp of R47. -/
def epsExp : Rat := 3 / 2 ^ 23

/-- The distance of `ratExp` and `ratTanh` from the exact value. -/
def ratSlack : Rat := 1 / ((2 ^ 250 : Nat) : Rat)

/-- The bound of R47 on an exponential whose exact value is `e`. -/
def expBound (e : Rat) : Rat := (if e < 1 / ((2 ^ 126 : Nat) : Rat) then 1 / ((2 ^ 149 : Nat) : Rat) else epsExp * e) + ratSlack * e

/-- Exponential (R47): the special cases exactly, otherwise a value within the error, the same for the same argument (R55). -/
def F32.exp (a : F32) : F32 :=
  if a.isNan then F32.nan
  else if a.num.gtCent expHigh then F32.posInf
  else if a.num.ltCent expLow then F32.zero
  else
    let e := ratExp (f32Rat a)
    pickBy (fun y => ratAbs (y - e) ≤ expBound e) (ratF32 e) (Config.expFn a)

/-- 1/a within 2^-23 (R47): the drawn value, or the nearest one. -/
def recipIn (a y : F32) : F32 := pickBy (fun y => ratAbs (y * f32Rat a - 1) ≤ 1 / 2 ^ 23) (F32.div F32.one a) y

/-- 1/√a within 2^-22 (R47): the drawn value, or the rounded quotient. -/
def rsqrtIn (a y : F32) : F32 :=
  pickBy (fun y => 0 < y && (1 - 1 / 2 ^ 22) ^ 2 ≤ y * y * f32Rat a && y * y * f32Rat a ≤ (1 + 1 / 2 ^ 22) ^ 2)
    (F32.div F32.one (F32.sqrt a)) y

/-- Reciprocal (R47). The reciprocal of a zero is an infinity and of an infinity a zero, exactly. -/
def F32.recip (a : F32) : F32 :=
  match a.num with
  | .nan => F32.nan
  | .inf n => F32.ofCode n 0
  | .fin n m _ => if m = 0 then F32.ofCode n Fmt.fp32.infCode else recipIn a (Config.recipFn a)

/-- Reciprocal square root (R47), the special cases as IEEE 754 gives them. -/
def F32.rsqrt (a : F32) : F32 :=
  match a.num with
  | .nan => F32.nan
  | .inf n => if n then F32.nan else F32.zero
  | .fin n m _ => if m = 0 then F32.ofCode n Fmt.fp32.infCode else if n then F32.nan else rsqrtIn a (Config.rsqrtFn a)

/-- tanh (R47): at a NaN and at the infinities exactly, else within 2^-21. -/
def F32.tanh (a : F32) : F32 :=
  match a.num with
  | .nan => F32.nan
  | .inf n => if n then 0xBF800000 else F32.one
  | .fin _ _ _ =>
    let t := ratTanh (f32Rat a)
    pickBy (fun y => ratAbs (y - t) ≤ 1 / 2 ^ 21 + ratSlack) (ratF32 t) (Config.tanhFn a)

/-- tanh rounded toward +infinity (R140). Beyond 128 in magnitude the exact value lies inside (-1, 1). -/
def F32.tanhUp (a : F32) : F32 :=
  match a.num with
  | .nan => F32.nan
  | .inf n => if n then 0xBF800000 else F32.one
  | .fin _ _ _ => ratF32R .up (ratTanh (f32Rat a))

/-! ### Vectors of stored elements (R39-R41) -/

/-- R41: a decoded magnitude beyond FP32 becomes infinity. -/
def toF32 (x : Num) : F32 := F32.ofNum .nearest x

/-- Bytes of a vector of `d` elements (R40). -/
def vecBytes (code d : Nat) : Nat :=
  match code with
  | 0 => 4 * d
  | 1 | 2 => 2 * d
  | 3 | 4 | 7 => d
  | 5 => 3 * d / 4 + d / 32
  | 6 => d / 2 + d / 32
  | 8 => d / 2 + d / 16
  | _ => 0

/-- Bytes of the elements alone, before the block scales. -/
def elemBytes (code d : Nat) : Nat :=
  match code with
  | 5 => 3 * d / 4
  | 6 | 8 => d / 2
  | _ => vecBytes code d

def byteAt (bs : List Byte) (i : Nat) : Nat := (bs.getD i 0).toNat

/-- The raw code of element `i` of a packed vector (R40). -/
def elemCode (code : Nat) (bs : List Byte) (i : Nat) : Nat :=
  match code with
  | 0 => leVal ((bs.drop (4 * i)).take 4)
  | 1 | 2 => leVal ((bs.drop (2 * i)).take 2)
  | 5 => leVal ((bs.drop (i / 4 * 3)).take 3) / 2 ^ (6 * (i % 4)) % 64
  | 6 | 8 => byteAt bs (i / 2) / 2 ^ (4 * (i % 2)) % 16
  | _ => byteAt bs i

/-- A two's-complement value. -/
def twos (w x : Nat) : Int := if x < 2 ^ (w - 1) then (x : Int) else (x : Int) - 2 ^ w

/-- An integer times a value. -/
def Num.timesInt (x : Num) (k : Int) : Num := Num.mul x (.fin (decide (k < 0)) k.natAbs 0)

/-- An MX scale (R38): `2^(e - 127)`, or NaN for 0xFF. -/
def e8m0 (e : Nat) : Num := if e = 0xFF then .nan else .fin false 1 ((e : Int) - 127)

/-- Element `i` of a vector of `d` elements; `scale` is the channel scale of an INT8 element (R39). -/
def vecElem (code d : Nat) (scale : BitVec 16) (bs : List Byte) (i : Nat) : F32 :=
  let c := elemCode code bs i
  toF32 <| match code with
  | 5 => Num.mul (Fmt.mx6.decode c) (e8m0 (byteAt bs (elemBytes 5 d + i / 32)))
  | 6 => Num.mul (Fmt.mx4.decode c) (e8m0 (byteAt bs (elemBytes 6 d + i / 32)))
  | 7 => (Fmt.bf16.decode scale.toNat).timesInt (twos 8 c)
  | 8 => (Fmt.bf16.decode (leVal ((bs.drop (elemBytes 8 d + 2 * (i / 32))).take 2))).timesInt (twos 4 c)
  | _ => (fmtOf code).decode c

/-- Decode a vector; `scales` holds one channel scale per element, for INT8. -/
def decodeVec (code d : Nat) (scales : List (BitVec 16)) (bs : List Byte) : List F32 :=
  (List.range d).map fun i => vecElem code d (scales.getD i 0) bs i

/-! ### Encoding (R42-R44) -/

/-- Numerical exceptions of an encoding: saturations, and NaN mapped to 0 (R43). -/
structure Exc where
  sat : Nat := 0
  nanInt : Nat := 0
  deriving DecidableEq, Repr

def Exc.add (a b : Exc) : Exc := ⟨a.sat + b.sat, a.nanInt + b.nanInt⟩

/-- `num / den` rounded to the nearest integer, ties to even. -/
def rneDiv (num den : Nat) : Nat :=
  let q := num / den
  let r := num % den
  if 2 * r > den ∨ (2 * r = den ∧ q % 2 = 1) then q + 1 else q

/-- The quotient of two finite magnitudes rounded to an integer. -/
def ratioRound (m1 : Nat) (e1 : Int) (m2 : Nat) (e2 : Int) : Nat :=
  let e := e1 - e2
  if 0 ≤ e then rneDiv (m1 * 2 ^ e.toNat) m2 else rneDiv m1 (m2 * 2 ^ (-e).toNat)

/-- An integer element (R44 INT8 and INT4) against a scale `ms * 2^es`, saturated at `top`. -/
def intElem (w top ms : Nat) (es : Int) (x : F32) : Nat × Exc :=
  match x.num with
  | .nan => (0, ⟨0, 1⟩)
  | .inf n => (if n then 2 ^ w - top else top, ⟨1, 0⟩)
  | .fin n m e =>
    let q := ratioRound m e ms es
    let v := min q top
    (if n ∧ v ≠ 0 then 2 ^ w - v else v, ⟨if q > top then 1 else 0, 0⟩)

/-- Is a BF16 value a permitted INT8 scale (R44): positive, normal and finite? -/
def int8ScaleOk (s : BitVec 16) : Bool :=
  decide (s.toNat < 0x7F80) && decide (0x80 ≤ s.toNat)

/-- Mantissa and exponent of a finite nonzero BF16 scale. -/
def bf16Parts (s : Nat) : Nat × Int :=
  match Fmt.bf16.decode s with
  | .fin _ m e => (m, e)
  | _ => (1, 0)

/-- The largest finite magnitude of a list as (mantissa, exponent); (0, 0) when none is nonzero. -/
def amax (xs : List F32) : Nat × Int :=
  xs.foldl (fun a x => match x.num with
    | .fin _ m e => if Num.lt (.fin false a.1 a.2) (.fin false m e) then (m, e) else a
    | _ => a) (0, 0)

/-- Is an element an infinity or a NaN? -/
def F32.special (x : F32) : Bool :=
  match x.num with
  | .fin _ _ _ => false
  | _ => true

/-- R44, MX block: the element codes, the E8M0 scale, and what saturated. -/
def encodeMxBlock (f : Fmt) (xs : List F32) : List Nat × Nat × Exc :=
  if xs.any F32.special then (xs.map fun _ => 0, 0xFF, {})
  else
    let a := amax xs
    if a.1 = 0 then (xs.map fun _ => 0, 0, {})
    else
      let X : Int := max (-127) (min 127 (a.2 + (Nat.log2 a.1 : Int) - 2))
      let cs := xs.map fun x => f.encode .nearest (Num.mul x.num (.fin false 1 (-X)))
      (cs.map (·.1), (X + 127).toNat, ⟨(cs.filter (·.2)).length, 0⟩)

/-- R44, INT4 group: the element codes, the BF16 scale, and the exceptions. -/
def encodeInt4Group (xs : List F32) : List Nat × Nat × Exc :=
  let a := amax xs
  let s := if a.1 = 0 then 0x0080 else divCode Fmt.bf16 .up false a.1 7 a.2
  let p := bf16Parts s
  let cs := xs.map (intElem 4 7 p.1 p.2)
  (cs.map (·.1), s, cs.foldl (fun e c => e.add c.2) {})

/-- Split a list into runs of `n`, `k` of them. -/
def chunks {α : Type} (n : Nat) : Nat → List α → List (List α)
  | 0, _ => []
  | k + 1, xs => xs.take n :: chunks n k (xs.drop n)

/-- Pack element codes (R40). -/
def packElems (code : Nat) (cs : List Nat) : List Byte :=
  match code with
  | 5 => (chunks 4 (cs.length / 4) cs).flatMap fun g =>
      leBytes 3 (g.getD 0 0 + 64 * g.getD 1 0 + 4096 * g.getD 2 0 + 262144 * g.getD 3 0)
  | _ => (chunks 2 (cs.length / 2) cs).map fun g => BitVec.ofNat 8 (g.getD 0 0 + 16 * g.getD 1 0)

/-- Encode a vector (R40, R42-R44); `scales` as in `decodeVec`. -/
def encodeVec (code : Nat) (scales : List (BitVec 16)) (xs : List F32) : List Byte × Exc :=
  let d := xs.length
  match code with
  | 0 => (xs.flatMap fun x => leBytes 4 (if x.isNan then F32.nan else x).toNat, {})
  | 5 | 6 =>
    let bl := (chunks 32 (d / 32) xs).map (encodeMxBlock (fmtOf code))
    (packElems code (bl.flatMap (·.1)) ++ bl.map (fun b => BitVec.ofNat 8 b.2.1), bl.foldl (fun e b => e.add b.2.2) {})
  | 7 =>
    let es := (List.range d).map fun i =>
      let p := bf16Parts (scales.getD i 0).toNat
      intElem 8 127 p.1 p.2 (xs.getD i 0)
    (es.map (fun e => BitVec.ofNat 8 e.1), es.foldl (fun a e => a.add e.2) {})
  | 8 =>
    let gs := (chunks 32 (d / 32) xs).map encodeInt4Group
    (packElems code (gs.flatMap (·.1)) ++ gs.flatMap (fun g => leBytes 2 g.2.1), gs.foldl (fun e g => e.add g.2.2) {})
  | _ =>
    let f := fmtOf code
    let es := xs.map fun x => f.encode .nearest x.num
    let w := (f.ebits + f.mbits + 1) / 8
    (es.flatMap (fun e => leBytes w e.1), ⟨(es.filter (·.2)).length, 0⟩)

/-- BF16 bounds of a touchstone: the minimum rounded down, the maximum up (R54, R129). -/
def bf16Down (x : F32) : BitVec 16 := BitVec.ofNat 16 (Fmt.bf16.encode .down x.num).1
def bf16Up (x : F32) : BitVec 16 := BitVec.ofNat 16 (Fmt.bf16.encode .up x.num).1
def bf16ToF32 (b : BitVec 16) : F32 := toF32 (Fmt.bf16.decode b.toNat)

end Sys2Proof.Machine
end

