-- ==== Sys2Proof/Machine/Ops.lean ====
section
/-! DEFINITION. Sys2Proof/Machine/Ops.lean: the operations every family shares: list records, free values, output,
byte memory, local time, and the event controller's raising and routing (R369-R371). -/

namespace Sys2Proof.Machine

open Sys2Proof

/-! ### Records kept in lists -/

/-- Change the records that satisfy `p`. -/
def modWhere {α : Type} (p : α → Bool) (f : α → α) (l : List α) : List α := l.map fun x => if p x then f x else x

/-- Remove the records that satisfy `p`. -/
def dropWhere {α : Type} (p : α → Bool) (l : List α) : List α := l.filter fun x => !p x

/-- Add an element unless it is there. -/
def insertNew {α : Type} [DecidableEq α] (x : α) (l : List α) : List α := if x ∈ l then l else l ++ [x]

/-- Sum of a measure over a list. -/
def sumOf {α : Type} (f : α → Nat) (l : List α) : Nat := l.foldl (fun a x => a + f x) 0

/-- The lowest number from 0 on, below `top`, that is not used. -/
def lowestFree (used : List Nat) (top : Nat) : Option Nat :=
  ((List.range (min top (used.length + 1))).find? fun n => !used.contains n)

/-- The first check of a list that fails decides (R103 and every ordered check of the spec). -/
def firstFail : List (Bool × Status) → Option Status
  | [] => none
  | (bad, st) :: l => if bad then some st else firstFail l

/-! ### Free values (DESIGN CHOICE, log 2) and outputs (DESIGN CHOICE, log 7) -/

/-- Draw a free value below `n`. -/
def State.draw (s : State) (n : Nat) : Nat × State := (Config.freeNat s.free % n, { s with free := s.free + 1 })

/-- Draw a free word of `w` bits. -/
def State.drawBits (s : State) (w : Nat) : BitVec w × State :=
  (BitVec.ofNat w (Config.freeNat s.free), { s with free := s.free + 1 })

/-- `n` free bytes. -/
def State.drawBytes : Nat → State → List Byte × State
  | 0, s => ([], s)
  | n + 1, s => let (b, s) := s.drawBits 8; let (bs, s) := State.drawBytes n s; (b :: bs, s)

/-- Send something out of the node. -/
def State.emit (s : State) (o : Out) : State := { s with out := o :: s.out }

/-! ### Byte memory -/

/-- Canonical form of a byte memory whose unlisted bytes read 0. -/
def Memory.wf (m : List Host.Cell) : Bool := assocWf (fun _ => (0 : Byte)) m

def Memory.read (m : List Host.Cell) (a : Nat) : Byte := assocGet m a 0

def Memory.write (m : List Host.Cell) (a : Nat) (b : Byte) : List Host.Cell := assocPut m a b 0

/-- Store bytes at rising addresses. -/
def Memory.writeBytes (m : List Host.Cell) : Nat → List Byte → List Host.Cell
  | _, [] => m
  | a, b :: bs => Memory.writeBytes (Memory.write m a b) (a + 1) bs

def Memory.readBytes (m : List Host.Cell) (a n : Nat) : List Byte := (List.range n).map fun i => Memory.read m (a + i)

/-- Make the bytes of `[a, a + n)` read 0. -/
def Memory.zero (m : List Host.Cell) (a n : Nat) : List Host.Cell := m.filter fun c => c.1 < a || a + n ≤ c.1

/-! ### Local time -/

/-- Present reading of the local counter. -/
def State.now (s : State) : Nat := s.clk.ltime.toNat

/-- One FABREF period of 6.4 ns: adds 6 or 7, carrying the fraction (R26). -/
def Clock.tick (c : Clock) : Clock :=
  let f := c.frac + 2
  { c with ltime := c.ltime + (if f ≥ 5 then 7 else 6), frac := f % 5 }

/-! ### Logical devices -/

/-- MGMT_LD in force (R337). -/
def State.mgmtLd (s : State) : Nat := s.scalar 0x3240 5

/-- LD_COUNT in force. -/
def State.ldCount (s : State) : Nat := s.scalar 0x3240 4

/-- TENANT_LD: the LD of a tenant; 0xFF for none. -/
def State.tenantLd (s : State) (t : Nat) : Nat := (s.octByte 0x3240 3 t).toNat

def State.ld (s : State) (n : Nat) : Ld := (s.lds.find? (·.n == n)).getD { n := n }

def State.modLd (s : State) (n : Nat) (f : Ld → Ld) : State := { s with lds := modWhere (·.n == n) f s.lds }

/-- TARGETS of an LD. -/
def State.targets (s : State) (ld : Nat) : Nat := s.scalar (0x3230 + ld) 1

/-! ### Route entries (R364) -/

/-- The 128-bit route entry of a source, CORES as firmware wrote it. -/
def State.routeEntry (s : State) (src : Nat) : Nat := leVal (s.octets 0x3300 1 (16 * src) 16)

def rtTgt (e : Nat) : Nat := bits e 127 64
def rtPrio (e : Nat) : Nat := bits e 55 48
def rtVector (e : Nat) : Nat := bits e 47 43
def rtFast (e : Nat) : Bool := bit e 42
def rtSlot (e : Nat) : Nat := bits e 41 36
def rtOwner (e : Nat) : Nat := bits e 35 24
def rtKind (e : Nat) : Nat := bits e 23 20
def rtAlert (e : Nat) : Bool := bit e 19

/-- The LD a source belongs to (R360); 0xFF when its owner has none. -/
def State.sourceLd (s : State) (src : Nat) : Nat :=
  if src < 0x80 then s.mgmtLd
  else if src < 0x100 then (src - 0x80) / 8
  else s.tenantLd (rtOwner (s.routeEntry src))

/-- Sources whose route entry a COMMIT has written. -/
def State.routedSources (s : State) : List Nat :=
  (s.octs.filterMap fun c => if c.1 / octSpan = objKey 0x3300 1 then some (c.1 % octSpan / 16) else none).dedup

/-- The source that serves a tenant's causes of a kind (R363). -/
def State.tenantSource (s : State) (t kind : Nat) : Option Nat :=
  s.routedSources.find? fun src =>
    decide (0x100 ≤ src) && rtKind (s.routeEntry src) == kind && rtOwner (s.routeEntry src) == t

/-! ### Pending and mask bits (R366, R367) -/

def State.pendOf (s : State) (src : Nat) : Bool :=
  let e := s.routeEntry src
  if rtFast e then s.ev.fpend.getLsbD (rtSlot e) else s.ev.pend.getLsbD src

def State.maskOf (s : State) (src : Nat) : Bool :=
  let e := s.routeEntry src
  if rtFast e then s.ev.fmask.getLsbD (rtSlot e) else s.ev.mask.getLsbD src

def State.setPend (s : State) (src : Nat) (b : Bool) : State :=
  let e := s.routeEntry src
  if rtFast e then { s with ev := { s.ev with fpend := putBit s.ev.fpend (rtSlot e) b } }
  else { s with ev := { s.ev with pend := putBit s.ev.pend src b } }

def State.setMask (s : State) (src : Nat) (b : Bool) : State :=
  let e := s.routeEntry src
  if rtFast e then { s with ev := { s.ev with fmask := putBit s.ev.fmask (rtSlot e) b } }
  else { s with ev := { s.ev with mask := putBit s.ev.mask src b } }

/-! ### Routing (R370) -/

def State.target (s : State) (t : Nat) : Target := (s.ev.targets.find? (·.t == t)).getD { t := t }

def State.setTarget (s : State) (x : Target) : State :=
  { s with ev := { s.ev with targets := x :: dropWhere (·.t == x.t) s.ev.targets } }

/-- Current priority of target x: hosts 0 to 63, cores 64 to 71. -/
def State.curprio (s : State) (x : Nat) : Nat :=
  if x < 64 then (s.target x).curprio.toNat else (s.ev.corePrio.getD (x - 64) 0xFF).toNat

/-- A host target is live: in TARGETS of the source's LD, MSI-X enabled and unmasked at function level. In the banked
state host deliveries wait (R376, R451). -/
def State.hostLive (s : State) (src t : Nat) : Bool :=
  let ld := s.sourceLd src
  bit (s.targets ld) t && (s.ld ld).msixOn && !(s.ld ld).msixMask && !s.node.coreHeld

/-- The candidates of a source, in routing order. -/
def State.candidates (s : State) (src : Nat) : List Nat :=
  ((List.range 64).filter fun t => bit (rtTgt (s.routeEntry src)) t && s.hostLive src t) ++
  (if src < 0x80 then ((List.range 8).filter fun c => (Config.routeCores src).getLsbD c).map (64 + ·) else [])

/-- PRIO, or the slot's FPRIO for a fast source. -/
def State.sourcePrio (s : State) (src : Nat) : Nat :=
  let e := s.routeEntry src
  if rtFast e then assocGet s.ev.fprio (rtSlot e) 0 else rtPrio e

/-- Send the message of an MSI-X table entry. -/
def State.sendMsix (s : State) (ld en : Nat) : State :=
  let m := assocGet (s.ld ld).vectors en (0, 0)
  s.emit (.msix ld en m.1 m.2)

/-- Deliver to a target: an MSI-X write, held in the pending bit array while its entry is masked, or a core's message (DESIGN CHOICE, log 75). -/
def State.deliver (s : State) (x src : Nat) : State :=
  let s := s.count 0x6500 2
  if x < 64 then
    let ld := s.sourceLd src
    let en := 32 * x + rtVector (s.routeEntry src)
    let tg := s.target x
    let s := s.setTarget { tg with lastSrc := BitVec.ofNat 32 src, lastTime := s.clk.ltime, delivered := tg.delivered + 1 }
    if (s.ld ld).vecMask.getLsbD en then s.modLd ld fun l => { l with pba := putBit l.pba en true }
    else s.sendMsix ld en
  else s.emit (.core (x - 64) src)

/-- The target that R370 chooses among the eligible ones. -/
def State.pickTarget (s : State) (src : Nat) : Option Nat :=
  let elig := (s.candidates src).filter fun x => decide (s.curprio x < s.sourcePrio src)
  match elig with
  | [] => none
  | x0 :: _ =>
    let low := elig.foldl (fun a x => min a (s.curprio x)) (s.curprio x0)
    let tied := elig.filter fun x => s.curprio x == low
    let rr := assocGet s.ev.rr src 0
    some ((tied.find? fun x => decide (rr ≤ x)).getD (tied.headD x0))

/-- Route a source once (R370). -/
def State.route (s : State) (src : Nat) : State :=
  match s.pickTarget src with
  | none => { s with ev := { s.ev with waiting := insertNew src s.ev.waiting } }
  | some x =>
    let s := { s with ev := { s.ev with rr := assocPut s.ev.rr src (x + 1) 0, waiting := s.ev.waiting.erase src } }
    s.deliver x src

/-- Set pending and route once when unmasked; a pending source coalesces (R369). -/
def State.raiseOnce (s : State) (src : Nat) : State :=
  let s := s.count 0x6500 1
  if s.pendOf src then s.count 0x6500 3
  else
    let s := s.setPend src true
    if s.maskOf src then s else s.route src

/-- Re-trigger window and limit (R374). -/
def retrigWindow : Nat := 1000
def retrigSpan : Nat := 1000000
def retrigLimit : Nat := 64

/-- Does pin source `i` return to pending within 1 us of a software clear? -/
def State.isRetrig (s : State) (i : Nat) : Bool :=
  !s.pendOf (srcEvin i) &&
  match s.ev.clearedAt.lookup i with
  | some t => decide (s.now ≤ t + retrigWindow)
  | none => false

/-- Re-triggers of pin source `i` within the last 1 ms, the present one included. -/
def State.retrigs (s : State) (i : Nat) : Nat :=
  (s.ev.retrig.filter fun p => p.1 == i && decide (s.now ≤ p.2 + retrigSpan)).length + 1

/-- Mask a stuck pin source, count it and raise STUCK_INPUT (R374, R456). -/
def State.maskStuck (s : State) (i : Nat) : State :=
  let s := s.setMask (srcEvin i) true
  let s := { s with node := { s.node with stuck := putBit s.node.stuck (stuckEvin i) true } }
  let s := { s with ev := { s.ev with waiting := s.ev.waiting.erase (srcEvin i), retrig := dropWhere (·.1 == i) s.ev.retrig } }
  (s.count 0x6500 5).raiseOnce srcStuckInput

/-- Raise EVINi: a 64th re-trigger masks the source before it can route (R374). -/
def State.raiseEvin (s : State) (i : Nat) : State :=
  if s.isRetrig i then
    if s.retrigs i ≥ retrigLimit then (s.maskStuck i).raiseOnce (srcEvin i)
    else ({ s with ev := { s.ev with retrig := (i, s.now) :: s.ev.retrig } }).raiseOnce (srcEvin i)
  else s.raiseOnce (srcEvin i)

/-- Raise a source. -/
def State.raise (s : State) (src : Nat) : State :=
  if src = srcEvin 0 then s.raiseEvin 0 else if src = srcEvin 1 then s.raiseEvin 1 else s.raiseOnce src

/-- Raise the source that serves a tenant's cause, if it has one (R363). -/
def State.raiseTenant (s : State) (t kind : Nat) : State :=
  match s.tenantSource t kind with
  | some src => s.raise src
  | none => s

/-- Route again the waiting sources of `p` (R371), those of the fast class first (R372). -/
def State.rerouteWaiting (s : State) (p : Nat → Bool) : State :=
  let fast := fun src => rtFast (s.routeEntry src)
  ((s.ev.waiting.filter fun src => p src && fast src) ++ s.ev.waiting.filter fun src => p src && !fast src).foldl (fun s src => if s.pendOf src && !s.maskOf src then s.route src else s) s

/-- Is the pin behind a level source active (R373)? -/
def State.levelActive (s : State) (src : Nat) : Bool :=
  if src = srcThermTrip then s.node.pins.getLsbD pinThermTrip
  else if src = srcForceHold then s.node.pins.getLsbD pinForceHold
  else if src = srcEvin 0 then s.node.pins.getLsbD (pinEvin 0) && !bit (s.scalar 0x3300 2) 0
  else if src = srcEvin 1 then s.node.pins.getLsbD (pinEvin 1) && !bit (s.scalar 0x3300 2) 1
  else false

/-- The edge count of a pin source, by position in PIN_EDGES (R373). -/
def pinEdgeIndex (src : Nat) : Option Nat :=
  if src = srcThermTrip then some 0 else if src = srcForceHold then some 1
  else if src = srcEvin 0 then some 2 else if src = srcEvin 1 then some 3 else none

/-- A pending bit is cleared: its source waits no more and its edge count returns to 0. -/
def State.clearPend (s : State) (src : Nat) : State :=
  let s := s.setPend src false
  let s := { s with ev := { s.ev with waiting := s.ev.waiting.erase src } }
  match pinEdgeIndex src with
  | some i => { s with ev := { s.ev with edges := s.ev.edges.set i 0 } }
  | none => s

/-- A software clear (R369): a level cause still present sets pending again. -/
def State.ackSource (s : State) (src : Nat) : State :=
  let s := s.clearPend src
  let s := if src = srcEvin 0 then { s with ev := { s.ev with clearedAt := (0, s.now) :: dropWhere (·.1 == 0) s.ev.clearedAt } }
    else if src = srcEvin 1 then { s with ev := { s.ev with clearedAt := (1, s.now) :: dropWhere (·.1 == 1) s.ev.clearedAt } }
    else s
  if s.levelActive src then s.raise src else s

/-- EV_WAITING (R371). -/
def State.evWaiting (s : State) : Nat :=
  (s.ev.waiting.filter fun src => s.pendOf src && !s.maskOf src).length

/-! ### Bank causes (R449) -/

def State.causeSet (s : State) (i : Nat) : Bool := s.node.causes.getLsbD i

def State.setCause (s : State) (i : Nat) (b : Bool) : State :=
  { s with node := { s.node with causes := putBit s.node.causes i b } }

/-- Is the node banked, or on its way there (R449)? -/
def State.banking (s : State) : Bool := s.node.causes != 0

/-- Does the core run requests? -/
def State.coreRuns (s : State) : Bool := s.node.powered && !s.node.coreHeld

end Sys2Proof.Machine
end

