-- ==== Sys2Proof/Machine/Buckets.lean ====
section
/-! DEFINITION. Sys2Proof/Machine/Buckets.lean: tenants and compositions by number, their token buckets, and what is charged to them
(R314, R316, R317, R325). -/

namespace Sys2Proof.Machine

open Sys2Proof

/-! ### Tenants and compositions -/

def State.tenantObj (s : State) (t sub : Nat) : Nat := s.scalar (0x4000 + t) sub

def State.comp (s : State) (slot : Nat) : Option Comp := s.comps.find? (·.slot == slot)
def State.modComp (s : State) (slot : Nat) (f : Comp → Comp) : State := { s with comps := modWhere (·.slot == slot) f s.comps }
def State.compById (s : State) (id : Nat) : Option Comp := s.comps.find? (·.id == id)

def State.tenant (s : State) (t : Nat) : Option Tenant := s.tenants.find? (·.id == t)
def State.modTenant (s : State) (t : Nat) (f : Tenant → Tenant) : State := { s with tenants := modWhere (·.id == t) f s.tenants }

def State.tenantActive (s : State) (t : Nat) : Bool :=
  match s.tenant t with
  | some x => x.state == .active
  | none => false

/-- The key of a tenant (R311). -/
def State.keyOf (s : State) (t : Nat) : BitVec 512 := Config.tenantKey t (((s.tenant t).map (·.key)).getD 0)

/-! ### Buckets (R316, R317) -/

/-- 10^9: buckets count in 10^-9 units. -/
def nano : Nat := 1000000000

def State.cir (s : State) (t r : Nat) : Nat := s.tenantObj t (0x20 + 4 * r)
def State.cbs (s : State) (t r : Nat) : Nat := s.tenantObj t (0x21 + 4 * r)
def State.pir (s : State) (t r : Nat) : Nat := s.tenantObj t (0x22 + 4 * r)
def State.pbs (s : State) (t r : Nat) : Nat := s.tenantObj t (0x23 + 4 * r)

def Tenant.bucket (x : Tenant) (r : Nat) : Bucket := x.buckets.getD r {}

/-- The part of an I/O die's fabric rate that its die-to-die link lets through: 1.2 TB/s at the slower die's pace, for 200 GB/s of each port
and, on I/O die 0, the 128 GB/s of the CXL port (R21; both share alike: DEDUCED, log 86). -/
def State.linkShare (s : State) (die : Nat) : Rat :=
  let load : Rat := 200 * (s.variant.ports : Rat) / max 1 (s.variant.ioDies : Rat) + (if die = 0 then 128 else 0)
  let pace := fun i => max 0 (f32Rat (s.flt.pace.getD i 0))
  min 1 (1200 * min (pace 0) (pace (1 + die)) / load)

/-- The part of the nominal rate of a resource that is delivered (R21, R317). -/
def State.delivered (s : State) (r : Nat) : Rat :=
  if r = 0 then ((List.range s.variant.ioDies).map s.linkShare).foldl (· + ·) 0 / max 1 (s.variant.ioDies : Rat) else 1

/-- A bucket filled up to the present; where less than the nominal rate is delivered, the committed rate shrinks with it (R317). -/
def State.filled (s : State) (t r : Nat) (b : Bucket) : Bucket :=
  let dt := s.now - b.atTime
  { committed := b.committed - ((s.cir t r * dt : Nat) * s.delivered r).floor.toNat, peak := b.peak - s.pir t r * dt, atTime := s.now }

/-- Fill a tenant's buckets of a resource. -/
def State.refill (s : State) (t r : Nat) : State :=
  s.modTenant t fun x => { x with buckets := x.buckets.set r (s.filled t r (x.bucket r)) }

def State.bucketOf (s : State) (t r : Nat) : Bucket :=
  match s.tenant t with
  | some x => s.filled t r (x.bucket r)
  | none => {}

/-- The committed bucket is at least 0. -/
def State.committedOk (s : State) (t r : Nat) : Bool := decide ((s.bucketOf t r).committed ≤ s.cbs t r * nano)

/-- The peak bucket is at least 0, or there is no peak limit. -/
def State.peakOk (s : State) (t r : Nat) : Bool :=
  s.pir t r == 2 ^ 64 - 1 || decide ((s.bucketOf t r).peak ≤ s.pbs t r * nano)

/-- The meter that resource `r` advances (R325). -/
def Meters.add (m : Meters) (r n : Nat) : Meters :=
  match r with
  | 0 => { m with egress := m.egress + n }
  | 1 => { m with coreNs := m.coreNs + n }
  | 2 => { m with nbNs := m.nbNs + n }
  | _ => { m with ltBytes := m.ltBytes + n }

/-- Charge a measured amount of resource `r` to a tenant's buckets and a composition's meters. -/
def State.charge (s : State) (t slot r n : Nat) : State :=
  let s := (s.refill t r).modTenant t fun x =>
    let b := x.bucket r
    { x with buckets := x.buckets.set r { b with committed := b.committed + n * nano, peak := b.peak + n * nano } }
  s.modComp slot fun c => { c with meters := c.meters.add r n }

end Sys2Proof.Machine
end

