-- ==== Sys2Proof/Machine/Flows.lean ====
section
/-! DEFINITION. Sys2Proof/Machine/Flows.lean: the queues of a scheduler point and the choice of the next piece (R315, R316), and the
controllers of the lower tier (R314). -/

namespace Sys2Proof.Machine

open Sys2Proof

/-! ### Flows (R315) -/

def State.weight (s : State) (t : Nat) (loan : Bool) : Nat := max 1 (s.tenantObj t (if loan then 0x31 else 0x30))

def Job.flow (j : Job) (t : Nat) (loan : Bool) : Bool := j.tenant == t && j.loan == loan

def State.flow (s : State) (p : Point) (t : Nat) (loan : Bool) : Option Flow :=
  s.eng.flows.find? fun f => f.point == p && f.tenant == t && f.loan == loan

def State.finishTag (s : State) (p : Point) (t : Nat) (loan : Bool) : Rat :=
  match s.flow p t loan with
  | some f => f.finish
  | none => 0

def State.setFinish (s : State) (p : Point) (t : Nat) (loan : Bool) (x : Rat) : State :=
  let rest := dropWhere (fun f => f.point == p && f.tenant == t && f.loan == loan) s.eng.flows
  { s with eng := { s.eng with flows := ⟨p, t, loan, x⟩ :: rest } }

/-- The heads of the flows of a queue, in arrival order; node work is in no flow (R314). -/
def flowHeads : List Job → List Job → List Job
  | [], acc => acc.reverse
  | j :: js, acc => flowHeads js (if j.node || acc.any fun x => x.flow j.tenant j.loan then acc else j :: acc)

/-- Virtual time: the smallest start tag among flows that hold work; none when no flow does. -/
def virtualTime (q : List Job) : Option Rat :=
  match flowHeads q [] with
  | [] => none
  | x :: xs => some (xs.foldl (fun a j => min a j.start) x.start)

/-- V of a point that holds no work: as it last stood (R315; DEDUCED, log 78). -/
def State.lastV (s : State) (p : Point) : Rat := (s.eng.virt.lookup p).getD 0

def State.setV (s : State) (p : Point) (v : Rat) : State :=
  { s with eng := { s.eng with virt := (p, v) :: dropWhere (·.1 == p) s.eng.virt } }

/-- Set the tags of a piece that reaches the head of its flow. -/
def State.tag (s : State) (p : Point) (j : Job) (start : Rat) : Job × State :=
  ({ j with start := start }, s.setFinish p j.tenant j.loan (start + (j.planned : Rat) / (s.weight j.tenant j.loan : Rat)))

/-- Put a piece behind those of its flow whose AGE is no less (R257). -/
def byAge (j : Job) : List Job → List Job
  | [] => [j]
  | x :: xs => if x.flow j.tenant j.loan && !x.node && decide (x.age < j.age) then j :: x :: xs else x :: byAge j xs

/-- Add a piece to a point's queue (R315). One of a greater AGE than its flow's head takes the head's place and start tag (DEDUCED, log 78). -/
def State.enqueue (s : State) (p : Point) (q : List Job) (j : Job) : List Job × State :=
  let j := { j with since := s.now }
  if j.node then (q ++ [j], s)
  else match (flowHeads q []).find? (·.flow j.tenant j.loan) with
    | some x =>
      if x.age < j.age then let (j, s) := s.tag p j x.start; (byAge j q, s)
      else (byAge j q, s)
    | none =>
      let f := s.finishTag p j.tenant j.loan
      let start := max f ((virtualTime q).getD (s.lastV p))
      let (j, s) := s.tag p j start
      (q ++ [j], s)

/-- Tag the first piece of a flow, which has become its head. -/
def State.tagHead (s : State) (p : Point) (t : Nat) (loan : Bool) : List Job → List Job × State
  | [] => ([], s)
  | j :: js =>
    if j.flow t loan && !j.node then let (j, s) := s.tag p j (s.finishTag p t loan); (j :: js, s)
    else let (js, s) := s.tagHead p t loan js; (j :: js, s)

/-- Take a piece that a point serves out of its queue; the next of its flow becomes the head. -/
def State.takeHead (s : State) (p : Point) (j : Job) (q : List Job) : List Job × State :=
  (s.setV p ((virtualTime q).getD (s.lastV p))).tagHead p j.tenant j.loan (q.erase j)

/-! ### The choice of the next piece (R316) -/

/-- The order of the choice: start tag, then tenant, then class. -/
def servedBefore (a b : Job) : Bool :=
  decide (a.start < b.start) || (decide (a.start = b.start) &&
    (decide (a.tenant < b.tenant) || (a.tenant == b.tenant && !a.loan && b.loan)))

def bestJob : List Job → Option Job
  | [] => none
  | x :: xs => some (xs.foldl (fun a j => if servedBefore j a then j else a) x)

/-- The piece that a point serves next (R316); node work, which no scheduler orders, first (DESIGN CHOICE, log 78). `may`: what
else a piece must meet. -/
def State.chooseJob (s : State) (r : Nat) (may : Job → Bool) (q : List Job) : Option Job :=
  if let some j := q.find? (·.node) then some j
  else
    let elig := (flowHeads q []).filter fun j => s.peakOk j.tenant r && may j
    match bestJob (elig.filter fun j => s.committedOk j.tenant r) with
    | some j => some j
    | none => bestJob elig

/-- The job of a request, with nothing to do yet. -/
def Req.job (q : Req) : Job := { req := q.id, parts := [], tenant := q.tenant, comp := q.comp, loan := q.loan, age := q.age }

/-! ### Lower-tier controllers (R314-R316, R319) -/

/-- Whose request moves bytes: its tenant, and its composition, whose meters count them (R314, R325). -/
structure Payer where
  tenant : Nat
  comp : Nat
  deriving DecidableEq, Repr

def Req.payer (q : Req) : Payer := ⟨q.tenant, q.comp⟩

/-- Package of a place in the lower tier, whose controller moves its bytes. -/
def Place.package : Place → Option Nat
  | .lower k => some k
  | _ => none

/-- A controller has moved bytes. -/
def State.notePins (s : State) (p bytes : Nat) : State :=
  { s with eng := { s.eng with pins := assocPut s.eng.pins p (assocGet s.eng.pins p 0 + bytes) 0 } }

/-- ns in which a package moves some image bytes, at 68.3 GB/s (R180). -/
def pinNs (bytes : Nat) : Nat := ceilDiv (bytes * 10) 683

def State.ltCtl (s : State) (p : Nat) : LtCtl := (s.eng.lower.find? (·.p == p)).getD { p := p }

def State.setLt (s : State) (c : LtCtl) : State := { s with eng := { s.eng with lower := c :: dropWhere (·.p == c.p) s.eng.lower } }

/-- A piece that satisfies `f` waits for a controller, or is being served. -/
def State.atLower (s : State) (f : Job → Bool) : Bool := s.eng.lower.any fun c => c.queue.any f || c.serving.any f

/-- Put pieces of some bytes into the queues of their controllers. -/
def State.enterLower (s : State) (j : Job) (ps : List (Nat × Nat)) : State :=
  ps.foldl (fun s p =>
    let c := s.ltCtl p.1
    let (q, s) := s.enqueue (.lower p.1) c.queue { j with planned := p.2 }
    s.setLt { c with queue := q }) s

/-- What a piece is for is gone. -/
def State.ltStale (s : State) (j : Job) : Bool :=
  match j.item with
  | .request => !s.reqs.any fun q => q.id == j.req && (match q.phase with | .ended _ _ => false | _ => true)
  | .frame n => !s.mem.frames.any fun f => f.num == n && f.mig.any fun m => m.req == some j.req
  | .core c t => !s.eng.cores.any fun x => x.n == c && x.piece.any fun y => y.began == t

/-- Take a piece out of a controller's queue unserved. -/
def State.ltDrop (s : State) (p : Nat) (j : Job) : State :=
  let c := s.ltCtl p
  let head := (flowHeads c.queue []).contains j
  let (q, s) := if head then s.takeHead (.lower p) j c.queue else (c.queue.erase j, s)
  s.setLt { c with queue := q }

/-- A controller whose piece has been moved serves the next (R316). -/
def State.ltServe (s : State) (p : Nat) : State :=
  let s := ((s.ltCtl p).queue.filter s.ltStale).foldl (fun s j => s.ltDrop p j) s
  let c := s.ltCtl p
  if c.serving.any fun j => decide (s.now < j.began + pinNs j.planned) && !s.ltStale j then s
  else match s.chooseJob 3 (fun _ => true) c.queue with
    | none => s.setLt { c with serving := none }
    | some j =>
      let (q, s) := s.takeHead (.lower p) j c.queue
      s.setLt { c with queue := q, serving := some { j with began := s.now } }

/-- Every controller that holds work goes on. -/
def State.ltPump (s : State) : State := (s.eng.lower.map (·.p)).foldl State.ltServe s

/-- The piece of a frame that a TIER_MOVE moves (R200). -/
def State.framePiece (s : State) (r n : Nat) : Option Job := (s.reqs.find? (·.id == r)).map fun q => { q.job with item := .frame n }

/-- A migration of a TIER_MOVE waits for its controller; that of the node does not (R200, R314). -/
def State.enterMove (s : State) (req : Option Nat) (n p bytes : Nat) : State :=
  match req.bind fun r => s.framePiece r n with
  | some j => s.enterLower j [(p, bytes)]
  | none => s

/-- Bytes that each controller has moved between two states. -/
def State.movedPins (s s1 : State) : List (Nat × Nat) :=
  (s1.eng.pins.map fun x => (x.1, x.2 - assocGet s.eng.pins x.1 0)).filter fun x => x.2 != 0

/-- A request may move bytes of the lower tier: its pieces have been served, or no frame lies there (DESIGN CHOICE, log 86). -/
def State.gateOpen (s : State) (q : Req) : Bool :=
  !(s.mem.frames.any fun f => match f.place with | .lower _ => true | _ => false) ||
  (q.lower && !s.atLower fun j => j.item == .request && j.req == q.id)

/-- A row of a request: where it moves bytes of the lower tier, its pieces wait for their controllers first, one for each, and the row runs
once they have been served (R314, R316; DESIGN CHOICE, log 86). -/
def State.gated (s : State) (q : Req) (go : State → State) : State :=
  if s.gateOpen q then go s
  else if q.lower then s
  else
    let s1 := go s
    match s.movedPins s1 with
    | [] => s1
    | ps => { s with reqs := modWhere (·.id == q.id) (fun q => { q with lower := true }) s.reqs }.enterLower q.job ps

end Sys2Proof.Machine
end

