-- ==== Sys2Proof/Machine/Crypto.lean ====
section
/-! DEFINITION. Sys2Proof/Machine/Crypto.lean: the published algorithms that the spec names: SHA-384 (R386, R412, R415), HMAC and HKDF over it
(R387), ECDSA and ECDH over brainpoolP384r1 (R386, R390, R414), and AES-256-XTS (R191, R310, R331). Their constants are those of FIPS 180-4,
RFC 2104, RFC 5869, RFC 5639, FIPS 197 and IEEE 1619 (PRESUMED, log 14). -/

namespace Sys2Proof.Machine

open Sys2Proof

/-! ### SHA-384 -/

def shaRounds : List (BitVec 64) :=
  [0x428a2f98d728ae22, 0x7137449123ef65cd, 0xb5c0fbcfec4d3b2f, 0xe9b5dba58189dbbc,
   0x3956c25bf348b538, 0x59f111f1b605d019, 0x923f82a4af194f9b, 0xab1c5ed5da6d8118,
   0xd807aa98a3030242, 0x12835b0145706fbe, 0x243185be4ee4b28c, 0x550c7dc3d5ffb4e2,
   0x72be5d74f27b896f, 0x80deb1fe3b1696b1, 0x9bdc06a725c71235, 0xc19bf174cf692694] ++
  [0xe49b69c19ef14ad2, 0xefbe4786384f25e3, 0x0fc19dc68b8cd5b5, 0x240ca1cc77ac9c65,
   0x2de92c6f592b0275, 0x4a7484aa6ea6e483, 0x5cb0a9dcbd41fbd4, 0x76f988da831153b5,
   0x983e5152ee66dfab, 0xa831c66d2db43210, 0xb00327c898fb213f, 0xbf597fc7beef0ee4,
   0xc6e00bf33da88fc2, 0xd5a79147930aa725, 0x06ca6351e003826f, 0x142929670a0e6e70] ++
  [0x27b70a8546d22ffc, 0x2e1b21385c26c926, 0x4d2c6dfc5ac42aed, 0x53380d139d95b3df,
   0x650a73548baf63de, 0x766a0abb3c77b2a8, 0x81c2c92e47edaee6, 0x92722c851482353b,
   0xa2bfe8a14cf10364, 0xa81a664bbc423001, 0xc24b8b70d0f89791, 0xc76c51a30654be30,
   0xd192e819d6ef5218, 0xd69906245565a910, 0xf40e35855771202a, 0x106aa07032bbd1b8] ++
  [0x19a4c116b8d2d0c8, 0x1e376c085141ab53, 0x2748774cdf8eeb99, 0x34b0bcb5e19b48a8,
   0x391c0cb3c5c95a63, 0x4ed8aa4ae3418acb, 0x5b9cca4f7763e373, 0x682e6ff3d6b2b8a3,
   0x748f82ee5defb2fc, 0x78a5636f43172f60, 0x84c87814a1f0ab72, 0x8cc702081a6439ec,
   0x90befffa23631e28, 0xa4506cebde82bde9, 0xbef9a3f7b2c67915, 0xc67178f2e372532b] ++
  [0xca273eceea26619c, 0xd186b8c721c0c207, 0xeada7dd6cde0eb1e, 0xf57d4f7fee6ed178,
   0x06f067aa72176fba, 0x0a637dc5a2c898a6, 0x113f9804bef90dae, 0x1b710b35131c471b,
   0x28db77f523047d84, 0x32caab7b40c72493, 0x3c9ebe0a15c9bebc, 0x431d67c49c100d4c,
   0x4cc5d4becb3e42b6, 0x597f299cfc657e2a, 0x5fcb6fab3ad6faec, 0x6c44198c4a475817]

def shaStart : List (BitVec 64) :=
  [0xcbbb9d5dc1059ed8, 0x629a292a367cd507, 0x9159015a3070dd17, 0x152fecd8f70e5939,
   0x67332667ffc00b31, 0x8eb44a8768581511, 0xdb0c2e0d64f98fa7, 0x47b5481dbefa4fa4]

/-- The message with its padding: a 1 bit, zeros, and the length in bits over 16 bytes. -/
def shaPad (bs : List Byte) : List Byte :=
  bs ++ 0x80 :: List.replicate ((239 - bs.length % 128) % 128) 0 ++ beBytes 16 (8 * bs.length)

/-- A list in pieces of `k` elements. -/
def pieces {α : Type} (k : Nat) : Nat → List α → List (List α)
  | 0, _ => []
  | n + 1, xs => if xs.isEmpty then [] else xs.take k :: pieces k n (xs.drop k)

/-- The message schedule, newest word first. -/
def shaSchedule : Nat → List (BitVec 64) → List (BitVec 64)
  | 0, ws => ws
  | n + 1, ws =>
    let w := fun i => ws.getD i 0
    let s0 := (w 14).rotateRight 1 ^^^ (w 14).rotateRight 8 ^^^ (w 14) >>> 7
    let s1 := (w 1).rotateRight 19 ^^^ (w 1).rotateRight 61 ^^^ (w 1) >>> 6
    shaSchedule n ((s1 + w 6 + s0 + w 15) :: ws)

/-- One round on the eight working words. -/
def shaRound (h : List (BitVec 64)) (kw : BitVec 64 × BitVec 64) : List (BitVec 64) :=
  match h with
  | [a, b, c, d, e, f, g, h] =>
    let t1 := h + (e.rotateRight 14 ^^^ e.rotateRight 18 ^^^ e.rotateRight 41) + ((e &&& f) ^^^ (~~~e &&& g)) + kw.1 + kw.2
    let t2 := (a.rotateRight 28 ^^^ a.rotateRight 34 ^^^ a.rotateRight 39) + ((a &&& b) ^^^ (a &&& c) ^^^ (b &&& c))
    [t1 + t2, a, b, c, d + t1, e, f, g]
  | h => h

def shaBlock (h : List (BitVec 64)) (block : List Byte) : List (BitVec 64) :=
  let ws := (pieces 8 16 block).map fun b => BitVec.ofNat 64 (beVal b)
  List.zipWith (· + ·) h ((shaRounds.zip (shaSchedule 64 ws.reverse).reverse).foldl shaRound h)

@[irreducible] def sha384 (bs : List Byte) : BitVec 384 :=
  let m := shaPad bs
  let h := (pieces 128 m.length m).foldl shaBlock shaStart
  BitVec.ofNat 384 (beVal ((h.take 6).flatMap fun w => beBytes 8 w.toNat))

def sha384Bytes (bs : List Byte) : List Byte := beBytes 48 (sha384 bs).toNat

/-! ### HMAC and HKDF -/

def hmac384 (key msg : List Byte) : List Byte :=
  let k := if 128 < key.length then sha384Bytes key else key
  let k := k ++ List.replicate (128 - k.length) 0
  sha384Bytes (k.map (· ^^^ 0x5C) ++ sha384Bytes (k.map (· ^^^ 0x36) ++ msg))

/-- HKDF with 96 bytes of output. -/
@[irreducible] def hkdf96 (salt input info : List Byte) : List Byte :=
  let prk := hmac384 salt input
  let t := hmac384 prk (info ++ [1])
  t ++ hmac384 prk (t ++ info ++ [2])

/-! ### brainpoolP384r1 -/

def curveP : Nat := 0x8cb91e82a3386d280f5d6f7e50e641df152f7109ed5456b412b1da197fb71123acd3a729901d1a71874700133107ec53
def curveA : Nat := 0x7bc382c63d8c150c3c72080ace05afa0c2bea28e4fb22787139165efba91f90f8aa5814a503ad4eb04a8c7dd22ce2826
def curveB : Nat := 0x04a8c7dd22ce28268b39b55416f0447c2fb77de107dcd2a62e880ea53eeb62d57cb4390295dbc9943ab78696fa504c11
def curveX : Nat := 0x1d1c64f068cf45ffa2a63a81b7c13f6b8847a3e77ef14fe3db7fcafe0cbd10e8e826e03436d646aaef87b2e247d4af1e
def curveY : Nat := 0x8abe1d7520f9c2a45cb1eb8e95cfd55262b70b29feec5864e19c054ff99129280e4646217791811142820341263c5315
def curveQ : Nat := 0x8cb91e82a3386d280f5d6f7e50e641df152f7109ed5456b31f166e6cac0425a7cf3ab6af6b7fc3103b883202e9046565

/-- A point by its coordinates; `none` is the point at infinity. -/
abbrev CurvePoint := Option (Nat × Nat)

/-- `x ^ (e + 2^k * …)` modulo `m`, over `n` bits of `e` from the lowest. -/
def powMod (m : Nat) : Nat → Nat → Nat → Nat
  | 0, _, _ => 1
  | n + 1, x, e => (if e % 2 = 1 then x else 1) * powMod m n (x * x % m) (e / 2) % m

/-- The inverse modulo a prime below 2^384. -/
def invMod (m x : Nat) : Nat := powMod m 384 (x % m) (m - 2)

def subMod (m x y : Nat) : Nat := (x % m + (m - y % m)) % m

/-- The third point of a line of slope `l` through two points, mirrored. -/
def CurvePoint.chord (l : Nat) (x1 y1 x2 : Nat) : CurvePoint :=
  let x := subMod curveP (l * l) (x1 + x2)
  some (x, subMod curveP (l * subMod curveP x1 x) y1)

def CurvePoint.add : CurvePoint → CurvePoint → CurvePoint
  | none, q => q
  | p, none => p
  | some (x1, y1), some (x2, y2) =>
    if x1 ≠ x2 then CurvePoint.chord (subMod curveP y2 y1 * invMod curveP (subMod curveP x2 x1) % curveP) x1 y1 x2
    else if (y1 + y2) % curveP = 0 then none
    else CurvePoint.chord ((3 * x1 * x1 + curveA) * invMod curveP (2 * y1) % curveP) x1 y1 x2

/-- `k` times a point, over `n` bits of `k` from the lowest. -/
def CurvePoint.mulBits : Nat → Nat → CurvePoint → CurvePoint
  | 0, _, _ => none
  | n + 1, k, p => (if k % 2 = 1 then p else none).add (mulBits n (k / 2) (p.add p))

@[irreducible] def CurvePoint.mul (k : Nat) (p : CurvePoint) : CurvePoint := CurvePoint.mulBits 384 k p

def curveG : CurvePoint := some (curveX, curveY)

/-- The 97 bytes of a point, uncompressed (R386), and the point that 97 bytes spell. -/
def CurvePoint.bytes (p : CurvePoint) : List Byte := 4 :: (beBytes 48 (p.getD (0, 0)).1 ++ beBytes 48 (p.getD (0, 0)).2)
def pointOf (bs : List Byte) : Nat × Nat := (beVal ((bs.drop 1).take 48), beVal ((bs.drop 49).take 48))

/-- The bytes are a point of the curve (R390). -/
def onCurve (bs : List Byte) : Bool :=
  let (x, y) := pointOf bs
  bs.length == 97 && bs.head? == some 4 && decide (x < curveP) && decide (y < curveP) &&
  y * y % curveP == (x * x * x + curveA * x + curveB) % curveP

/-- A private key from free bits. -/
def privateKey (n : Nat) : Nat := n % (curveQ - 1) + 1

/-- ECDSA verification: public key of 97 bytes, message, signature `r ‖ s` of 96 bytes. -/
@[irreducible] def ecdsaVerify (key msg sig : List Byte) : Bool :=
  let r := beVal (sig.take 48)
  let s := beVal (sig.drop 48)
  let w := invMod curveQ s
  let u := ((curveG.mul ((sha384 msg).toNat * w % curveQ)).add (CurvePoint.mul (r * w % curveQ) (some (pointOf key))))
  onCurve key && sig.length == 96 && r != 0 && decide (r < curveQ) && s != 0 && decide (s < curveQ) && u.any fun p => p.1 % curveQ == r

/-- ECDSA signature of a message by private key `d` with nonce `k`. -/
def ecdsaSign (d k : Nat) (msg : List Byte) : List Byte :=
  let r := ((curveG.mul k).map (·.1 % curveQ)).getD 0
  beBytes 48 r ++ beBytes 48 (invMod curveQ k * ((sha384 msg).toNat + r * d) % curveQ)

/-- The signature of the device identity key, which IDENTITY_SEED fixes (R414); the nonce is free (log 14). -/
@[irreducible] def deviceSign (msg : List Byte) : List Byte := ecdsaSign (privateKey Config.identityKey.toNat) (privateKey (Config.signNonce msg).toNat) msg

/-- Z: the x-coordinate of the ECDH product (R387). -/
@[irreducible] def ecdh (d : Nat) (peer : List Byte) : List Byte := beBytes 48 (((CurvePoint.mul d (some (pointOf peer))).map (·.1)).getD 0)

/-- TAG of a frame under a session's 96 bytes of keys: the first 48 from manager to node, the others from node to manager (R387). -/
@[irreducible] def vopTag (keys : List Byte) (toNode : Bool) (bs : List Byte) : BitVec 128 :=
  BitVec.ofNat 128 (beVal ((hmac384 (if toNode then keys.take 48 else keys.drop 48) bs).take 16))

/-! ### AES-256-XTS -/

/-- Doubling and multiplication of GF(2^8). -/
def gfTwice (b : Byte) : Byte := b <<< 1 ^^^ (if b.getLsbD 7 then 0x1B else 0)
def gfMul : Nat → Byte → Byte → Byte
  | 0, _, _ => 0
  | n + 1, a, b => (if b.getLsbD 0 then a else 0) ^^^ gfMul n (gfTwice a) (b >>> 1)

/-- The inverse, as the 254th power. -/
def gfInv (b : Byte) : Byte :=
  let sq := fun x : Byte => gfMul 8 x x
  let b2 := sq b
  let b4 := sq b2
  let b8 := sq b4
  let b16 := sq b8
  let b32 := sq b16
  let b64 := sq b32
  [b4, b8, b16, b32, b64, sq b64].foldl (gfMul 8) b2

def aesSub (b : Byte) : Byte :=
  let x := gfInv b
  x ^^^ x.rotateLeft 1 ^^^ x.rotateLeft 2 ^^^ x.rotateLeft 3 ^^^ x.rotateLeft 4 ^^^ 0x63

def xorBytes (a b : List Byte) : List Byte := List.zipWith (· ^^^ ·) a b

/-- The key schedule of 60 words, newest first; `i` counts the words there are. -/
def aesSchedule : Nat → Nat → Byte → List (List Byte) → List (List Byte)
  | 0, _, _, ws => ws
  | n + 1, i, rcon, ws =>
    let last := ws.getD 0 []
    let t := if i % 8 = 0 then xorBytes ((last.drop 1 ++ last.take 1).map aesSub) [rcon, 0, 0, 0]
             else if i % 8 = 4 then last.map aesSub else last
    aesSchedule n (i + 1) (if i % 8 = 0 then gfTwice rcon else rcon) (xorBytes (ws.getD 7 []) t :: ws)

/-- The 15 round keys of a 32-byte key. -/
def aesKeys (key : List Byte) : List (List Byte) := pieces 16 15 (aesSchedule 52 8 1 (pieces 4 8 key).reverse).reverse.flatten

def aesShift (b : List Byte) : List Byte := (List.range 16).map fun i => b.getD ((i + 4 * (i % 4)) % 16) 0

def aesMix (b : List Byte) : List Byte :=
  (List.range 16).map fun i =>
    let byte := fun k => b.getD (4 * (i / 4) + (i + k) % 4) 0
    gfTwice (byte 0) ^^^ gfTwice (byte 1) ^^^ byte 1 ^^^ byte 2 ^^^ byte 3

/-- One 16-byte block under the round keys. -/
def aesBlock (keys : List (List Byte)) (b : List Byte) : List Byte :=
  let k := fun i => keys.getD i []
  let b := (List.range 13).foldl (fun b i => xorBytes (aesMix (aesShift (b.map aesSub))) (k (i + 1))) (xorBytes b (k 0))
  xorBytes (aesShift (b.map aesSub)) (k 14)

/-- The tweaks of consecutive blocks. -/
def xtsNext (t : Nat) : Nat := (2 * t % 2 ^ 128) ^^^ (if t < 2 ^ 127 then 0 else 0x87)

/-- One 64-byte data unit, as little-endian values: the data key is in bytes 0 to 31 of the key, the tweak key in bytes 32 to 63 (R331). -/
@[irreducible] def xts (key : BitVec 512) (tweak : BitVec 128) (unit : BitVec 512) : BitVec 512 :=
  let key := leBytes 64 key.toNat
  let keys := aesKeys (key.take 32)
  let t0 := leVal (aesBlock (aesKeys (key.drop 32)) (leBytes 16 tweak.toNat))
  let go := fun (a : Nat × List Byte) b =>
    let t := leBytes 16 a.1
    (xtsNext a.1, a.2 ++ xorBytes (aesBlock keys (xorBytes b t)) t)
  BitVec.ofNat 512 (leVal ((pieces 16 4 (leBytes 64 unit.toNat)).foldl go (t0, [])).2)

end Sys2Proof.Machine
end

