-- ==== Sys2Proof/Machine/Image.lean ====
section
/-! DEFINITION. Sys2Proof/Machine/Image.lean: the image format of chapter 07 (R189-R195): group and unit coding, the
directory and the header; and CRC-32C. -/

namespace Sys2Proof.Machine

open Sys2Proof

/-! ### Reflected CRCs, initial value and final XOR all ones -/

def crcBit (poly : BitVec 32) : Nat → BitVec 32 → BitVec 32
  | 0, c => c
  | n + 1, c => crcBit poly n (if c.getLsbD 0 then (c >>> 1) ^^^ poly else c >>> 1)

def crcWith (poly : BitVec 32) (bs : List Byte) : BitVec 32 :=
  bs.foldl (fun c b => crcBit poly 8 (c ^^^ b.setWidth 32)) 0xFFFFFFFF ^^^ 0xFFFFFFFF

/-- CRC-32C, Castagnoli (R189). -/
def crc32c (bs : List Byte) : BitVec 32 := crcWith 0x82F63B78 bs

/-- The CRC of IEEE 802.3 (R233; PRESUMED, log 85: its polynomial is not in the spec). -/
def crc32 (bs : List Byte) : BitVec 32 := crcWith 0xEDB88320 bs

/-! ### Groups (R193) -/

/-- Fields of `k` bits packed little-endian: 64 fields give 8k bytes. -/
def packFields (k : Nat) (fs : List Nat) : List Byte :=
  leBytes (8 * k) (fs.foldr (fun f acc => f + 2 ^ k * acc) 0)

def unpackFields (k : Nat) (bs : List Byte) : List Nat :=
  let w := leVal (bs.take (8 * k))
  (List.range 64).map fun i => w / 2 ^ (k * i) % 2 ^ k

/-- The spread of a group's bytes above a base, modulo 256. -/
def spreadFrom (base : Nat) (g : List Byte) : Nat := g.foldl (fun a b => max a ((b.toNat + 256 - base) % 256)) 0

/-- The base that gives the smallest spread, the lowest byte value among equals (DESIGN CHOICE, log 89). -/
def bestBase (g : List Byte) : Nat × Nat :=
  g.foldl (fun a b => let sp := spreadFrom b.toNat g; if sp < a.2 ∨ (sp = a.2 ∧ b.toNat < a.1) then (b.toNat, sp) else a) (0, 256)

/-- The distinct bytes of a group, in order of first use (DESIGN CHOICE, log 89). -/
def distinctBytes (g : List Byte) : List Byte := (g.foldl (fun a b => if b ∈ a then a else b :: a) []).reverse

/-- Code one group of 64 bytes in the shortest mode; ties go to the mode listed first (R195). -/
def encodeGroup (g : List Byte) : List Byte :=
  let (base, sp) := bestBase g
  if sp = 0 then [0x00, BitVec.ofNat 8 base]
  else
    let k := Nat.log2 sp + 1
    let dict := distinctBytes g
    let n := dict.length
    let kd := clog2 n
    let packLen := if k ≤ 7 then 2 + 8 * k else 1000
    let dictLen := if 2 ≤ n ∧ n ≤ 16 then 1 + n + 8 * kd else 1000
    if packLen ≤ dictLen ∧ packLen ≤ 65 then
      BitVec.ofNat 8 (0x40 + k) :: BitVec.ofNat 8 base ::
        packFields k (g.map fun b => (b.toNat + 256 - base) % 256)
    else if dictLen ≤ 65 then
      BitVec.ofNat 8 (0x80 + (n - 1)) :: (dict ++ packFields kd (g.map fun b => dict.idxOf b))
    else 0xC0 :: g

/-- Decode one group: its 64 bytes and what follows it, or none on a decode error (R193). -/
def decodeGroup : List Byte → Option (List Byte × List Byte)
  | [] => none
  | h :: bs =>
    let hd := h.toNat
    if hd = 0 then
      match bs with
      | v :: rest => some (List.replicate 64 v, rest)
      | [] => none
    else if 0x41 ≤ hd ∧ hd ≤ 0x47 then
      let k := hd - 0x40
      match bs with
      | base :: rest =>
        if rest.length < 8 * k then none
        else some ((unpackFields k rest).map fun f => BitVec.ofNat 8 (base.toNat + f), rest.drop (8 * k))
      | [] => none
    else if 0x81 ≤ hd ∧ hd ≤ 0x8F then
      let n := hd - 0x80 + 1
      let k := clog2 n
      let rest := bs.drop n
      if rest.length < 8 * k then none
      else
        let fs := unpackFields k rest
        if fs.any fun f => decide (n ≤ f) then none
        else some (fs.map fun f => bs.getD f 0, rest.drop (8 * k))
    else if hd = 0xC0 then (if bs.length < 64 then none else some (bs.take 64, bs.drop 64))
    else none

/-- Decode `n` groups in order. -/
def decodeGroups : Nat → List Byte → Option (List Byte)
  | 0, _ => some []
  | n + 1, bs =>
    match decodeGroup bs with
    | none => none
    | some (g, rest) => (decodeGroups n rest).map (g ++ ·)

/-! ### Units (R192) -/

/-- Element width of a WCODE. -/
def wcodeBytes (wc : Nat) : Nat := 2 ^ wc

/-- Little-endian elements of width `w`. -/
def toElems (w : Nat) : Nat → List Byte → List Nat
  | 0, _ => []
  | n + 1, bs => leVal (bs.take w) :: toElems w n (bs.drop w)

/-- XOR each element with its predecessor. -/
def xorDiff : Nat → List Nat → List Nat
  | _, [] => []
  | p, x :: xs => (x ^^^ p) :: xorDiff x xs

/-- Undo `xorDiff`. -/
def xorSum : Nat → List Nat → List Nat
  | _, [] => []
  | p, x :: xs => (x ^^^ p) :: xorSum (x ^^^ p) xs

/-- The planes of a unit, plane 0 first. -/
def planes (w : Nat) (es : List Nat) : List Byte :=
  (List.range w).flatMap fun b => es.map fun e => BitVec.ofNat 8 (e / 256 ^ b)

/-- The coded stream of a unit for one WCODE and PRED. -/
def unitStream (wc pred : Nat) (u : List Byte) : List Byte :=
  let w := wcodeBytes wc
  let es := toElems w (4096 / w) u
  let es := if pred = 1 then xorDiff 0 es else es
  BitVec.ofNat 8 (64 * wc + 16 * pred) :: (chunks 64 64 (planes w es)).flatMap encodeGroup

/-- The shortest stream over every WCODE and PRED (R195); of equal ones the first of the order (0,0), (0,1), (1,0), (1,1), (2,0), (2,1) (DESIGN
CHOICE, log 89). -/
def bestStream (u : List Byte) : List Byte :=
  [(0, 1), (1, 0), (1, 1), (2, 0), (2, 1)].foldl
    (fun best p => let c := unitStream p.1 p.2 u; if c.length < best.length then c else best) (unitStream 0 0 u)

/-- ENC of a unit and its container (R190, R195): 0 no container, 1 coded, 2 raw. The padding is zeros (DESIGN CHOICE, log 89). -/
def encodeUnit (u : List Byte) : Nat × List Byte :=
  if u.all (· == 0) then (0, [])
  else
    let c := bestStream u
    let n := ceilDiv c.length 64
    if n ≥ 64 then (2, u) else (1, c ++ List.replicate (64 * n - c.length) 0)

/-- Sectors of a unit's container. -/
def unitSectors (u : List Byte) : Nat := (encodeUnit u).2.length / 64

/-- Decode a coded container (R192), or none on a decode error. -/
def decodeCoded : List Byte → Option (List Byte)
  | [] => none
  | h :: bs =>
    let wc := bits h.toNat 7 6
    let pred := bits h.toNat 5 4
    if wc = 3 ∨ pred ≥ 2 ∨ bits h.toNat 3 0 ≠ 0 then none
    else
      match decodeGroups 64 bs with
      | none => none
      | some ps =>
        let w := wcodeBytes wc
        let n := 4096 / w
        let es := (List.range n).map fun e => leVal ((List.range w).map fun b => ps.getD (b * n + e) 0)
        let es := if pred = 1 then xorSum 0 es else es
        some (es.flatMap (leBytes w))

/-- Decode a unit by its ENC (R190). -/
def decodeUnit (enc : Nat) (c : List Byte) : Option (List Byte) :=
  match enc with
  | 0 => some (List.replicate 4096 0)
  | 1 => decodeCoded c
  | 2 => some (c.take 4096)
  | _ => none

/-! ### Directory and header (R189, R190) -/

/-- Units of a frame of `size` bytes, and directory sectors. -/
def unitsOf (size : Nat) : Nat := size / 4096
def dirSectors (size : Nat) : Nat := ceilDiv (unitsOf size) 16

/-- The largest TOTAL that the header holds. -/
def maxTotal : Nat := 262143

/-- Directory entries of containers written in unit order, from sector `off` on. -/
def dirEntries : Nat → List (Nat × List Byte) → List Nat
  | _, [] => []
  | off, (enc, c) :: us =>
    let n := c.length / 64
    (if enc = 0 then 0 else enc * 2 ^ 30 + n * 2 ^ 23 + off) :: dirEntries (off + n) us

/-- Fields of a directory entry. -/
def dirEnc (e : Nat) : Nat := bits e 31 30
def dirLen (e : Nat) : Nat := bits e 29 23
def dirOffset (e : Nat) : Nat := bits e 17 0

/-- A directory entry that is no decode error (R190). -/
def dirOk (size total e : Nat) : Bool :=
  match dirEnc e with
  | 0 => dirLen e == 0 && dirOffset e == 0
  | 1 => decide (1 ≤ dirLen e) && decide (dirLen e ≤ 63) && decide (dirSectors size < dirOffset e) && decide (dirOffset e + dirLen e ≤ total)
  | 2 => dirLen e == 64 && decide (dirSectors size < dirOffset e) && decide (dirOffset e + 64 ≤ total)
  | _ => false

/-- Size code of a frame size. -/
def sizeCode (size : Nat) : Nat := Nat.log2 (size / 16384)

/-- The header of an image (R189). -/
def imageHeader (crc : BitVec 32) (total serial tenant : Nat) (seqFrame swap : Bool) (size : Nat) : Nat :=
  crc.toNat * 2 ^ 160 + total * 2 ^ 128 + serial * 2 ^ 80 + tenant * 2 ^ 64 + b2n seqFrame * 2 ^ 49 + b2n swap * 2 ^ 48 +
  sizeCode size * 2 ^ 40 + 0x01 * 2 ^ 32 + 0x464E494D

/-- What restore checks of a header it read back (R207): MAGIC, VERSION, TENANT, and the size code. -/
def headerOk (h tenant size : Nat) : Bool :=
  bits h 31 0 == 0x464E494D && bits h 39 32 == 1 && bits h 75 64 == tenant && bits h 43 40 == sizeCode size

/-- TOTAL of a compact image of a frame's contents. -/
def compactTotal (size : Nat) (unit : Nat → List Byte) : Nat :=
  1 + dirSectors size + sumOf (fun i => unitSectors (unit i)) (List.range (unitsOf size))

/-- Tweak of a container sector (R191). -/
def sectorTweak (x serial tenant : Nat) : BitVec 128 := BitVec.ofNat 128 (x + serial * 2 ^ 18 + tenant * 2 ^ 58)

/-- Container sectors from sector `x` on, as stored: each a data unit of its own (R191). -/
def sealSectors (key : BitVec 512) (tenant serial : Nat) : Nat → List (List Byte) → List Byte
  | _, [] => []
  | x, c :: cs =>
    leBytes 64 (xts key (sectorTweak x serial tenant) (BitVec.ofNat 512 (leVal c))).toNat ++ sealSectors key tenant serial (x + 1) cs

/-- Sectors 1 to TOTAL − 1 of a compact image: the directory in clear, its last sector filled with zeros, then the containers in unit order
under a key (R190, R191, R205, R331). -/
def imageBody (key : BitVec 512) (tenant serial size : Nat) (unit : Nat → List Byte) : List Byte :=
  let us := (List.range (unitsOf size)).map fun i => encodeUnit (unit i)
  let dir := (dirEntries (1 + dirSectors size) us).flatMap (leBytes 4)
  let cs := us.flatMap fun u => chunks 64 (u.2.length / 64) u.2
  dir ++ List.replicate (64 * dirSectors size - dir.length) 0 ++ sealSectors key tenant serial (1 + dirSectors size) cs

end Sys2Proof.Machine
end

