-- ==== Sys2Proof/Machine/Storage.lean ====
section
/-! DEFINITION. Sys2Proof/Machine/Storage.lean: frames and their places, the allocator (R82, R131, R185), table pages
(R88, R92), translation (R87-R91), quarantine (R95), and the bytes of frames. -/

namespace Sys2Proof.Machine

open Sys2Proof

/-- 16 KiB. -/
def granule : Nat := 16384

/-- Granules of one channel: 48 GiB over 128 channels. -/
def chanGranules : Nat := 24576

/-- 4 KiB chunks of one package. -/
def pkgChunks : Nat := 33554432

/-- 8 MiB. -/
def mib8 : Nat := 8388608

/-- 2^50, the end of a tenant's address space (R88). -/
def addrEnd : Nat := 2 ^ 50

/-- Tenant value of quarantined storage that no tenant is charged for. -/
def noTenant : Nat := 4096

/-- Composition slot of frames whose composition has been released (R324). -/
def noComp : Nat := 1024

/-! ### Objects of a tenant -/

def State.addrLimit (s : State) (t : Nat) : Nat := s.tenantObj t 4
def State.frameCommit (s : State) (t : Nat) : Nat := s.tenantObj t 6
def State.frameMax (s : State) (t : Nat) : Nat := s.tenantObj t 7

/-! ### Frames -/

def State.modMem (s : State) (f : Mem → Mem) : State := { s with mem := f s.mem }

def State.frame (s : State) (n : Nat) : Option Frame := s.mem.frames.find? (·.num == n)

def State.modFrame (s : State) (n : Nat) (f : Frame → Frame) : State :=
  s.modMem fun m => { m with frames := modWhere (·.num == n) f m.frames }

/-- Where a frame lies. -/
def State.placeOf (s : State) (n : Nat) : Place := ((s.frame n).map (·.place)).getD (.lower 0)

/-- Frame size, 16 KiB for a number that names no frame. -/
def State.frameSize (s : State) (n : Nat) : Nat := ((s.frame n).map (·.size)).getD granule

/-- The number of mappings of a frame. -/
def State.mapCount (s : State) (n : Nat) : Nat := (s.mem.maps.filter (·.frame == n)).length

def Place.isSwap : Place → Bool
  | .swap _ _ => true
  | _ => false

def Place.isUpper : Place → Bool
  | .upper _ _ => true
  | _ => false

def Place.isLower : Place → Bool
  | .lower _ => true
  | _ => false

/-! ### Contents -/

/-- Key of a byte of a frame. -/
def dataKey (n off : Nat) : Nat := n * mib8 + off

def State.readFrame (s : State) (n off len : Nat) : List Byte := Memory.readBytes s.mem.data (dataKey n off) len

/-- Store bytes in a frame, whatever its tier. -/
def State.putFrame (s : State) (n off : Nat) (bs : List Byte) : State :=
  s.modMem fun m => { m with data := Memory.writeBytes m.data (dataKey n off) bs }

/-- Make a frame read as zeros. -/
def State.zeroFrame (s : State) (n : Nat) : State := s.modMem fun m => { m with data := Memory.zero m.data (dataKey n 0) mib8 }

/-- One 4 KiB unit. -/
def State.unit (s : State) (n u : Nat) : List Byte := s.readFrame n (4096 * u) 4096

/-- The tweak of an upper-tier line (R310). -/
def lineTweak (tenant frame line : Nat) : BitVec 128 := BitVec.ofNat 128 (line + frame * 2 ^ 17 + tenant * 2 ^ 49)

/-- A line of an upper-tier frame as its bank stores it, under the tenant's key (R310, log 14). -/
def State.bankLine (s : State) (f : Frame) (line : Nat) : BitVec 512 :=
  xts (s.keyOf f.tenant) (lineTweak f.tenant f.num line) (BitVec.ofNat 512 (leVal (s.readFrame f.num (64 * line) 64)))

/-- A sector of a lower-tier image as its package stores it: the header, the directory in clear, its last sector filled with zeros, and the containers
under the tenant's key (R189-R191, R310). None: a dead sector, or one past the containers. -/
def State.imageSector (s : State) (f : Frame) (x : Nat) : Option (List Byte) :=
  if x = 0 then some (leBytes 64 (imageHeader 0 f.total f.serial f.tenant (f.kind == .page) false f.size))
  else if x ≤ dirSectors f.size then some ((List.range 16).flatMap fun i => leBytes 4 (f.dir.getD (16 * (x - 1) + i) 0))
  else ((List.range (unitsOf f.size)).find? fun u => decide (dirOffset (f.dir.getD u 0) ≤ x) && decide (x < dirOffset (f.dir.getD u 0) + dirLen (f.dir.getD u 0))).map
    fun u => sealSectors (s.keyOf f.tenant) f.tenant f.serial x [((encodeUnit (s.unit f.num u)).2.drop (64 * (x - dirOffset (f.dir.getD u 0)))).take 64]

/-- TOTAL of a compact image of a frame as it stands. -/
def State.frameTotal (s : State) (n : Nat) : Nat := compactTotal (s.frameSize n) (s.unit n)

/-- Sectors of live containers. -/
def State.liveSectors (s : State) (n : Nat) : Nat :=
  sumOf (fun u => unitSectors (s.unit n u)) (List.range (unitsOf (s.frameSize n)))

/-! ### Free space -/

/-- Lowest start, a multiple of `align`, of `n` free places below `top` beside the used runs `(start, length)`. -/
def lowestGap (used : List (Nat × Nat)) (n align top : Nat) : Option Nat :=
  let fits := fun i => decide (i + n ≤ top) && used.all fun r => decide (i + n ≤ r.1) || decide (r.1 + r.2 ≤ i)
  let starts := (0 :: used.map fun r => roundUp (r.1 + r.2) align).filter fits
  match starts with
  | [] => none
  | x :: xs => some (xs.foldl min x)

/-- Granules of channel `ch` that a place takes. -/
def Place.granules (p : Place) (size ch : Nat) : List (Nat × Nat) :=
  match p with
  | .upper c g => if c = ch then [(g, size / granule)] else []
  | _ => []

/-- The chunks of package `k` among those of an image at a place. -/
def Place.chunksIn (p : Place) (chunks : List Nat) (k : Nat) : List Nat :=
  match p with
  | .lower k' => if k' = k then chunks else []
  | _ => []

/-! ### Rehearsed channel loss (R440) -/

/-- KIND codes of a rehearsal (R405). -/
def rehLane : Nat := 1
def rehChannel : Nat := 2
def rehStorm : Nat := 3
def rehReply : Nat := 4
def rehPeer : Nat := 5
def rehEvict : Nat := 6

/-- A run of this kind and target is in progress. -/
def State.rehearses (s : State) (kind target : Nat) : Bool := s.flt.rehearsals.any fun x => x.kind == kind && x.target == target

/-- The storage lies in a channel or package that a rehearsal treats as lost. -/
def State.rehLost (s : State) : Place → Bool
  | .upper c _ => s.rehearses rehChannel c
  | .lower k => s.rehearses rehChannel (1024 + k)
  | .swap _ _ => false

/-- The destination that a migration has reserved, and its chunks. -/
def Frame.migDest (f : Frame) : Option (Place × List Nat) := f.mig.bind fun m => if m.moved then none else some (m.dest, m.chunks)

/-- Granules of each channel that hold the prefix key store of 256 MiB (R212). -/
def keyGranules : Nat := 16

/-- Upper-tier granules that hold table pages (R92): the copies that walks read, and on FN4-1P the mirrors. -/
def State.tableGranules (s : State) : List (Nat × Nat) :=
  (s.mem.tpages.flatMap fun p => p.upper.toList ++ p.copies.filterMap fun c => match c with | .upper c g => some (c, g) | _ => none).dedup

/-- Table pages that a granule holds. -/
def State.tablesAt (s : State) (x : Nat × Nat) : Nat :=
  sumOf (fun p : TablePage => b2n (p.upper == some x) + b2n (p.copies.contains (.upper x.1 x.2))) s.mem.tpages

/-- Chunks of a package that hold table pages. -/
def State.tableChunks (s : State) (k : Nat) : List Nat :=
  s.mem.tpages.flatMap fun p => (p.copies.zip p.chunks).filterMap fun x => if x.1 = .lower k then some x.2 else none

/-- Used runs of granules in a channel. -/
def State.upperRuns (s : State) (ch : Nat) : List (Nat × Nat) :=
  (if s.variant.prefixUnit then [(chanGranules - keyGranules, keyGranules)] else []) ++
  s.mem.frames.flatMap (fun f => f.place.granules f.size ch ++
    (match f.migDest with | some (d, _) => d.granules f.size ch | none => [])) ++
  s.mem.quar.flatMap (fun q => match q.what with | .place p size _ => p.granules size ch | .block _ => []) ++
  (s.mem.tsGran.filter (·.channel == ch)).map (fun g => (g.granule, 1)) ++
  (s.tableGranules.filter (·.1 == ch)).map (fun g => (g.2, 1)) ++
  (s.flt.retired.filter fun r => r.1 && r.2.1 == ch).map (fun r => (r.2.2, 1)) ++
  (if (true, ch) ∈ s.flt.lost ∨ s.rehearses rehChannel ch then [(0, chanGranules)] else [])

/-- A granule lies in a place. -/
def Place.covers (p : Place) (size ch gr : Nat) : Bool :=
  (p.granules size ch).any fun r => decide (r.1 ≤ gr) && decide (gr < r.1 + r.2)

/-- A granule lies in a frame or in quarantined storage, which counts it. -/
def State.covered (s : State) (ch gr : Nat) : Bool :=
  s.mem.frames.any (fun f => f.place.covers f.size ch gr) ||
  s.mem.quar.any fun q => match q.what with | .place p size _ => p.covers size ch gr | .block _ => false

/-- Bytes of the upper tier in use; a lost channel counts whole. -/
def State.upperUsed (s : State) : Nat :=
  let lost := s.flt.lost.filter (·.1)
  let out := fun c => !((true, c) ∈ lost : Bool)
  (if s.variant.prefixUnit then keyGranules * granule * (s.variant.channels - lost.length) else 0) +
  lost.length * chanGranules * granule +
  sumOf (fun f : Frame => (match f.place with | .upper c _ => if out c then f.size else 0 | _ => 0) +
    (match f.migDest with | some (.upper c _, _) => if out c then f.size else 0 | _ => 0)) s.mem.frames +
  sumOf (fun q : QItem => match q.what with | .place (.upper c _) size _ => if out c then size else 0 | _ => 0) s.mem.quar +
  sumOf (fun g : TsGranule => if out g.channel then granule else 0) s.mem.tsGran +
  sumOf (fun g : Nat × Nat => if out g.1 then granule else 0) s.tableGranules +
  sumOf (fun r : Bool × Nat × Nat => if r.1 && out r.2.1 && !s.covered r.2.1 r.2.2 then granule else 0) s.flt.retired

def State.upperFree (s : State) : Nat := s.variant.upperBytes - s.upperUsed

/-- Free upper-tier space in hundredths of the tier, compared with a percentage. -/
def State.upperAtLeast (s : State) (percent : Nat) : Bool :=
  decide (percent * s.variant.upperBytes ≤ 100 * s.upperFree)

def State.highWm (s : State) : Nat := s.scalar 0x3400 2
def State.lowWm (s : State) : Nat := s.scalar 0x3400 1
def State.promoteHeat (s : State) : Nat := s.scalar 0x3400 3

/-- The floor of R82: free space exceeds 2 percent, or there is no lower tier. -/
def State.upperOpen (s : State) : Bool :=
  !s.variant.hasLower || decide (2 * s.variant.upperBytes < 100 * s.upperFree)

/-- The chunks of a package in use, retired ones among them. -/
def State.usedChunks (s : State) (k : Nat) : List Nat :=
  (s.mem.frames.flatMap (fun f => f.place.chunksIn f.chunks k ++ (match f.migDest with | some (d, cs) => d.chunksIn cs k | none => [])) ++
   s.mem.quar.flatMap (fun q => match q.what with | .place p _ cs => p.chunksIn cs k | .block _ => []) ++ s.tableChunks k ++
   (s.flt.retired.filter fun r => !r.1 && r.2.1 == k).map (·.2.2)).dedup

def State.pkgUsed (s : State) (k : Nat) : Nat := if (false, k) ∈ s.flt.lost then pkgChunks else (s.usedChunks k).length

/-- The `n` lowest numbers that are not in use. -/
def lowestFrees (used : List Nat) : Nat → List Nat
  | 0 => []
  | n + 1 =>
    let x := (lowestFree used pkgChunks).getD 0
    x :: lowestFrees (x :: used) n

/-- The lowest free chunks of a package (R185, DESIGN CHOICE, log 10). -/
def State.freeChunks (s : State) (k n : Nat) : List Nat := lowestFrees (s.usedChunks k) n

/-- Chunks for an image of `total` sectors, those it has first. -/
def State.fitChunks (s : State) (k : Nat) (have_ : List Nat) (total : Nat) : List Nat :=
  let n := ceilDiv total 64
  have_.take n ++ s.freeChunks k (n - have_.length)

def State.pkgFree (s : State) (k : Nat) : Nat := pkgChunks - s.pkgUsed k

def State.lowerFree (s : State) : Nat := sumOf s.pkgFree (List.range s.variant.packages)

/-- Chunks of the growth reserve (R185). -/
def State.ltReserve (s : State) : Nat := s.scalar 0x3400 7 * (s.variant.packages * pkgChunks) / 100

/-- Room in package `k` for `n` chunks above the reserve. -/
def State.pkgRoom (s : State) (k n : Nat) : Bool :=
  decide (n ≤ s.pkgFree k) && decide (n + s.ltReserve ≤ s.lowerFree) && !s.rehearses rehChannel (1024 + k)

/-- Numbers from `pref` up, wrapping at `n`. -/
def wrapFrom (pref n : Nat) : List Nat := (List.range n).map fun i => (pref + i) % n

/-- The first channel from `pref` on that has a free frame of `size`, and its lowest aligned granule (R82). -/
def State.findUpper (s : State) (pref size : Nat) : Option (Nat × Nat) :=
  (wrapFrom pref s.variant.channels).findSome? fun c =>
    (lowestGap (s.upperRuns c) (size / granule) (size / granule) chanGranules).map fun g => (c, g)

/-- The first package from `pref` on with room for an image of `total` sectors. -/
def State.findLower (s : State) (pref total : Nat) : Option Nat :=
  (wrapFrom pref s.variant.packages).find? fun k => s.pkgRoom k (ceilDiv total 64)

/-- The directory of a compact image of a frame as it stands. -/
def State.frameDir (s : State) (n : Nat) : List Nat :=
  dirEntries (1 + dirSectors (s.frameSize n)) ((List.range (unitsOf (s.frameSize n))).map fun u => encodeUnit (s.unit n u))

/-- The container of a unit lies where its entry says, after a write that placed it at sector `off`. -/
def Frame.putEntry (f : Frame) (u enc len off : Nat) : Frame :=
  let e := if enc = 0 then 0 else enc * 2 ^ 30 + len * 2 ^ 23 + off
  { f with dir := (List.range (unitsOf f.size)).map fun i => if i = u then e else f.dir.getD i 0 }

/-- TOTAL of the image of a zero frame. -/
def zeroTotal (size : Nat) : Nat := 1 + dirSectors size

/-- A place for a new frame and its home channel (R82, R182): upper tier above the floor, else lower tier. -/
def State.findPlace (s : State) (ch pkg size total : Nat) : Option (Place × Nat) :=
  let up := if s.upperOpen then s.findUpper ch size else none
  match up with
  | some (c, g) => some (.upper c g, c)
  | none => (s.findLower pkg total).map fun k => (.lower k, ch)

/-- Draw an image SERIAL (R191). -/
def State.newSerial (s : State) : Nat × State := (s.mem.serial, s.modMem fun m => { m with serial := m.serial + 1 })

/-! ### Touchstone blocks (R131) -/

def State.modTsGran (s : State) (f : List TsGranule → List TsGranule) : State := s.modMem fun m => { m with tsGran := f m.tsGran }

/-- Round a block to what it takes: 64-byte units below 16 KiB, whole granules above. -/
def blockSpan (size : Nat) : Nat := if size ≤ granule then roundUp size 64 else roundUp size granule

/-- First fit of a block in the tenant's granules of a channel. -/
def State.fitBlock (s : State) (t ch size : Nat) : Option (Nat × Nat) :=
  if size > granule ∨ (true, ch) ∈ s.flt.lost ∨ s.rehearses rehChannel ch then none else
  (s.mem.tsGran.filter fun g => g.tenant == t && g.channel == ch && !s.flt.retired.contains (true, ch, g.granule)).findSome? fun g =>
    (lowestGap g.blocks (blockSpan size) 64 granule).map fun off => (g.granule, off)

/-- Number of a block's first 64-byte unit in the touchstone area, whose granules are numbered as they are taken (R132, DESIGN CHOICE,
log 10). -/
def tsNumber (area off : Nat) : Nat := area * 256 + off / 64

/-- The place in the touchstone area of a granule. -/
def State.areaOf (s : State) (ch gr : Nat) : Nat := ((s.mem.tsGran.find? fun g => g.channel == ch && g.granule == gr).map (·.area)).getD 0

/-- The lowest free run of the touchstone area. -/
def State.freeArea (s : State) (n : Nat) : Nat := (lowestGap (s.mem.tsGran.map fun g => (g.area, 1)) n 1 (2 ^ 24)).getD 0

/-- Place a block in one channel. -/
def State.blockIn (s : State) (t size ch : Nat) : Option (TsBlock × State) :=
  match s.fitBlock t ch size with
  | some (gr, off) =>
    some (⟨tsNumber (s.areaOf ch gr) off, ch, gr, off, size⟩,
      s.modTsGran (modWhere (fun g => g.channel == ch && g.granule == gr) fun g =>
        { g with blocks := g.blocks ++ [(off, blockSpan size)] }))
  | none =>
    let n := if size ≤ granule then 1 else blockSpan size / granule
    match lowestGap (s.upperRuns ch) n 1 chanGranules with
    | none => none
    | some gr =>
      let a := s.freeArea n
      some (⟨tsNumber a 0, ch, gr, 0, size⟩,
        s.modTsGran (· ++ (List.range n).map fun i => ⟨t, ch, gr + i, a + i, [(0, min granule (blockSpan size))]⟩))

/-- Place a block in the home channel or the next that has room. -/
def State.placeBlock (s : State) (t home size : Nat) : Option (TsBlock × State) :=
  (wrapFrom home s.variant.channels).findSome? fun c => s.blockIn t size c

/-- Free a block; a granule whose last block goes returns to the pool. -/
def State.freeBlock (s : State) (b : TsBlock) : State :=
  let n := if b.size ≤ granule then 1 else blockSpan b.size / granule
  let mine := fun g : TsGranule => g.channel == b.channel && decide (b.granule ≤ g.granule) && decide (g.granule < b.granule + n)
  s.modTsGran fun l => (modWhere mine (fun g => { g with blocks := g.blocks.filter fun x => x.1 ≠ b.offset }) l).filter fun g =>
    !g.blocks.isEmpty

/-! ### Charges (R92, R131, R312) -/

/-- Bytes counted against a tenant's limits, its table pages and their root among them (R92; DEDUCED, log 66, log 69). -/
def State.framesUsed (s : State) (t : Nat) : Nat :=
  sumOf (fun f : Frame => if f.tenant = t ∧ !f.place.isSwap then f.size else 0) s.mem.frames +
  sumOf (fun q : QItem => if q.tenant = t then (match q.what with | .place p size _ => if p.isSwap then 0 else size | .block _ => 0) else 0) s.mem.quar +
  4096 * (s.mem.tpages.filter (·.tenant == t)).length + granule * (s.mem.tsGran.filter (·.tenant == t)).length

/-! ### Quarantine (R95) -/

/-- Advance W and tag displaced storage with the new value. -/
def State.quarantine (s : State) (t : Nat) (what : Storage) (frame : Option Nat := none) (block : Option TsBlock := none)
    (victim : Option Nat := none) : State :=
  let q : QItem := { id := s.mem.nextQ, tag := s.mem.walkEpoch + 1, tenant := t, what := what, frame := frame, block := block, victim := victim }
  s.modMem fun m => { m with walkEpoch := m.walkEpoch + 1, quar := m.quar ++ [q], nextQ := m.nextQ + 1 }

/-- No live walk predates a tag. -/
def State.walksPast (s : State) (tag : Nat) : Bool := s.mem.walks.all fun w => decide (tag ≤ w.w)

/-- End the quarantine of an item: its storage returns to the pool, but for retired granules (R433), and with a frame's
storage its block (R131). -/
def State.endQuarantine (s : State) (q : QItem) : State :=
  let s := s.modMem fun m => { m with quar := dropWhere (·.id == q.id) m.quar }
  let s := match q.frame with | some n => s.zeroFrame n | none => s
  let s := match q.block with | some b => s.freeBlock b | none => s
  match q.what with
  | .place _ _ _ => s
  | .block b => s.freeBlock b

/-! ### Retirement (R433) -/

/-- Retire an upper-tier granule: it never returns to the pool (R433). -/
def State.retireGranule (s : State) (ch gr : Nat) : State :=
  if (true, ch, gr) ∈ s.flt.retired then s
  else ({ s with flt := { s.flt with retired := (true, ch, gr) :: s.flt.retired } }).count 0x6000 0x1A granule

/-- Retire a lower-tier chunk. -/
def State.retireChunk (s : State) (k ch : Nat) : State :=
  if (false, k, ch) ∈ s.flt.retired then s
  else ({ s with flt := { s.flt with retired := (false, k, ch) :: s.flt.retired } }).count 0x6000 0x1A 4096

/-- Records of RETIRE_LOG; the newest replaces the oldest (R433). -/
def retireLogMax : Nat := 64
/-- Entries of the flash retirement list (R433). -/
def flashListMax : Nat := 4096

/-- Write a retirement record and raise FRAME_RETIRED (R433) (DEDUCED, log 49). -/
def State.retireRecord (s : State) (x : RetireRec) : State :=
  let full := s.flt.flashList.length ≥ flashListMax
  let s := { s with flt := { s.flt with
    log := (x :: s.flt.log).take retireLogMax
    flashList := if full then s.flt.flashList else s.flt.flashList ++ [x]
    health := if full then putBit s.flt.health healthRetireFull true else s.flt.health } }
  s.raise srcFrameRetired

/-- Record of storage that holds no frame. -/
def State.freeRecord (s : State) (upper : Bool) (unit loc cause : Nat) : RetireRec :=
  { time := s.clk.ltime, cause := cause, tier := b2n (!upper), tenant := 0xFFFF, unit := unit, lines := 0, location := loc,
    frame := 0xFFFFFFFF, address := 0 }

def State.retireAt (s : State) (upper : Bool) (unit loc : Nat) : State :=
  if upper then s.retireGranule unit loc else s.retireChunk unit loc

/-- Retire storage that holds no frame. -/
def State.retireFree (s : State) (upper : Bool) (unit loc cause : Nat) : State :=
  if (upper, unit, loc) ∈ s.flt.retired then s
  else (s.retireAt upper unit loc).retireRecord (s.freeRecord upper unit loc cause)

/-- A free place of a metadata copy, in another package or stack than `not` (R5, R187). Where such copies lie is open (DESIGN CHOICE, log
10). -/
def State.drawSpot (s : State) (up : Bool) (not : Option Nat) : (Bool × Nat × Nat) × State :=
  let n := if up then s.variant.stackCount else s.variant.packages
  let (d, s) := s.draw (match not with | some _ => n - 1 | none => n)
  let u := match not with | some x => (x + 1 + d) % n | none => d
  let (c, s) := if up then s.draw 128 else (0, s)
  let (l, s) := s.draw (if up then chanGranules else pkgChunks)
  ((up, if up then 128 * u + c else u, l), s)

/-- Two mirrored copies. -/
def State.drawMirrors (s : State) : List (Bool × Nat × Nat) × State :=
  let up := !s.variant.hasLower
  let (a, s) := s.drawSpot up none
  let (b, s) := s.drawSpot up (some (if up then a.2.1 / 128 else a.2.1))
  ([a, b], s)

/-- A frame is freed before its relocation: its storage is retired all the same (R443). -/
def State.retireFreed (s : State) (f : Frame) : State :=
  f.retire.foldl (fun s x => s.retireRecord { x with address := 0 }) s

/-- A frame that nothing maps any more: its storage or swap run, its block and its number enter quarantine (R95, R131). -/
def State.releaseFrame (s : State) (n : Nat) : State :=
  match s.frame n with
  | none => s
  | some f =>
    let s := (s.modMem fun m => { m with frames := dropWhere (·.num == n) m.frames }).retireFreed f
    s.quarantine f.tenant (.place f.place f.size f.chunks) (some n) (f.touch.map (·.block))

/-- The translation-cache lines that an edit's entries fed are invalidated (R94). -/
def State.tlbDrop (s : State) (p : Nat × Nat × Nat → Bool) : State := s.modMem fun m => { m with tlb := dropWhere p m.tlb }

/-- Remove one mapping; a frame whose share count falls to zero is released. A table page left without entries stays the tenant's
(DESIGN CHOICE, log 79). -/
def State.unmapOne (s : State) (m : Mapping) : State :=
  let s := (s.modMem fun x => { x with maps := x.maps.erase m }).tlbDrop fun e => e.1 == m.tenant && e.2.1 == m.addr
  if s.mapCount m.frame = 0 then s.releaseFrame m.frame
  else s.modMem fun x => { x with walkEpoch := x.walkEpoch + 1 }

/-! ### Table pages (R88, R92) -/

/-- The index of the table page of `level` that holds the entry for an address. -/
def tableIndex (level a : Nat) : Nat := a / 2 ^ (23 + 9 * level)

/-- The pages that a range needs down to `low`, as (level, index). -/
def tablePagesFor (a len low : Nat) : List (Nat × Nat) :=
  ([2, 1, 0].filter fun l => decide (low ≤ l)).flatMap fun l =>
    let i0 := tableIndex l a
    (List.range (tableIndex l (a + len - 1) - i0 + 1)).map fun i => (l, i0 + i)

/-- The pages of a list that a tenant does not have yet. -/
def State.missingTables (s : State) (t : Nat) (ps : List (Nat × Nat)) : List (Nat × Nat) :=
  ps.dedup.filter fun p => !s.mem.tpages.any fun x => x.tenant == t && x.level == p.1 && x.index == p.2

/-- A channel and granule for one more table page, of a stack that satisfies `ok`: a granule that holds fewer than four, else a new one
(DESIGN CHOICE, log 79). -/
def State.tableSpot (s : State) (home : Nat) (ok : Nat → Bool) : Option (Nat × Nat) :=
  match s.tableGranules.find? fun x => ok (x.1 / 128) && decide (s.tablesAt x < 4) && !s.flt.retired.contains (true, x.1, x.2) &&
      !s.flt.lost.contains (true, x.1) && !s.rehearses rehChannel x.1 with
  | some x => some x
  | none => ((wrapFrom home s.variant.channels).filter fun c => ok (c / 128)).findSome? fun c =>
      (lowestGap (s.upperRuns c) 1 1 chanGranules).map fun g => (c, g)

/-- The lowest free table page number of a page below a root; the root of tenant t is page t + 1 (R88, DESIGN CHOICE, log 79). -/
def State.tableNum (s : State) : Nat := 4097 + (lowestFree ((s.mem.tpages.filter fun p => decide (p.level ≤ 2)).map fun p => p.num - 4097) (2 ^ 32)).getD 0

/-- Places of the two mirrored copies of a table page, and their chunks (R5, R92). -/
def State.mirrorSpots (s : State) (home : Nat) : Option (List Place × List Nat) :=
  if s.variant.hasLower then
    match (wrapFrom home s.variant.packages).filter fun k => decide (1 ≤ s.pkgFree k) with
    | a :: b :: _ => some ([.lower a, .lower b], s.freeChunks a 1 ++ s.freeChunks b 1)
    | _ => none
  else
    match s.tableSpot home fun _ => true with
    | some a => (s.tableSpot home fun k => k != a.1 / 128).map fun b => ([.upper a.1 a.2, .upper b.1 b.2], [])
    | none => none

/-- Create a table page of a number: its mirrors, and an upper-tier copy for a page of level 3 or 2, and for another while upper space is at or above
UPPER_HIGH_WM (R92). None: it cannot be placed. -/
def State.newPage (s : State) (t n : Nat) (p : Nat × Nat) : Option State :=
  let warm := decide (p.1 ≤ 1) && s.upperAtLeast s.highWm
  match s.mirrorSpots n with
  | none => none
  | some cs =>
    let x : TablePage := { tenant := t, level := p.1, index := p.2, num := n, copies := cs.1, chunks := cs.2, heat := if warm then s.promoteHeat else 0 }
    let s := s.modMem fun m => { m with tpages := m.tpages ++ [x] }
    if !s.variant.hasLower && decide (p.1 ≤ 1) then some s
    else
      let up := if warm || decide (2 ≤ p.1) then s.tableSpot (n % s.variant.channels) fun _ => true else none
      if decide (2 ≤ p.1) && up.isNone then none
      else some (s.modMem fun m => { m with tpages := modWhere (·.num == n) (fun x => { x with upper := up }) m.tpages })

def State.addTable (s : State) (t : Nat) (p : Nat × Nat) : Option State := s.newPage t s.tableNum p

/-- The root of a tenant that becomes ACTIVE (R313). -/
def State.addRoot (s : State) (t : Nat) : Option State := s.newPage t (t + 1) (3, 0)

/-- Create table pages, all or none. -/
def State.addTables (s : State) (t : Nat) : List (Nat × Nat) → Option State
  | [] => some s
  | p :: ps => match s.addTable t p with | some s => s.addTables t ps | none => none

def TablePage.key (p : TablePage) : Nat × Nat × Nat := (p.tenant, p.level, p.index)

def State.modTable (s : State) (k : Nat × Nat × Nat) (f : TablePage → TablePage) : State :=
  s.modMem fun m => { m with tpages := modWhere (·.key == k) f m.tpages }

/-- A new place for a mirrored copy, apart from the other copy's package or stack (R187). -/
def State.newCopy (s : State) (old other : Place × Nat) : Option (Place × Nat) :=
  match old.1, other.1 with
  | .lower a, .lower b => ((wrapFrom a s.variant.packages).find? fun k => k != b && decide (1 ≤ s.pkgFree k)).map fun k =>
      (.lower k, (s.freeChunks k 1).headD 0)
  | .upper a _, .upper b _ => (s.tableSpot a fun st => st != b / 128).map fun x => (.upper x.1 x.2, 0)
  | _, _ => none

/-- A copy lies in storage for which `bad` holds. -/
def badCopy (bad : Bool → Nat → Nat → Bool) (c : Place × Nat) : Bool :=
  match c.1 with
  | .lower k => bad false k c.2
  | .upper ch g => bad true ch g
  | .swap _ _ => false

/-- Rewrite the copies of a table page that lie in bad storage, from its good copies (R187, R428). -/
def State.moveTable (s : State) (bad : Bool → Nat → Nat → Bool) (p : TablePage) : State :=
  let s := match p.upper with
    | some x => if bad true x.1 x.2 then let y := s.tableSpot x.1 fun _ => true; s.modTable p.key fun p => { p with upper := y } else s
    | none => s
  let put := fun (a b : Place × Nat) (s : State) =>
    s.modTable p.key fun p => { p with copies := [a.1, b.1], chunks := if a.1.isLower then [a.2, b.2] else [] }
  match p.copies.zip (p.chunks ++ [0, 0]) with
  | [a, b] =>
    let a' := if badCopy bad a then (s.newCopy a b).getD a else a
    let s := if badCopy bad a then put a' b s else s
    if badCopy bad b then put a' ((s.newCopy b a').getD b) s else s
  | _ => s

def State.moveTables (s : State) (bad : Bool → Nat → Nat → Bool) : State := s.mem.tpages.foldl (fun s p => s.moveTable bad p) s

/-- The table pages that an edit needs, all or nothing within FRAME_MAX (R92). -/
def State.takeTables (s : State) (t : Nat) (ps : List (Nat × Nat)) : Option State :=
  let new := s.missingTables t ps
  if new.isEmpty then some s
  else if s.framesUsed t + 4096 * new.length > s.frameMax t then none
  else s.addTables t new

/-- Does the page have an upper-tier copy that a walk reads? -/
def TablePage.inUpper (p : TablePage) : Bool := p.upper.isSome || p.copies.any Place.isUpper

/-- The lowest table level that a frame of a size needs (R90). -/
def leafLow (size : Nat) : Nat := if size = mib8 then 1 else 0

/-! ### Allocation of frames -/

/-- Take the lowest free frame number and its next generation. -/
def State.newFrameNum (s : State) : Nat × Nat :=
  let n := (lowestFree (s.mem.frames.map (·.num) ++ s.mem.quar.filterMap (·.frame)) (2 ^ 32)).getD 0
  (n, assocGet s.gens.frames n 0 % 256 + 1)

/-- Enter a frame in the frame table; a lower-tier placement draws a SERIAL (R191). -/
def State.enterFrame (s : State) (n gen t comp size : Nat) (k : FrameKind) (p : Place) (home : Nat) (touch : Option Touch) : State :=
  let (ser, s) := if p.isLower then s.newSerial else (0, s)
  let f : Frame := { num := n, gen := gen % 256, size := size, tenant := t, comp := comp, kind := k, place := p, home := home,
                     touch := touch, total := if p.isLower then zeroTotal size else 0, serial := ser,
                     chunks := match p with | .lower k => s.freeChunks k (ceilDiv (zeroTotal size) 64) | _ => [] }
  let s := { s with gens := { s.gens with frames := assocPut s.gens.frames n (gen % 256) 0 } }
  s.modMem fun m => { m with frames := m.frames ++ [f] }

/-- The outcome of an allocation: what it gave; no room in either tier (R82); past FRAME_MAX (R312). -/
inductive Alloc (α : Type) where
  | got (a : α) (s : State)
  | full
  | limit

/-- A frame that is not a page: preferred channel and package by its number (R82). -/
def State.allocPlain (s : State) (t comp size : Nat) (k : FrameKind) (lowerToo : Bool := true) : Alloc Nat :=
  if s.framesUsed t + size > s.frameMax t then .limit else
  let (n, gen) := s.newFrameNum
  let pl := if lowerToo then s.findPlace (n % s.variant.channels) (n % max 1 s.variant.packages) size (zeroTotal size)
    else (s.findUpper (n % s.variant.channels) size).map fun c => (.upper c.1 c.2, c.1)
  match pl with
  | none => .full
  | some p => .got n (s.enterFrame n gen t comp size k p.1 p.2 none)

/-- A page's frame and its block as one allocation (R82, R131). -/
def State.allocPage (s : State) (t comp idx layer page size blk : Nat) : Alloc Nat :=
  if s.framesUsed t + size > s.frameMax t then .limit else
  let (n, gen) := s.newFrameNum
  let ch := (idx * 37 + layer * 13 + page) % s.variant.channels
  let pkg := (idx + layer + page) % max 1 s.variant.packages
  match s.findPlace ch pkg size (zeroTotal size) with
  | none => .full
  | some (p, home) =>
    let s := s.enterFrame n gen t comp size .page p home none
    match s.placeBlock t home blk with
    | none => .full
    | some (b, s) =>
      if s.framesUsed t > s.frameMax t then .limit
      else .got n (s.modFrame n fun f => { f with touch := some { block := b } })

/-- Repeat an allocation along a list, all or nothing. -/
def allocEach {α : Type} (f : α → State → Alloc Nat) : List α → State → Alloc (List (α × Nat))
  | [], s => .got [] s
  | x :: xs, s =>
    match f x s with
    | .full => .full
    | .limit => .limit
    | .got n s =>
      match allocEach f xs s with
      | .got l s => .got ((x, n) :: l) s
      | .full => .full
      | .limit => .limit

/-- Map a frame at an address. -/
def State.mapFrame (s : State) (t a n : Nat) (r w sq : Bool) : State :=
  let gen := ((s.frame n).map (·.gen)).getD 0
  s.modMem fun m => { m with maps := m.maps ++ [⟨t, a, n, gen, r, w, sq⟩] }

/-! ### Translation (R91) -/

/-- The mapping that covers a tenant address. -/
def State.mapAt (s : State) (t a : Nat) : Option Mapping :=
  s.mem.maps.find? fun m => m.tenant == t && decide (m.addr ≤ a) && decide (a < m.addr + s.frameSize m.frame)

/-- Does any mapping of the tenant touch a range? -/
def State.mappedIn (s : State) (t a len : Nat) : Bool :=
  s.mem.maps.any fun m => m.tenant == t && decide (m.addr < a + len) && decide (a < m.addr + s.frameSize m.frame)

/-- What an access needs. -/
inductive Right where
  | read | write
  deriving DecidableEq, Repr

/-- How one walk ends (R91). -/
inductive Walked where
  | hit (frame off : Nat)
  | invalid
  | noRight
  | swapped
  | badGen
  | lost
  deriving DecidableEq, Repr

/-- Key of a table page in the list of lost metadata. -/
def tableKey (level index : Nat) : Nat := level * 2 ^ 40 + index

/-- Metadata that a walk of an address needs and that is lost (R188). -/
def State.walkLost (s : State) (t a : Nat) : Bool :=
  !s.mem.lost.isEmpty &&
  ((t, MetaKind.tableLow, tableKey 0 (tableIndex 0 a)) ∈ s.mem.lost || (t, MetaKind.tableLow, tableKey 1 (tableIndex 1 a)) ∈ s.mem.lost ||
   (t, MetaKind.tableHigh, tableKey 2 (tableIndex 2 a)) ∈ s.mem.lost || (t, MetaKind.tableHigh, tableKey 3 0) ∈ s.mem.lost)

/-- One walk: the frame that an address yields and the offset in it. -/
def State.walk (s : State) (t a : Nat) (need : Right) : Walked :=
  if s.walkLost t a then .lost else
  match s.mapAt t a with
  | none => .invalid
  | some m =>
    match s.frame m.frame with
    | none => .badGen
    | some f =>
      if (t, MetaKind.alloc, f.num) ∈ s.mem.lost then .lost
      else if f.place.isSwap then .swapped
      else if f.gen ≠ m.gen then .badGen
      else if (match need with | .read => m.r | .write => m.w) then .hit f.num (a - m.addr)
      else .noRight

/-- The status of a failed walk of a queued or remote request. -/
def Walked.status : Walked → Status
  | .hit _ _ => .ok
  | .invalid => .rangeFault
  | .noRight => .rangeFault
  | .swapped => .preempted
  | .badGen => .internal
  | .lost => .internal

/-- The 4 KiB units that `[off, off + len)` touches. -/
def unitsTouched (off len : Nat) : List Nat :=
  if len = 0 then [] else (List.range ((off + len - 1) / 4096 - off / 4096 + 1)).map fun i => off / 4096 + i

/-- A read meets a 64-byte line whose uncorrectable error has not been dealt with yet (R428), a rehearsed loss (R440), or a
unit whose directory entry is a decode error (R190, R194). -/
def State.meetsBad (s : State) (n off len : Nat) : Bool :=
  match s.frame n with
  | some f => s.rehLost f.place || f.badLines.any (fun l => decide (64 * l < off + len) && decide (off < 64 * l + 64)) ||
      (f.place.isLower && (unitsTouched off len).any fun u => !dirOk f.size f.total (f.dir.getD u 0))
  | none => false

/-- A write meets a rehearsed loss (R440), or needs what cannot be read: the unit that it changes in the lower tier (R184), or the rest of a
line that it writes in part. It ends with its lines unchanged. -/
def State.meetsLoss (s : State) (n off len : Nat) : Bool :=
  match s.frame n with
  | some f => s.rehLost f.place || f.badLines.any fun l =>
      decide (64 * l < off + len) && decide (off < 64 * l + 64) && (f.place.isLower || decide (64 * l < off) || decide (off + len < 64 * l + 64))
  | none => false

/-- The pieces (frame, offset, length) that a range covers, or the status of the first walk that fails. -/
def State.pieces (s : State) (t : Nat) (need : Right) : Nat → Nat → Nat → Except Status (List (Nat × Nat × Nat))
  | _, _, 0 => .ok []
  | 0, _, _ => .error .rangeFault
  | fuel + 1, a, n =>
    if a ≥ addrEnd then .error .rangeFault else
    match s.walk t a need with
    | .hit f off =>
      let len := min n (s.frameSize f - off)
      if (need = .read ∧ s.meetsBad f off len) ∨ (need = .write ∧ s.meetsLoss f off len) then .error .mediaError else
      match s.pieces t need fuel (a + len) (n - len) with
      | .ok ps => .ok ((f, off, len) :: ps)
      | .error e => .error e
    | w => .error w.status

/-- The pieces of a whole range. -/
def State.xlate (s : State) (t a n : Nat) (need : Right) : Except Status (List (Nat × Nat × Nat)) :=
  s.pieces t need (n / granule + 2) a n

/-- The walk at which an access to a range fails: one that yields a frame where the access meets a line that cannot be read. -/
def State.failsAt (s : State) (t : Nat) (need : Right) : Nat → Nat → Nat → Option Walked
  | _, _, 0 => none
  | 0, _, _ => none
  | fuel + 1, a, n =>
    match s.walk t a need with
    | .hit f off =>
      let len := min n (s.frameSize f - off)
      if (need = .read ∧ s.meetsBad f off len) ∨ (need = .write ∧ s.meetsLoss f off len) then some (.hit f off)
      else s.failsAt t need fuel (a + len) (n - len)
    | w => some w

/-- A failed access to a tenant range counts in LT_MEDIA where the lower tier failed it (R201), and as a translation fault where it met a
generation that does not match (R91). -/
def State.noteFailed (s : State) (t a n : Nat) (need : Right) : State :=
  match s.failsAt t need (n / granule + 2) a n with
  | some (.hit f _) => if (s.placeOf f).isLower then s.count 0x6100 0xA else s
  | some .badGen => s.count (0x4000 + t) 0x54
  | _ => s

/-- The status of translating a range: OK when every byte is reached. -/
def State.xlateStatus (s : State) (t a n : Nat) (need : Right) : Status :=
  match s.xlate t a n need with
  | .ok _ => .ok
  | .error e => e

/-- Add one to a saturating 8-bit heat. -/
def heatUp (h : Nat) : Nat := if h ≥ 255 then 255 else h + 1

/-! ### The translation cache and heat (R92, R93, R196-R198) -/

/-- A privileged read of the frame's allocator metadata is stalled (R199). -/
def State.allocStalled (s : State) (n : Nat) : Bool := s.mem.stalls.any fun x => x.kind == .alloc && x.key == n

/-- A result range that an NB_EXEC is writing lies in the frame (R197). -/
def State.beingWritten (s : State) (n : Nat) : Bool :=
  s.reqs.any fun q => q.loanWork.any fun w => w.rows.any (fun r => w.op != 1 && r.2.frame == n) || w.outs.any (·.frame == n)

/-- Demotion may take the frame (R197). -/
def State.demotable (s : State) (f : Frame) : Bool :=
  f.place.isUpper && !f.held && f.mig.isNone && f.swapRun.isNone && f.kind != .accumulator && !s.allocStalled f.num && !s.beingWritten f.num

/-- The coldest demotable frame; ties go to the lower number. -/
def State.coldest (s : State) : Option Frame :=
  (s.mem.frames.filter s.demotable).foldl (fun best f => match best with
    | none => some f
    | some b => if f.heat < b.heat ∨ (f.heat = b.heat ∧ f.num < b.num) then some f else some b) none

/-- Reserve the destination of a move to the lower tier (R182) and begin it. -/
def State.startDown (s : State) (f : Frame) (req thenUp : Option Nat) (table : Option (Nat × Nat × Nat) := none) : Option State :=
  let total := s.frameTotal f.num
  (s.findLower (f.home % max 1 s.variant.packages) total).map fun k =>
    let (ser, s) := s.newSerial
    let cs := s.freeChunks k (ceilDiv total 64)
    (s.modFrame f.num fun f =>
      { f with mig := some { dest := .lower k, req := req, total := total, chunks := cs, serial := ser, package := some k, thenUp := thenUp, thenTable := table } }).enterMove
      req f.num k (64 * total)

def State.migShare (s : State) : Nat := s.scalar 0x3400 5

/-- Give a table page its upper-tier copy, where one can be placed. -/
def State.giveUpper (s : State) (k : Nat × Nat × Nat) : State :=
  match s.mem.tpages.find? (·.key == k) with
  | some p =>
    if p.inUpper then s
    else match s.tableSpot (p.num % s.variant.channels) fun _ => true with
      | some x => s.modMem fun m => { m with tpages := modWhere (·.key == k) (fun p => { p with upper := some x }) m.tpages }
      | none => s
  | none => s

/-- A table page whose heat has reached PROMOTE_HEAT gains an upper-tier copy under the conditions of R198 (R92). -/
def State.warmTable (s : State) (p : TablePage) : State :=
  if p.inUpper ∨ p.heat < s.promoteHeat ∨ s.migShare = 0 then s
  else if s.upperAtLeast s.highWm then s.giveUpper p.key
  else if s.mem.frames.any fun f => f.mig.any fun m => m.thenTable == some p.key then s
  else match s.coldest with
    | some c => if c.heat + s.promoteHeat ≤ p.heat then (s.startDown c none none (some p.key)).getD s else s
    | none => s

/-- Entries of the translation cache. -/
def tlbSize : Nat := 32768

/-- Enter a translation; a full cache loses an entry, which one is free (R93). -/
def State.tlbFill (s : State) (x : Nat × Nat × Nat) : State :=
  let (i, s) := if s.mem.tlb.length < tlbSize then (0, s) else s.draw tlbSize
  s.modMem fun m => { m with tlb := x :: if m.tlb.length < tlbSize then m.tlb else m.tlb.eraseIdx i }

/-- A walk of a tenant address that yields a frame: it heats the frame; where the translation cache misses, it also heats the table
pages that it reads and enters the translation (R92, R93, R196). -/
def State.heatWalk (s : State) (t a n : Nat) : State :=
  let s := s.modFrame n fun f => { f with heat := heatUp f.heat }
  let x := (t, ((s.mapAt t a).map (·.addr)).getD a, n)
  if s.mem.tlb.contains x then s
  else
    let mine := fun p : TablePage => p.tenant == t && decide (p.index = tableIndex p.level a)
    let s := s.modMem fun m => { m with tpages := modWhere mine (fun p => { p with heat := heatUp p.heat }) m.tpages }
    ((s.mem.tpages.filter fun p => mine p && decide (p.level ≤ 1)).foldl State.warmTable s).tlbFill x

/-- A walk of the address at which a tenant maps a frame. -/
def State.heatFrame (s : State) (t n : Nat) : State :=
  match s.mem.maps.find? fun m => m.tenant == t && m.frame == n with
  | some m => s.heatWalk t m.addr n
  | none => s

/-- Heat what the walks of a range's pieces yield. -/
def State.heatPieces (s : State) (t : Nat) : Nat → List (Nat × Nat × Nat) → State
  | _, [] => s
  | a, (n, _, len) :: ps => (s.heatWalk t a n).heatPieces t (a + len) ps

/-- Read the bytes of pieces. -/
def State.readPieces (s : State) (ps : List (Nat × Nat × Nat)) : List Byte :=
  ps.flatMap fun p => s.readFrame p.1 p.2.1 p.2.2

/-- Read a tenant range (R91). -/
def State.readTenant (s : State) (t a n : Nat) : Except Status (List Byte) :=
  match s.xlate t a n .read with
  | .ok ps => .ok (s.readPieces ps)
  | .error e => .error e

/-- Sectors of the containers of some units of a frame. -/
def State.sectorsOf (s : State) (n : Nat) (us : List Nat) : Nat := sumOf (fun u => unitSectors (s.unit n u)) us

/-- Image bytes of some units of a frame at the pins of the lower tier (R200, R314): none in the upper tier. -/
def State.streamUnits (s : State) (p : Place) (n : Nat) (us : List Nat) : Nat :=
  match p with
  | .lower _ => 64 * s.sectorsOf n us.dedup
  | _ => 0

/-- Image bytes of the units that a run of a frame touches. -/
def State.streamBytes (s : State) (n off len : Nat) : Nat := s.streamUnits (s.placeOf n) n (unitsTouched off len)

/-- A request has moved image bytes at the pins of a place's controller: they are charged to its tenant and metered by its composition
(R314, R325). -/
def State.chargeAt (s : State) (y : Payer) (pl : Place) (bytes : Nat) : State :=
  match pl.package with
  | some p => if bytes = 0 then s else (s.notePins p bytes).charge y.tenant y.comp 3 bytes
  | none => s

/-- Image bytes of a frame where it lies now. -/
def State.chargePins (s : State) (y : Payer) (n bytes : Nat) : State := s.chargeAt y (s.placeOf n) bytes

/-- Charge the image bytes of a range's pieces, and of what they held before in `s0`. -/
def State.chargePieces (s s0 : State) (y : Payer) (ps : List (Nat × Nat × Nat)) : State :=
  ps.foldl (fun s p => s.chargePins y p.1 (s0.streamBytes p.1 p.2.1 p.2.2)) s

/-- Read a tenant range: the image bytes that it moves are charged, and what its walks yield is heated. -/
def State.loadTenant (s : State) (y : Payer) (a n : Nat) : Except Status (List Byte × State) :=
  match s.xlate y.tenant a n .read with
  | .ok ps => .ok (s.readPieces ps, (s.chargePieces s y ps).heatPieces y.tenant a ps)
  | .error e => .error e

/-! ### Writing, in either tier -/

/-- Mark units written during a migration (R199). -/
def markDirty (us : List Nat) (f : Frame) : Frame :=
  { f with mig := f.mig.map fun m => if m.moved then m else { m with dirty := us.foldl (fun d u => insertNew u d) m.dirty } }

/-- Compact an image: live containers only, under a new SERIAL, in new chunks of its package; the old image enters
quarantine (R181, R184). None when the package has no room for it. -/
def State.compact (s : State) (n : Nat) : Option State :=
  match s.frame n with
  | none => none
  | some f =>
    match f.place with
    | .lower k =>
      let total := s.frameTotal n
      if s.pkgFree k < ceilDiv total 64 then none else
      let (ser, s) := s.newSerial
      let cs := s.freeChunks k (ceilDiv total 64)
      let dir := s.frameDir n
      some ((s.quarantine noTenant (.place f.place f.size f.chunks)).modFrame n fun f =>
        { f with total := total, dead := 0, serial := ser, chunks := cs, dir := dir })
    | _ => none

/-- Switch a frame's entry to the destination of its migration (R181): the storage left behind is quarantined. -/
def State.switchPlace (s : State) (f : Frame) (m : Migration) : State :=
  let down := m.dest.isLower
  let total := if down then s.frameTotal f.num else 0
  let cs := match m.dest with
    | .lower k => s.fitChunks k m.chunks total
    | _ => []
  let dir := if down then s.frameDir f.num else []
  (s.quarantine noTenant (.place f.place f.size f.chunks)).modFrame f.num fun f =>
    { f with place := m.dest, total := total, dead := 0, serial := if down then m.serial else 0, held := f.held || m.hold, chunks := cs, dir := dir,
             mig := some { m with moved := true, dirty := [] } }

/-- The image that a demotion has built still fits its reservation, or its package has room for what it grew by. -/
def State.switchFits (s : State) (f : Frame) (m : Migration) : Bool :=
  match m.dest with
  | .lower k => decide (ceilDiv (s.frameTotal f.num) 64 ≤ s.pkgFree k + m.chunks.length)
  | _ => true

/-- Passes over the dirty units of a migration before writes wait for its switch (R199). -/
def copyPasses : Nat := 3

/-- A write to the frame waits for the switch of its migration (R199 step 5), where the image that a demotion has built fits. -/
def State.beforeWrite (s : State) (n : Nat) : State :=
  match s.frame n with
  | some f =>
    match f.mig with
    | some m => if m.moved ∨ m.reloc ∨ m.passes ≤ copyPasses ∨ s.allocStalled n ∨ !s.switchFits f m then s else s.switchPlace f m
    | none => s
  | none => s

/-- Write the zeros that stand for what could not be read: lines in the upper tier, whole units in the lower. -/
def State.zeroBad (s : State) (f : Frame) : State :=
  if f.place.isUpper then
    (f.badLines.foldl (fun s l => s.putFrame f.num (64 * l) (List.replicate 64 0)) s).count 0x6000 0x26 f.badLines.length
  else
    let us := (f.badLines.map fun l => 64 * l / 4096).dedup
    (us.foldl (fun s u => s.putFrame f.num (4096 * u) (List.replicate 4096 0)) s).count 0x6000 0x26 (64 * us.length)

/-- Place the rewritten containers of units at the end of an image, from sector `off` on, and switch their entries (R184 steps 3 and 4). -/
def Frame.placeUnits (f : Frame) (unit : Nat → List Byte) : Nat → List Nat → Frame
  | _, [] => f
  | off, u :: us =>
    let c := encodeUnit (unit u)
    (f.putEntry u c.1 (c.2.length / 64) off).placeUnits unit (off + c.2.length / 64) us

/-- In the upper tier a line written whole has fresh check bits, and reads again (R153). -/
def Frame.freshLines (f : Frame) (off len : Nat) : Frame :=
  if f.place.isUpper then { f with badLines := f.badLines.filter fun l => decide (64 * l < off) || decide (off + len < 64 * l + 64) } else f

/-- Write bytes to a frame. In the lower tier each touched unit is rewritten in new sectors, the image growing by 4 KiB
chunks, and compacted first where it could not grow (R184); none when no sectors can be obtained (R185). -/
def State.writeInPlace (s : State) (n off : Nat) (bs : List Byte) : Option State :=
  match s.frame n with
  | none => none
  | some f =>
    let us := unitsTouched off bs.length
    let s1 := (s.putFrame n off bs).modFrame n fun f => (markDirty us f).freshLines off bs.length
    match f.place with
    | .lower k =>
      let old := s.sectorsOf n us
      let new := s1.sectorsOf n us
      let used := 1 + dirSectors f.size + s.liveSectors n + f.dead
      let grow := 64 * ceilDiv (used + new - f.total) 64
      if f.total + grow > maxTotal then s1.compact n
      else if grow / 64 ≤ s.pkgFree k then
        let cs := f.chunks ++ s.freeChunks k (grow / 64)
        some (s1.modFrame n fun f =>
          { (f.placeUnits (s1.unit n) used us) with total := f.total + grow, dead := f.dead + old, chunks := cs })
      else none
    | _ => some s1

/-- Write bytes to a frame, once it may be written. -/
def State.writeFrame (s : State) (n off : Nat) (bs : List Byte) : Option State := (s.beforeWrite n).writeInPlace n off bs

/-- Write bytes over pieces in order. -/
def State.writePieces : State → List (Nat × Nat × Nat) → List Byte → Option State
  | s, [], _ => some s
  | s, (n, off, len) :: ps, bs =>
    match s.writeFrame n off (bs.take len) with
    | some s => s.writePieces ps (bs.drop len)
    | none => none

/-- The outcome of a write to tenant memory. -/
inductive Wrote where
  | done (s : State)
  | bad (st : Status) (s : State)
  | noSectors

/-- Write a tenant range (R91, R185): a lower-tier unit is read and written (R184). -/
def State.writeTenant (s : State) (y : Payer) (a : Nat) (bs : List Byte) : Wrote :=
  match s.xlate y.tenant a bs.length .write with
  | .error e => .bad e (s.noteFailed y.tenant a bs.length .write)
  | .ok ps =>
    match s.writePieces ps bs with
    | some s' => .done (((s'.chargePieces s y ps).chargePieces s' y ps).heatPieces y.tenant a ps)
    | none => .noSectors

/-! ### Memory that a failed request leaves (R31, R37, R117) -/

/-- Statuses under which every line that a request was to write holds its old or its new contents (R37). -/
def blurs : Status → Bool
  | .timeout | .mediaError | .contextLost | .internal => true
  | _ => false

/-- One line of a result range after a failure: as it was, or free bytes where it is mapped for writing. -/
def State.blurLine (s : State) (y : Payer) (a n : Nat) : State :=
  let (keep, s) := s.draw 2
  if keep = 0 then s
  else
    let (bs, s) := s.drawBytes n
    match s.writeTenant y a bs with
    | .done s => s
    | _ => s

/-- Lines of a result range from `a` to `last`, each old or undefined (DESIGN CHOICE, log 76). -/
def State.blurLines (s : State) (y : Payer) : Nat → Nat → Nat → State
  | 0, _, _ => s
  | n + 1, a, last =>
    let next := a / 64 * 64 + 64
    (s.blurLine y a (min last next - a)).blurLines y n next last

/-- The lines of `bs` from `a` on, each with its old or its new contents (R37). -/
def State.mixLines (s : State) (y : Payer) : Nat → Nat → List Byte → State
  | 0, _, _ => s
  | n + 1, a, bs =>
    if bs.isEmpty then s
    else
      let k := 64 - a % 64
      let (keep, s) := s.draw 2
      let s := if keep = 0 then s else match s.writeTenant y a (bs.take k) with | .done s => s | _ => s
      s.mixLines y n (a + k) (bs.drop k)

/-- What a write that fails by one of these statuses leaves in tenant memory (R37). -/
def State.mix (s : State) (y : Payer) (a : Nat) (bs : List Byte) : State := s.mixLines y (bs.length / 64 + 2) a bs

/-- The result range of a request that has begun to write it holds undefined contents where it was written (R37, R117). -/
def State.blur (s : State) (y : Payer) (a n : Nat) : State := if n = 0 then s else s.blurLines y (n / 64 + 2) a (a + n)

end Sys2Proof.Machine
end

