-- ==== Sys2Proof/Machine/Operands.lean ====
section
/-! DEFINITION. Sys2Proof/Machine/Operands.lean: the fields of a work entry, read as one 512-bit little-endian value: the
common header (R268) and the operand fields, and the opcodes. -/

namespace Sys2Proof.Machine

open Sys2Proof

/-- A bit field of an entry. -/
def fld (e : BitVec 512) (hi lo : Nat) : Nat := bits e.toNat hi lo
def flag (e : BitVec 512) (i : Nat) : Bool := e.getLsbD i

/-! ### Common header (R268) -/

def hdrUser (e : BitVec 512) : Nat := fld e 127 96
def hdrQp (e : BitVec 512) : Nat := fld e 87 64
def hdrReqId (e : BitVec 512) : Nat := fld e 63 32
def hdrTenant (e : BitVec 512) : Nat := fld e 27 16
def hdrEvent (e : BitVec 512) : Bool := flag e 11
def hdrOrder (e : BitVec 512) : Bool := flag e 10
def hdrSilent (e : BitVec 512) : Bool := flag e 9
def hdrRemote (e : BitVec 512) : Bool := flag e 8
def hdrOpcode (e : BitVec 512) : Nat := fld e 7 0

/-! ### Opcodes -/

def opWRITE : Nat := 0x01
def opREAD : Nat := 0x02
def opWRITE_IMM : Nat := 0x03
def opFADD : Nat := 0x04
def opSWAP : Nat := 0x05
def opCAS : Nat := 0x06
def opCAS128 : Nat := 0x07
def opLEDGER_QUERY : Nat := 0x08
def opFENCE : Nat := 0x0C
def opWAIT_COUNT : Nat := 0x0D
def opCONNECT : Nat := 0x10
def opDISCONNECT : Nat := 0x11
def opREG : Nat := 0x18
def opREVOKE : Nat := 0x19
def opWIN_BIND : Nat := 0x1C
def opGEOM_DEFINE : Nat := 0x40
def opGEOM_RELEASE : Nat := 0x41
def opSEQ_CREATE : Nat := 0x42
def opAPPEND : Nat := 0x43
def opFORK : Nat := 0x44
def opSEQ_PIN : Nat := 0x45
def opSEQ_PREEMPT : Nat := 0x46
def opSEQ_RESTORE : Nat := 0x47
def opSEQ_DESTROY : Nat := 0x48
def opSEQ_TRUNCATE : Nat := 0x49
def opSEQ_QUERY : Nat := 0x4A
def opSEQ_FENCE : Nat := 0x4B
def opPAGE_SHARE : Nat := 0x4C
def opMAP : Nat := 0x4D
def opUNMAP : Nat := 0x4E
def opREMAP : Nat := 0x4F
def opATTEND : Nat := 0x50
def opMERGE_OPEN : Nat := 0x51
def opMERGE_CLOSE : Nat := 0x52
def opMERGE_SUBMIT : Nat := 0x53
def opMERGE_ABORT : Nat := 0x54
def opTS_REBUILD : Nat := 0x55
def opTS_READ : Nat := 0x56
def opNB_EXEC : Nat := 0x60
def opTIER_MOVE : Nat := 0x61
def opPS_INSERT : Nat := 0x70
def opPS_REMOVE : Nat := 0x71
def opPS_SEARCH : Nat := 0x72
def opPS_PURGE : Nat := 0x73
def opQUENCH : Nat := 0x80
def opANNEAL : Nat := 0x81

/-- Every opcode that the spec defines (R58, R273 and the opcode tables of chapters 04 to 08 and 11). -/
def opcodeDefined (op : Nat) : Bool :=
  (decide (1 ≤ op) && decide (op ≤ 8)) || op == 0x0C || op == 0x0D || op == 0x10 || op == 0x11 || op == 0x18 || op == 0x19 ||
  op == 0x1C || (decide (0x40 ≤ op) && decide (op ≤ 0x56)) || op == 0x60 || op == 0x61 ||
  (decide (0x70 ≤ op) && decide (op ≤ 0x73)) || op == 0x80 || op == 0x81

/-- Opcodes 0x01 to 0x08 always run at the peer (R268). -/
def opcodeRemoteOnly (op : Nat) : Bool := decide (1 ≤ op) && decide (op ≤ 8)

/-- Opcodes on which REMOTE must be 0 (R269 step 3). -/
def opcodeLocalOnly (op : Nat) : Bool :=
  op == 0x0C || op == 0x0D || op == 0x10 || op == 0x11 || op == 0x18 || op == 0x19 || op == 0x1C

/-- Does an entry use QP (R268)? -/
def usesQp (e : BitVec 512) : Bool :=
  opcodeRemoteOnly (hdrOpcode e) || hdrOpcode e == opDISCONNECT || hdrRemote e

/-- Operands that several opcodes place alike: a handle in [175:128], a tenant address in [319:256] or [191:128]. -/
def opHandle (e : BitVec 512) : Nat := fld e 175 128
def opAddrHigh (e : BitVec 512) : Nat := fld e 319 256
def opAddrLow (e : BitVec 512) : Nat := fld e 191 128

/-! ### Fields of opcodes 0x01 to 0x08 (R286) -/

def remRoff (e : BitVec 512) : Nat := fld e 511 448
def remRkey (e : BitVec 512) : Nat := fld e 447 416
def remLkey (e : BitVec 512) : Nat := fld e 415 384
def remLoff (e : BitVec 512) : Nat := fld e 383 320
def remLen (e : BitVec 512) : Nat := fld e 319 288
def remImm (e : BitVec 512) : Nat := fld e 287 256
def remOpa (e : BitVec 512) : Nat := fld e 255 192
def remOpb (e : BitVec 512) : Nat := fld e 191 128

/-! ### Fields of APPEND (R70) -/

def apSrcOffset (e : BitVec 512) : Nat := fld e 447 384
def apSrcV (e : BitVec 512) : Nat := fld e 359 356
def apSrcK (e : BitVec 512) : Nat := fld e 355 352
def apSrcKey (e : BitVec 512) : Nat := fld e 351 320
def apExpect (e : BitVec 512) : Nat := fld e 287 256
def apTokens (e : BitVec 512) : Nat := fld e 255 224
def apNoPreempt (e : BitVec 512) : Bool := flag e 209
def apWait (e : BitVec 512) : Bool := flag e 208
def apLcount (e : BitVec 512) : Nat := fld e 207 192
def apLfirst (e : BitVec 512) : Nat := fld e 191 176

/-! ### Where TS_READ and PS_SEARCH write (R138, R219) -/

def trDest (e : BitVec 512) : Nat := fld e 319 256
def trCount (e : BitVec 512) : Nat := fld e 255 224
def pqRaddr (e : BitVec 512) : Nat := fld e 511 448
def pqCount (e : BitVec 512) : Nat := fld e 383 352

/-! ### Fields of ATTEND (R102) -/

def atResult (e : BitVec 512) : Nat := fld e 511 448
def atQuery (e : BitVec 512) : Nat := fld e 447 384
def atTable (e : BitVec 512) : Nat := fld e 383 320
def atScale (e : BitVec 512) : F32 := BitVec.ofNat 32 (fld e 319 288)
def atSoftcap (e : BitVec 512) : F32 := BitVec.ofNat 32 (fld e 287 256)
def atTau (e : BitVec 512) : Nat := fld e 255 240
def atBudget (e : BitVec 512) : Nat := fld e 239 224
def atWindow (e : BitVec 512) : Nat := fld e 223 200
def atSinks (e : BitVec 512) : Nat := fld e 199 184
def atRows (e : BitVec 512) : Nat := fld e 183 171
def atHq (e : BitVec 512) : Nat := fld e 170 160
def atLayer (e : BitVec 512) : Nat := fld e 159 151
def atQfmt (e : BitVec 512) : Nat := fld e 150 147
def atOfmt (e : BitVec 512) : Nat := fld e 146 143
def atSkip (e : BitVec 512) : Nat := fld e 142 141
def atDest (e : BitVec 512) : Nat := fld e 140 139
def atInline (e : BitVec 512) : Bool := flag e 138
def atWait (e : BitVec 512) : Bool := flag e 137
def atNormalise (e : BitVec 512) : Bool := flag e 136
def atCounts (e : BitVec 512) : Bool := flag e 135
def atPb (e : BitVec 512) : Bool := flag e 134
def atCausal (e : BitVec 512) : Bool := flag e 133

end Sys2Proof.Machine
end

