-- ==== Sys2Proof/Machine/Requests.lean ====
section
/-! DEFINITION. Sys2Proof/Machine/Requests.lean: requests in progress: looking one up, ending it, letting it wait and
waking it (DESIGN CHOICE, log 19), region keys (R284), and the composition and class a request runs under. -/

namespace Sys2Proof.Machine

open Sys2Proof

def State.req (s : State) (r : Nat) : Option Req := s.reqs.find? (·.id == r)

def State.modReq (s : State) (r : Nat) (f : Req → Req) : State := { s with reqs := modWhere (·.id == r) f s.reqs }

/-- A request's effects are over: it ends with this status and result (R16). REQUEST_END then reports it. -/
def State.endReq (s : State) (r : Nat) (st : Status) (result : Nat := 0) : State :=
  s.modReq r fun q => { q with phase := .ended st result }

/-- A request ends because a read of its tenant's memory failed. -/
def State.endRead (s : State) (q : Req) (a n : Nat) (st : Status) : State := (s.noteFailed q.tenant a n .read).endReq q.id st

/-- A request waits, its checks passed; its row runs again once it is woken (DESIGN CHOICE, log 19). -/
def State.waitReq (s : State) (r : Nat) (w : Wait) : State :=
  s.modReq r fun q => { q with phase := .waiting w, accepted := true }

/-- Let every request that waits for `w` run again. -/
def State.wake (s : State) (w : Wait) : State :=
  { s with reqs := modWhere (fun q => q.phase == .waiting w) (fun q => { q with phase := .started }) s.reqs }

def Req.live (q : Req) : Bool :=
  match q.phase with
  | .ended _ _ => false
  | _ => true

def Req.op (q : Req) : Nat := hdrOpcode q.entry

/-- Does the request run on this node rather than at its peer (R268, R274)? -/
def Req.isLocal (q : Req) : Bool :=
  match q.origin with
  | .queue _ => (!hdrRemote q.entry || decide (0x74 ≤ q.op)) && !opcodeRemoteOnly q.op
  | .remote _ _ => q.remote.isNone
  | .mailbox _ => true
  | .window _ => false
  | .stream _ => false

/-- A privileged read holds the request up (R187). -/
def State.stalled (s : State) (r : Nat) : Bool := s.mem.stalls.any fun x => x.req == some r

/-- A request of a connection that began before another, in SOM PSN order (R290): PSNs are compared as R245 gives. -/
def Req.before (x q : Req) : Bool :=
  match x.origin, q.origin with
  | .remote c a, .remote d b => c == d && decide (1 ≤ (b + 2 ^ 32 - a) % 2 ^ 32) && decide ((b + 2 ^ 32 - a) % 2 ^ 32 < 2 ^ 31)
  | _, _ => false

/-- ORDER: at the target the request begins only after every earlier request of its connection has ended there (R268,
R290). -/
def State.orderOk (s : State) (q : Req) : Bool :=
  q.accepted || !hdrOrder q.entry || !s.reqs.any fun x => x.live && x.before q

/-- Run an opcode's row on a request: it has started, runs here, carries one of the opcodes, and the core runs. Any other
naming has no effect (DESIGN CHOICE, log 5). What it moves of the lower tier passes the controllers there (R314). -/
def State.runReq (s : State) (r : Nat) (ops : List Nat) (f : Req → State → State) : State :=
  match s.req r with
  | some q =>
    if q.phase == .started && q.isLocal && ops.contains q.op && s.coreRuns && !s.stalled r && s.orderOk q then s.gated q (f q) else s
  | none => s

/-- End with the first check that fails, or go on. -/
def State.checked (s : State) (r : Nat) (checks : List (Bool × Status)) (go : State → State) : State :=
  match firstFail checks with
  | some st => s.endReq r st
  | none => go s

/-- A frame is moving for a TIER_MOVE. -/
def Frame.movesFor (f : Frame) (r : Nat) : Bool := match f.mig with | some m => m.req == some r | none => false

/-- End the TIER_MOVEs whose moves are all over (R203); those that waited for a migration to end look again (R209). -/
def State.tierEnd (s : State) : State :=
  let done := fun q : Req => q.phase == .waiting .tier && !s.mem.frames.any fun f => f.movesFor q.id
  { s with reqs := modWhere done (fun q =>
      if q.tierLeft.isEmpty then { q with phase := .started } else { q with phase := .ended .ok q.count }) s.reqs }

/-! ### Region keys (R284) -/

def State.region (s : State) (slot : Nat) : Option Region := s.fab.regions.find? (·.slot == slot)

def State.modRegion (s : State) (slot : Nat) (f : Region → Region) : State :=
  { s with fab := { s.fab with regions := modWhere (·.slot == slot) f s.fab.regions } }

/-- What a use of a key needs. -/
inductive KeyRight where
  | localR | localW | localRW | remoteR | remoteW | remoteA
  deriving DecidableEq, Repr

def Region.allows (g : Region) : KeyRight → Bool
  | .localR => g.localR
  | .localW => g.localW
  | .localRW => g.localR && g.localW
  | .remoteR => g.remoteR
  | .remoteW => g.remoteW
  | .remoteA => g.remoteA

def KeyRight.isRemote : KeyRight → Bool
  | .remoteR | .remoteW | .remoteA => true
  | _ => false

/-- The ordered checks of a key (R284): the region, or the status. `comp` is the connection's COMP_ID for a remote use. -/
def State.useKey (s : State) (key tenant comp : Nat) (need : KeyRight) (off len : Nat) : Except Status Region :=
  match s.region (key / 256) with
  | none => .error .keyFault
  | some g =>
    if key % 256 = 0 ∨ g.gen ≠ key % 256 then .error .keyFault
    else if g.tenant ≠ tenant then .error .keyFault
    else if need.isRemote ∧ !g.anyComp ∧ g.comp ≠ comp then .error .keyFault
    else if !g.allows need then .error .keyFault
    else if off + len > g.length then .error .rangeFault
    else .ok g

/-- Use a key for a request: checked once, at acceptance (R284); until the request ends the region counts it in flight. -/
def State.holdKey (s : State) (q : Req) (key : Nat) (need : KeyRight) (off len : Nat) : Except Status (Region × State) :=
  match (if q.uses.contains (key / 256) then s.region (key / 256) else none) with
  | some g => .ok (g, s)
  | none =>
    match s.useKey key q.tenant (match s.comps.find? (·.slot == q.comp) with | some c => c.id | none => 0) need off len with
    | .error e => .error e
    | .ok g => .ok (g, s.modReq q.id fun q => { q with uses := q.uses ++ [key / 256] })

/-- Tenant address of an offset of a region. -/
def State.keyAddr (s : State) (key off : Nat) : Nat := ((s.region (key / 256)).map (·.base)).getD 0 + off

/-- Requests that hold a region in flight (R284). -/
def State.regionUses (s : State) (slot : Nat) : Nat := (s.reqs.filter fun q => q.live && q.uses.contains slot).length

/-- A registered NODE region of the tenant covers part of a range (R99, R283). -/
def State.regionOver (s : State) (t a len : Nat) : Bool :=
  s.fab.regions.any fun g => g.tenant == t && !g.host && decide (g.base < a + len) && decide (a < g.base + g.length)

end Sys2Proof.Machine
end

