-- ==== Sys2Proof/Machine/Broadcast.lean ====
section
/-! DEFINITION. Sys2Proof/Machine/Broadcast.lean: broadcast commands (R157, R168, R171, R172): the words that dispatch writes, the work
lists and how a unit cuts them into steps (R173); which unit takes work at a place (R179). -/

namespace Sys2Proof.Machine

open Sys2Proof

/-! ### Units in and out of service (R397) -/

/-- OPER of a logical unit: IN_SERVICE unless a record says otherwise, ABSENT beyond what is fitted (DESIGN CHOICE, log 11). -/
def State.oper (s : State) (c : UnitClass) (u : Nat) : Oper :=
  match s.eng.oper.find? fun x => x.cls == c && x.unit == u with
  | some x => x.oper
  | none => if u < s.variant.count c then .inService else .absent

/-- The unit takes new work. -/
def State.inService (s : State) (c : UnitClass) (u : Nat) : Bool := s.oper c u == .inService

/-- The near-bank unit that takes work at a place; none: it is forwarded to the attention cores (R179). -/
def State.unitAt (s : State) : Place → Option Nat
  | .upper c _ => if s.variant.nearBank && s.inService .nearBank c then some c else none
  | _ => none

/-- The unit that takes work on a frame where it lies now. -/
def State.unitFor (s : State) (n : Nat) : Option Nat := s.unitAt (s.placeOf n)

/-! ### Rates (R151), in ps -/

/-- ps at 76.8 GB/s. -/
def bankPs (bytes : Nat) : Nat := ceilDiv (bytes * 10000) 768

/-- ps at 19.2 GB/s, the rate of a channel's boundary (R151, R179). -/
def forwardPs (bytes : Nat) : Nat := ceilDiv (bytes * 10000) 192

/-- ps of `n` FP32 operations, and of `n` results of the 16 x 10^9 per second functions. -/
def fp32Ps (n : Nat) : Nat := 8 * n
def funcPs (n : Nat) : Nat := n * 125 / 2

/-- Longest planned step: 750 ns (R173). -/
def stepPs : Nat := 750000

/-- Steps of a piece of work. -/
def stepsOf (planned : Nat) : Nat := max 1 (ceilDiv planned stepPs)

/-! ### Work and its steps (R173) -/

/-- Work of one unit: its work-list entries, and the piece that it cuts: `n` lines, or, where `blocks` is set, `n` blocks at whose
boundaries the unit may cut. -/
structure Work where
  entries : List (BitVec 128)
  item : Nat
  n : Nat
  planned : Nat
  blocks : Bool := false

/-- A piece that fits a step, or a step of one that does not; the planned time, and whether it stands alone. -/
structure Cut where
  part : Part
  planned : Nat
  alone : Bool := false

/-- Cut one piece: at its blocks, or, where it does not fit a step, into steps of equal line counts. -/
def Work.cuts (w : Work) : List Cut :=
  if w.blocks then (List.range w.n).map fun i => ⟨{ item := w.item, lo := i, hi := i + 1, n := w.n, first := i == 0 }, ceilDiv w.planned w.n, false⟩
  else if w.planned ≤ stepPs then [⟨{ item := w.item, lo := 0, hi := w.n, n := w.n }, w.planned, false⟩]
  else
    let k := stepsOf w.planned
    (List.range k).map fun i =>
      ⟨{ item := w.item, lo := w.n * i / k, hi := w.n * (i + 1) / k, n := w.n, first := i == 0 }, ceilDiv w.planned k, true⟩

/-- Append a part to a step's parts; blocks of one row that follow each other make one part. -/
def addPart (p : Part) : List Part → List Part
  | [] => [p]
  | [x] => if x.item = p.item ∧ x.hi = p.lo then [{ x with hi := p.hi }] else [x, p]
  | x :: l => x :: addPart p l

/-- Pieces in order fill one step after another, while their planned times fit (DEDUCED, log 40). -/
def fillSteps : List Cut → List Part × Nat → List (List Part × Nat)
  | [], acc => if acc.1.isEmpty then [] else [acc]
  | c :: cs, acc =>
    let flush := if acc.1.isEmpty then [] else [acc]
    if c.alone then flush ++ [([c.part], c.planned)] ++ fillSteps cs ([], 0)
    else if acc.2 + c.planned ≤ stepPs then fillSteps cs (addPart c.part acc.1, acc.2 + c.planned)
    else flush ++ fillSteps cs ([c.part], c.planned)

/-! ### The command (R157) -/

/-- Operation codes that only the node issues (R154). -/
def nbTOUCH : Nat := 6
def nbCOPY : Nat := 7

/-- CLASS: serving, LOAN, node. -/
def classCode (loan node : Bool) : Nat := if node then 2 else if loan then 1 else 0

/-- A command's word before GROUP, DSLOT and WLBASE are known; `body` is [511:128]. -/
def cmdWord (op : Nat) (j : Job) (body : Nat) : BitVec 512 :=
  BitVec.ofNat 512 (body * 2 ^ 128 + j.req % 2 ^ 32 * 2 ^ 96 + j.tenant * 2 ^ 84 + classCode j.loan j.node * 2 ^ 82 + op)

def NbCmd.op (c : NbCmd) : Nat := fld c.word 3 0
def NbCmd.base (c : NbCmd) : Nat := fld c.word 69 59
def NbCmd.dslot (c : NbCmd) : Nat := fld c.word 73 70
def NbCmd.cls (c : NbCmd) : Nat := fld c.word 83 82
/-- WAVE of a work-list entry (R168), and MODE of a TOUCHSTONE_BUILD (R171). -/
def entryWave (e : BitVec 128) : Nat := bits e.toNat 25 24
def NbCmd.mode (c : NbCmd) : Nat := fld c.word 429 428

/-- Stacks of a command's group. -/
def NbCmd.stacks (c : NbCmd) : List Nat := (c.lists.map fun l => l.1 / 128).dedup

/-- A unit that receives it ends the command with INTERNAL (R157, R168, R171). -/
def NbCmd.refused (c : NbCmd) : Bool :=
  c.cls == 3 || decide (8 ≤ c.op) || (c.op == 0 && c.lists.any fun l => l.2.any fun e => entryWave e == 3) ||
  (c.op == nbTOUCH && decide (2 ≤ c.mode))

/-- Resources of R151: work-list entries and queued commands of a unit, command slots of a stack. -/
def listEntries : Nat := 2048
def queueDepth : Nat := 16
def cmdSlots : Nat := 16

/-- Fill in GROUP, DSLOT and WLBASE; for a loan operation the descriptor's slot stands in BODY too. -/
def NbCmd.place (c : NbCmd) (slot base : Nat) : BitVec 512 :=
  c.word ||| BitVec.ofNat 512 ((c.stacks.foldl (fun a k => a + 2 ^ k) 0) * 2 ^ 74 + slot * 2 ^ 70 + base * 2 ^ 59 +
    (if decide (1 ≤ c.op) && decide (c.op ≤ 5) then slot * 2 ^ 128 else 0))

/-- Entries that a unit's list still takes from the front of some work. -/
def takeList : Nat → List Work → List Work × List Work
  | _, [] => ([], [])
  | room, w :: ws =>
    if w.entries.length ≤ room then let x := takeList (room - w.entries.length) ws; (w :: x.1, x.2) else ([], w :: ws)

/-- The steps of a unit for a command. -/
def stepJobs (j : Job) (ws : List Work) : List Job :=
  (fillSteps (ws.flatMap Work.cuts) ([], 0)).map fun x => { j with parts := x.1, planned := x.2 }

/-- Build the commands of some work, each with as much of every unit's list as its work-list memory takes (DESIGN CHOICE, log 40);
they are issued once their units have room. -/
def State.broadcast : Nat → Job → Nat → Nat → List Byte → List (Nat × List Work) → State → State
  | 0, _, _, _, _, _, s => s
  | k + 1, j, op, body, slot, ws, s =>
    let now := (ws.map fun w => (w.1, (takeList listEntries w.2).1)).filter fun w => !w.2.isEmpty
    let later := (ws.map fun w => (w.1, (takeList listEntries w.2).2)).filter fun w => !w.2.isEmpty
    if now.isEmpty then s
    else
      let n := s.eng.nextCmd
      let c : NbCmd := { num := n, req := j.req, word := cmdWord op j body, slot := slot,
                         lists := now.map fun w => (w.1, w.2.flatMap (·.entries)),
                         steps := now.map fun w => (w.1, stepJobs { j with cmd := some n } w.2) }
      State.broadcast k j op body slot later { s with eng := { s.eng with cmds := s.eng.cmds ++ [c], nextCmd := n + 1 } }

/-- Gather work by unit, in the order in which it comes. -/
def byUnit (ws : List (Nat × Work)) : List (Nat × List Work) :=
  ((ws.map (·.1)).dedup).map fun n => (n, (ws.filter (·.1 == n)).map (·.2))

/-- A piece of touchstone or copy work for the attention cores (R133, R179); it begins when a core is free. -/
def State.queueCore (s : State) (j : Job) (planned : Nat) : State :=
  let (q, s) := s.enqueue .cores s.eng.coreQueue { j with planned := planned }
  { s with eng := { s.eng with coreQueue := q } }

/-- A request number that no request bears, for work of the node itself. -/
def nodeReq : Nat := 2 ^ 64

/-- Touchstone or copy work of `bytes` bytes, whether of the node or of a request: the command for the unit of a frame, or a piece for the
cores (R171, R179). -/
def State.bareWork (s : State) (j : Job) (frame op body : Nat) (slot : List Byte) (bytes near : Nat) : State :=
  let j := { j with bare := true }
  let n := max 1 (ceilDiv bytes 64)
  match s.unitFor frame with
  | some u => s.broadcast 1 j op body slot [(u, [{ entries := [BitVec.ofNat 128 (frame * 2 ^ 64)], item := 0, n := n, planned := near }])]
  | none => s.queueCore { j with parts := [{ item := 0, lo := 0, hi := n, n := n }] } (forwardPs bytes)

/-- Work of the node for a tenant (R154, R314). -/
def nodeJob (t : Nat) : Job := { req := nodeReq, parts := [], tenant := t, comp := noComp, loan := false, node := true }

/-! ### COPY (R172) -/

/-- The body of a COPY. -/
def copyBody (src dst off len : Nat) : Nat := (src * 2 ^ 480 + dst * 2 ^ 448 + off * 2 ^ 416 + len * 2 ^ 384) / 2 ^ 128

/-- Copy the lines of a byte range between two upper-tier places, step by step, on the destination's unit (R172). A frame that moves to
another place keeps its number, so that its contents need no line written. -/
def State.copyWork (s : State) (j : Job) (src dst : Nat) (from_ to_ : Place) (off len : Nat) : State :=
  let a := off / 64 * 64
  let n := roundUp (off + len) 64 - a
  match from_, to_ with
  | .upper c _, .upper d _ =>
    let near := if c = d then bankPs (2 * n) else max (bankPs n) (forwardPs n)
    let j := { j with node := true, bare := true, copy := if src = dst then none else some ⟨src, dst, a⟩ }
    let body := copyBody src dst a n
    match s.unitAt to_ with
    | some u => s.broadcast 1 j nbCOPY body [] [(u, [{ entries := [BitVec.ofNat 128 (dst * 2 ^ 64)], item := 0, n := n / 64, planned := near }])]
    | none => s.queueCore { j with parts := [{ item := 0, lo := 0, hi := n / 64, n := n / 64 }] } (forwardPs (2 * n))
  | _, _ => s

end Sys2Proof.Machine
end

