-- ==== Sys2Proof/Machine/Pages.lean ====
section
/-! DEFINITION. Sys2Proof/Machine/Pages.lean: geometry sizes (R62-R64), the pages of a sequence (R66, R67), stored K and V
vectors, touchstone blocks (R129-R134), victims and swap-out (R83-R85, R204, R205), and restore (R86, R207, R473). -/

namespace Sys2Proof.Machine

open Sys2Proof

/-! ### Geometry -/

def Geom.kb (g : Geom) : Nat := vecBytes g.kfmt g.d
def Geom.vb (g : Geom) : Nat := if g.latent then 0 else vecBytes g.vfmt g.d
/-- P of R62. -/
def Geom.pageBytes (g : Geom) : Nat := 256 * g.hkv * (g.kb + g.vb)
/-- F of R63. -/
def frameBytes (p : Nat) : Nat := max granule (2 ^ clog2 p)
def Geom.frame (g : Geom) : Nat := frameBytes g.pageBytes
/-- Bytes of a touchstone block (R129). -/
def Geom.blockBytes (g : Geom) : Nat := g.hkv * 4 * g.d
/-- Elements of o (R61). -/
def Geom.dvOut (g : Geom) : Nat := if g.latent then g.dv else g.d

/-- Offset of K and of V of head h and slot t (R64). -/
def Geom.kOff (g : Geom) (h t : Nat) : Nat := (h * 256 + t) * g.kb
def Geom.vOff (g : Geom) (h t : Nat) : Nat := 256 * g.hkv * g.kb + (h * 256 + t) * g.vb

/-- INT8 channel scales of K (false) or V (true) of a layer and head (R60). -/
def Geom.chanScales (g : Geom) (layer : Nat) (v : Bool) (h : Nat) : List (BitVec 16) :=
  let i := if g.latent then layer * g.d else (layer * 2 + b2n v) * g.hkv * g.d + h * g.d
  (g.scales.drop i).take g.d

def State.geom (s : State) (t id : Nat) : Option Geom := s.geoms.find? fun g => g.tenant == t && g.id == id

/-! ### Sequences -/

def State.seqAt (s : State) (idx : Nat) : Option Seq := s.seqs.find? (·.idx == idx)
def State.modSeq (s : State) (idx : Nat) (f : Seq → Seq) : State := { s with seqs := modWhere (·.idx == idx) f s.seqs }

/-- Highest handle index that the node issues (R65). -/
def maxSeqIndex : Nat := 16777215

def Seq.handle (q : Seq) : Nat := q.idx * 65536 + q.gen

def Seq.pmax (q : Seq) : Nat := ceilDiv q.cap 256
def Seq.length (q : Seq) : Nat := match q.fills with | [] => 0 | x :: xs => xs.foldl min x
def Seq.maxFill (q : Seq) : Nat := q.fills.foldl max 0
def Seq.fill (q : Seq) (l : Nat) : Nat := q.fills.getD l 0

/-- A handle's sequence for a tenant. A request that was accepted before SEQ_DESTROY still finds it (R81). -/
def State.findSeq (s : State) (t handle : Nat) (accepted : Bool := false) : Option Seq :=
  match s.seqAt (handle / 65536) with
  | none => none
  | some q =>
    if handle % 65536 ≠ 0 ∧ q.gen = handle % 65536 ∧ q.tenant = t ∧ (!q.destroying ∨ accepted) then some q else none

/-- Is the sequence's descriptor lost (R188)? -/
def State.descLost (s : State) (q : Seq) : Bool := (q.tenant, MetaKind.seqDesc, q.idx) ∈ s.mem.lost

/-- Bytes of the virtual range (R67). -/
def rangeBytes (layers pmax f : Nat) : Nat := roundUp (layers * pmax * f) mib8

def State.seqFrameBytes (s : State) (q : Seq) : Nat := match s.geom q.tenant q.geom with | some g => g.frame | none => granule

def State.seqRange (s : State) (q : Seq) : Nat := rangeBytes q.fills.length q.pmax (s.seqFrameBytes q)

/-- Does a sequence range of the tenant touch a range? -/
def State.seqRangeIn (s : State) (t a len : Nat) : Bool :=
  s.seqs.any fun q => q.tenant == t && decide (q.base < a + len) && decide (a < q.base + s.seqRange q)

/-- Tenant address of page p of layer l (R67). -/
def Seq.pageAddr (q : Seq) (f l p : Nat) : Nat := q.base + (l * q.pmax + p) * f

def State.pageMap (s : State) (q : Seq) (l p : Nat) : Option Mapping :=
  let a := q.pageAddr (s.seqFrameBytes q) l p
  s.mem.maps.find? fun m => m.tenant == q.tenant && m.addr == a && m.seq

/-- The frame of a page, wherever it lies. -/
def State.pageFrame (s : State) (q : Seq) (l p : Nat) : Option Frame :=
  match s.pageMap q l p with
  | some m => s.frame m.frame
  | none => none

/-- Every mapping of a sequence. -/
def State.seqMaps (s : State) (q : Seq) : List Mapping :=
  s.mem.maps.filter fun m => m.seq && m.tenant == q.tenant && decide (q.base ≤ m.addr) && decide (m.addr < q.base + s.seqRange q)

/-- The layer and page of an address of a sequence's range. -/
def Seq.pageOf (q : Seq) (f a : Nat) : Nat × Nat := let i := (a - q.base) / f; (i / max 1 q.pmax, i % max 1 q.pmax)

/-- Sequences that map a frame, with the layer and page at which they do. -/
def State.frameUsers (s : State) (n : Nat) : List (Seq × Nat × Nat) :=
  s.seqs.flatMap fun q => (s.seqMaps q).filterMap fun m =>
    if m.frame = n then let lp := q.pageOf (s.seqFrameBytes q) m.addr; some (q, lp.1, lp.2) else none

/-- Sequences that map a frame, and mappings of MAP (R77). -/
def State.sharers (s : State) (n : Nat) : Nat :=
  (s.seqs.filter fun q => (s.seqMaps q).any (·.frame == n)).length + (s.mem.maps.filter fun m => m.frame == n && !m.seq).length

/-- An edit that begins or ends the sharing of a frame changes COW in its other entries: the lines that those fed are invalidated (R94). -/
def State.cowEdit (s0 s : State) (n : Nat) : State :=
  if decide (1 < s0.sharers n) = decide (1 < s.sharers n) then s else s.tlbDrop (·.2.2 == n)

/-- The frames of a sequence, each once. -/
def State.seqFrames (s : State) (q : Seq) : List Nat := ((s.seqMaps q).map (·.frame)).dedup

/-- Remove prefix entries, and count them (R227). -/
def State.psDrop (s : State) (p : PsSlot → Bool) : State :=
  ({ s with ps := dropWhere p s.ps }).count 0x6200 6 (s.ps.filter p).length

/-- Remove the prefix entries of a sequence for pages that do not lie wholly below `len` (R217). -/
def State.psForget (s : State) (handle len : Nat) : State :=
  s.psDrop fun e => e.handle == handle && decide (len < 256 * (e.page + 1))

/-! ### Table entries (R89, R90) -/

/-- Type codes of a table entry. -/
def entTABLE : Nat := 1
def entLEAF : Nat := 2
def entSWAPPED : Nat := 3

/-- An INVALID entry: RSV where the granule or the 8 MiB belongs to a sequence range. -/
def entryInvalid (rsv : Bool) : BitVec 64 := BitVec.ofNat 64 (b2n rsv * 2 ^ 2)

/-- A TABLE entry. -/
def entryTable (page : Nat) : BitVec 64 := BitVec.ofNat 64 (page * 2 ^ 28 + entTABLE)

/-- The rights and the size of a LEAF or SWAPPED entry. -/
def entryRights (m : Mapping) (size : Nat) (cow : Bool) : Nat :=
  clog2 (size / granule) * 2 ^ 24 + b2n cow * 2 ^ 23 + b2n m.w * 2 ^ 22 + b2n m.r * 2 ^ 21 + b2n m.seq * 2 ^ 20

/-- The entry of a mapping, wherever its frame lies. -/
def State.entryMapped (s : State) (m : Mapping) : BitVec 64 :=
  let rights := entryRights m (s.frameSize m.frame) (decide (1 < s.sharers m.frame))
  match s.placeOf m.frame with
  | .swap a _ => BitVec.ofNat 64 (a * 2 ^ 28 + rights + entSWAPPED)
  | _ => BitVec.ofNat 64 (m.frame * 2 ^ 28 + rights + m.gen * 2 ^ 8 + entLEAF)

/-- The table entry of `level` for a tenant address, as the node keeps it (R89, R90): what the mappings, the table pages and the sequence
ranges give. An 8 MiB frame has its LEAF at level 1, any other at level 0. -/
def State.tableEntry (s : State) (t level a : Nat) : BitVec 64 :=
  match s.mapAt t a with
  | some m => if leafLow (s.frameSize m.frame) = level then s.entryMapped m else tableBelow
  | none => if level = 0 ∨ tableBelow = 0 then entryInvalid (decide (level ≤ 1) && s.seqRangeIn t (a / 2 ^ (14 + 9 * level) * 2 ^ (14 + 9 * level)) (2 ^ (14 + 9 * level))) else tableBelow
where
  /-- The TABLE entry that names the page below, or 0. -/
  tableBelow : BitVec 64 :=
    match s.mem.tpages.find? fun p => level != 0 && p.tenant == t && p.level + 1 == level && p.index == tableIndex p.level a with
    | some p => entryTable p.num
    | none => 0

/-- Bytes of a table page: 512 little-endian entries (R88). -/
def State.tableBytes (s : State) (p : TablePage) : List Byte :=
  (List.range 512).flatMap fun i => leBytes 8 (s.tableEntry p.tenant p.level ((512 * p.index + i) * 2 ^ (14 + 9 * p.level))).toNat

/-- A table page as its copies store it, under the node metadata key (R310, log 14). -/
def State.tableStored (s : State) (p : TablePage) : List Byte := Config.metaSeal (Config.metaKey s.node.metaKey) p.num (s.tableBytes p)

/-- Count numerical exceptions of a tenant (R43). -/
def State.countExc (s : State) (t : Nat) (e : Exc) : State :=
  (s.count (0x4000 + t) 0x50 e.sat).count (0x4000 + t) 0x51 e.nanInt

/-! ### Stored vectors -/

/-- K of a slot, decoded (R41). -/
def State.slotK (s : State) (g : Geom) (layer n h t : Nat) : List F32 :=
  decodeVec g.kfmt g.d (g.chanScales layer false h) (s.readFrame n (g.kOff h t) g.kb)

/-- V of a slot, decoded; in latent mode the leading DV elements of the shared vector (R61). -/
def State.slotV (s : State) (g : Geom) (layer n h t : Nat) : List F32 :=
  if g.latent then (s.slotK g layer n 0 t).take g.dv
  else decodeVec g.vfmt g.d (g.chanScales layer true h) (s.readFrame n (g.vOff h t) g.vb)

/-! ### Touchstones (R129-R134) -/

def tsMin0 : BitVec 16 := 0x7F80
def tsMax0 : BitVec 16 := 0xFF80
def tsNan : BitVec 16 := 0x7FC0

/-- The block's values, reset values where none is stored. -/
def Touch.all (g : Geom) (t : Touch) : List (BitVec 16 × BitVec 16) :=
  if t.vals.isEmpty then List.replicate (g.hkv * g.d) (tsMin0, tsMax0) else t.vals

def bf16Lt (a b : BitVec 16) : Bool := Num.lt (Fmt.bf16.decode a.toNat) (Fmt.bf16.decode b.toNat)

/-- `a` is +0 where `b` is −0: the greater of the two zeros (R49). -/
def bf16Zero (a b : BitVec 16) : Bool := a == 0 && b == 0x8000

/-- Widen one channel by one element (R130); of two zeros MIN keeps the one that came first (DESIGN CHOICE, log 88). -/
def widenOne (v : BitVec 16 × BitVec 16) (x : F32) : BitVec 16 × BitVec 16 :=
  if v.1 = tsNan ∧ v.2 = tsNan then v
  else if x.isNan then (tsNan, tsNan)
  else
    let lo := bf16Down x
    let hi := bf16Up x
    (if bf16Lt lo v.1 then lo else v.1, if bf16Lt v.2 hi || bf16Zero hi v.2 then hi else v.2)

/-- Widen a head's part by a K vector. -/
def widenVec : List (BitVec 16 × BitVec 16) → List F32 → List (BitVec 16 × BitVec 16)
  | v :: vs, x :: xs => widenOne v x :: widenVec vs xs
  | vs, _ => vs

/-- Does a bound hold an infinity or a NaN after covering a slot (R132)? -/
def nonFinite (v : BitVec 16 × BitVec 16) : Bool :=
  v != (tsMin0, tsMax0) &&
  ((toF32 (Fmt.bf16.decode v.1.toNat)).special || (toF32 (Fmt.bf16.decode v.2.toNat)).special)

/-- Widen the parts of every head by slots `[from, to)` of a frame. -/
def State.widenVals (s : State) (g : Geom) (layer n lo hi : Nat) (vals : List (BitVec 16 × BitVec 16)) :
    List (BitVec 16 × BitVec 16) :=
  (List.range g.hkv).flatMap fun h =>
    (List.range (hi - lo)).foldl (fun v i => widenVec v (s.slotK g layer n h (lo + i))) ((vals.drop (h * g.d)).take g.d)

/-- R133: widen a frame's touchstone by written slots and raise COVER. -/
def State.widenTouch (s : State) (g : Geom) (layer n lo hi : Nat) : State :=
  match s.frame n with
  | some f =>
    match f.touch with
    | some t =>
      let vals := s.widenVals g layer n lo hi (t.all g)
      s.modFrame n fun f => { f with touch := some { t with vals := vals, cover := max t.cover hi, nonfin := t.nonfin || vals.any nonFinite } }
    | none => s
  | none => s

/-- A K line of the slots below `count` holds an uncorrectable error that stands. -/
def State.keysBad (s : State) (g : Geom) (n count : Nat) : Bool :=
  (List.range g.hkv).any fun h => s.meetsBad n (g.kOff h 0) (count * g.kb)

/-- R134: rebuild a frame's touchstone from its slots below `count` into a new block, the old one quarantined. The flag
tells whether a block was obtained and the keys could be read (R131, R149). -/
def State.rebuildTouch (s : State) (g : Geom) (layer n count : Nat) : Bool × State :=
  match s.frame n with
  | none => (false, s)
  | some f =>
    if s.keysBad g n count then (false, s)
    else
      match s.placeBlock f.tenant f.home g.blockBytes with
      | none => (false, s)
      | some (b, s1) =>
        if s.framesUsed f.tenant < s1.framesUsed f.tenant ∧ s.frameMax f.tenant < s1.framesUsed f.tenant then (false, s) else
        let s := s1
        let vals := s.widenVals g layer n 0 count (List.replicate (g.hkv * g.d) (tsMin0, tsMax0))
        let s := match f.touch with
          | some t => s.quarantine f.tenant (.block t.block)
          | none => s
        (true, s.modFrame n fun f => { f with touch := some { block := b, cover := count, nonfin := vals.any nonFinite, vals := vals } })

/-- MODE of a TOUCHSTONE_BUILD (R171): widen, rebuild. -/
def tbWiden : Nat := 0
def tbRebuild : Nat := 1

/-- The body of a TOUCHSTONE_BUILD (R171). -/
def touchBody (g : Geom) (frame block lo count mode srcK srcV : Nat) : Nat :=
  (frame * 2 ^ 480 + block * 2 ^ 448 + lo * 2 ^ 439 + count * 2 ^ 430 + mode * 2 ^ 428 + g.kfmt * 2 ^ 424 + g.vfmt * 2 ^ 420 +
    srcK * 2 ^ 416 + srcV * 2 ^ 412 + g.d * 2 ^ 396 + g.hkv * 2 ^ 387 + b2n g.latent * 2 ^ 386) / 2 ^ 128

/-- The unit, or the core, that has widened or rebuilt a frame's block is busy for it (R133, R171): local and foreign bytes, and a
comparison for each bound of each element (DESIGN CHOICE, log 17). The effect on slots and block is the request's. -/
def State.touchWork (s : State) (j : Job) (g : Geom) (n lo count mode srcK srcV : Nat) (tokens : List Byte) : State :=
  match (s.frame n).bind (·.touch) with
  | none => s
  | some t =>
    let slots := if mode = tbWiden then count * g.hkv * (g.kb + g.vb) else (lo + count) * g.hkv * g.kb
    let blk := g.blockBytes * (if mode = tbWiden then 2 else 1)
    let home := match s.placeOf n with | .upper c _ => c == t.block.channel | _ => false
    let near := max (max (bankPs (slots + if home then blk else 0)) (forwardPs (if home then 0 else blk))) (fp32Ps (2 * g.d * g.hkv * count))
    s.bareWork j n nbTOUCH (touchBody g n t.block.num lo count mode srcK srcV) tokens (slots + blk) near

/-- Slots that a rebuild of a frame covers: below the highest layer fill among the sequences that map it. -/
def State.coverOf (s : State) (n : Nat) : Nat :=
  (s.frameUsers n).foldl (fun a u => max a (min 256 (u.1.fill u.2.1 - 256 * u.2.2))) 0

/-! ### Swap runs (R204) -/

/-- Runs of the swap area in use, those in quarantine among them (R95). -/
def State.swapRuns (s : State) : List (Nat × Nat) :=
  (s.mem.frames.flatMap fun f =>
    (match f.place with | .swap a c => [(a, c)] | _ => []) ++ (match f.swapRun with | some r => [r] | none => [])) ++
  s.mem.quar.flatMap fun q => match q.what with | .place (.swap a c) _ _ => [(a, c)] | _ => []

/-- Swap-area bytes charged to a tenant. -/
def State.swapUsed (s : State) (t : Nat) : Nat :=
  4096 * (sumOf (fun f : Frame => if f.tenant = t then
    (match f.place with | .swap _ c => c | _ => 0) + (match f.swapRun with | some r => r.2 | none => 0) else 0) s.mem.frames +
  sumOf (fun q : QItem => if q.tenant = t then (match q.what with | .place (.swap _ c) _ _ => c | _ => 0) else 0) s.mem.quar)

/-- Chunks of the swap area; none granted, or being reclaimed: 0. -/
def State.swapChunks (s : State) : Nat :=
  if s.mem.swapClosing then 0 else match s.mem.swapArea with | some (_, _, len) => len / 4096 | none => 0

/-- Reserve a run for a frame's swap image, first-fit and within SWAP_LIMIT. -/
def State.takeRun (s : State) (n : Nat) : Option State :=
  match s.frame n with
  | none => none
  | some f =>
    let c := ceilDiv (s.frameTotal n) 64
    if s.swapUsed f.tenant + 4096 * c > s.tenantObj f.tenant 0xA then none else
    (lowestGap s.swapRuns c 1 s.swapChunks).map fun a =>
      (s.modFrame n fun f => { f with swapRun := some (a, c), mig := none }).tierEnd

/-- Reserve runs for all of a list of frames. -/
def State.takeRuns : State → List Nat → Option State
  | s, [] => some s
  | s, n :: ns => match s.takeRun n with | some s => s.takeRuns ns | none => none

/-! ### Pre-emption (R83-R85) -/

/-- Resident frames that only this sequence maps. -/
def State.ownFrames (s : State) (q : Seq) : List Nat :=
  (s.seqFrames q).filter fun n => s.sharers n == 1 && match s.frame n with | some f => !f.place.isSwap | none => false

/-- Frames of the sequence whose swap-out or read-back is in progress. -/
def State.swapping (s : State) (q : Seq) : List Nat :=
  (s.seqFrames q).filter fun n => match s.frame n with | some f => f.swapRun.isSome | none => false

/-- Frames of the sequence that lie in swap. -/
def State.swappedFrames (s : State) (q : Seq) : List Nat :=
  (s.seqFrames q).filter fun n => match s.frame n with | some f => f.place.isSwap | none => false

/-- Requests that write into a sequence (R83, R99). -/
def Req.writesInto (r : Req) (h : Nat) : Bool :=
  ((r.op == opAPPEND || r.op == opSEQ_TRUNCATE || r.op == opTS_REBUILD) && opHandle r.entry == h) ||
  (r.op == opPAGE_SHARE && fld r.entry 255 208 == h)

/-- An APPEND, SEQ_TRUNCATE, TS_REBUILD or PAGE_SHARE into the sequence is accepted and in flight (R83, R84). -/
def State.writerInFlight (s : State) (q : Seq) : Bool :=
  s.reqs.any fun r => r.live && r.accepted && r.tenant == q.tenant && r.writesInto q.handle

/-- Eligible victim (R83). -/
def State.eligible (s : State) (t rclass : Nat) (needer : Option Nat) (q : Seq) : Bool :=
  q.state == .active && !q.destroying && !q.pinned && needer != some q.idx && decide (q.rclass ≤ rclass) && !s.writerInFlight q &&
  (q.tenant == t || decide (s.frameCommit q.tenant < s.framesUsed q.tenant))

/-- The order of R83: class, then LAST_ATTENDED, then handle index. -/
def victimBefore (a b : Seq) : Bool :=
  decide (a.rclass < b.rclass) || (a.rclass == b.rclass &&
    (decide (a.lastAtt.toNat < b.lastAtt.toNat) || (a.lastAtt == b.lastAtt && decide (a.idx < b.idx))))

/-- The first eligible victim, but for those already tried (R83, R85). -/
def State.victim (s : State) (t rclass : Nat) (needer : Option Nat) (tried : List Nat) : Option Seq :=
  (s.seqs.filter fun q => s.eligible t rclass needer q && !tried.contains q.idx).foldl (fun best q => match best with
    | some b => if victimBefore q b then some q else some b
    | none => some q) none

/-- Begin swapping a sequence out (R84 steps 1 and 2): its own frames get runs. None when the swap area lacks room. A request that waited for
one of its pages looks again, by R68. -/
def State.startSwapOut (s : State) (q : Seq) : Option State :=
  let own := s.ownFrames q
  (s.takeRuns own).map fun s =>
    let s := s.wake (.restore q.idx)
    if own.isEmpty then s.modSeq q.idx fun q => { q with state := .preempted, moved := 0 }
    else s.modSeq q.idx fun q => { q with state := .preempting, moved := 0 }

/-- The room of victims is on its way: a swap-out in progress, or frames in quarantine (R84). -/
def State.roomComing (s : State) (victims : List Nat) : Bool :=
  s.seqs.any (fun q => victims.contains q.idx && q.state == .preempting) ||
  s.mem.quar.any fun i => match i.victim with | some v => victims.contains v | none => false

/-- What an allocation that found no room does (R83-R85): wait for the room of the victims that it has taken, take the next, or fail. The victims
taken so far are handed back. -/
def State.makeRoom (s : State) (t rclass : Nat) (needer : Option Nat) (noPreempt : Bool) (tried victims : List Nat) :
    Option (List Nat × State) :=
  if noPreempt then none
  else if s.roomComing victims then some (victims, s)
  else
    match s.victim t rclass needer tried with
    | none => none
    | some q => (s.startSwapOut q).map fun s => (insertNew q.idx victims, s)

/-- A request needs room. -/
def State.reqRoom (s : State) (r : Req) (rclass : Nat) (needer : Option Nat) (noPreempt : Bool) : Option State :=
  let q := (s.req r.id).getD r
  (s.makeRoom r.tenant rclass needer noPreempt q.tried q.victims).map fun x => x.2.modReq r.id fun q => { q with victims := x.1 }

/-- A write that no request makes needs room. -/
def State.nodeRoom (s : State) (t : Nat) : Option State :=
  (s.makeRoom t 7 none false [] (s.seqs.map (·.idx))).map (·.2)

/-! ### Restore (R86, R207, R473) -/

/-- Start reading a sequence's swapped frames back; with none, it is ACTIVE at once. -/
def State.startRestore (s : State) (q : Seq) (starter : Option Nat) : State :=
  if (s.swappedFrames q).isEmpty then
    (s.modSeq q.idx fun q => { q with state := .active, lastAtt := s.clk.ltime, moved := 0 }).wake (.restore q.idx)
  else s.modSeq q.idx fun q => { q with state := .restoring, moved := 0, starter := starter }

/-- End the requests that wait for a failed restore (R473). -/
def restoreOutcome (st : Status) (q : Req) : Req :=
  if q.op = opSEQ_PREEMPT ∨ q.op = opSEQ_DESTROY ∨ q.op = opSEQ_PIN then { q with phase := .started }
  else { q with phase := .ended st 0 }

/-- AREA_RECLAIM of the swap area ends with CAPACITY when a restore does (R353). -/
def State.reclaimFailed (s : State) (st : Status) : State :=
  if s.mem.swapClosing ∧ st = .capacity then
    s.modLd s.mgmtLd fun l => { l with background := l.background.map fun b => if b.op = 0xC201 then { b with status := some st } else b }
  else s

/-- A restore ends other than OK: the sequence is PREEMPTED, each request that waited for it goes on by R473. -/
def State.failRestore (s : State) (idx : Nat) (st : Status) : State :=
  let s := s.modSeq idx fun q => if q.state = .restoring then { q with state := .preempted, starter := none, tried := [], victims := [] } else q
  let s : State := { s with reqs := modWhere (fun q => q.phase == .waiting (.restore idx)) (restoreOutcome st) s.reqs }
  s.reclaimFailed st

/-- Where a restored frame goes (R207): upper tier at or above UPPER_HIGH_WM, from its home channel; else lower tier. -/
def State.restorePlace (s : State) (f : Frame) (total : Nat) : Option Place :=
  let upper := (s.findUpper f.home f.size).map fun c => Place.upper c.1 c.2
  let lower := (s.findLower (f.home % max 1 s.variant.packages) total).map Place.lower
  if !s.variant.hasLower then upper
  else if s.upperAtLeast s.highWm then (match upper with | some p => some p | none => lower)
  else lower

/-! ### Requests on a sequence by its state (R68) -/

/-- A SEQ_PREEMPT that has been accepted waits for this request to end before it swaps anything out (R84). -/
def State.preemptWaitsFor (s : State) (r : Req) (q : Seq) : Bool :=
  s.reqs.any fun x => x.live && x.accepted && x.op == opSEQ_PREEMPT && opHandle x.entry == q.handle && x.after.contains r.id

/-- Put a request on a sequence that must be ACTIVE: what R68 gives for ATTEND, APPEND and their row. `wait` is the
request's WAIT_RESTORE. None: it may run now. -/
def State.letIn (s : State) (r : Req) (q : Seq) (wait : Bool) : Option State :=
  match q.state with
  | .active => none
  | .preempting =>
    if s.preemptWaitsFor r q then none
    else some (if wait then s.waitReq r.id (.swapOut q.idx) else s.endReq r.id .preempted)
  | .preempted =>
    some (if !wait then s.endReq r.id .preempted
      else if (s.swappedFrames q).isEmpty then s.startRestore q (some r.id)
      else (s.startRestore q (some r.id)).waitReq r.id (.restore q.idx))
  | .restoring => some (s.waitReq r.id (.restore q.idx))

/-- Requests that name a sequence. -/
def Req.names (r : Req) (q : Seq) : Bool :=
  r.writesInto q.handle ||
  r.handles.contains q.handle ||
  r.phase == .waiting (.restore q.idx) || r.phase == .waiting (.swapOut q.idx) ||
  ((r.op == opFORK || r.op == opSEQ_PIN || r.op == opSEQ_PREEMPT || r.op == opSEQ_RESTORE || r.op == opSEQ_QUERY ||
    r.op == opPAGE_SHARE || r.op == opTS_READ) && opHandle r.entry == q.handle)

/-- Accepted requests of a tenant, other than `r`, that have not ended and satisfy `p`. -/
def State.earlier (s : State) (r : Req) (p : Req → Bool) : List Nat :=
  (s.reqs.filter fun x => x.id != r.id && x.live && x.accepted && x.tenant == r.tenant && p x).map (·.id)

/-- Is any request of a list still running? -/
def State.anyLive (s : State) (l : List Nat) : Bool := s.reqs.any fun x => x.live && l.contains x.id

/-- Accept a request, with the requests that must end before it goes on. -/
def State.accept (s : State) (r : Nat) (after : List Nat) : State :=
  s.modReq r fun q => if q.accepted then q else { q with accepted := true, after := after }

/-- Serialise writers of one sequence in acceptance order, and behind a FORK of it (R73, R99). -/
def State.turn (s : State) (r : Req) (h : Nat) (go : State → State) : State :=
  if r.accepted then (if s.anyLive r.after then s else go s)
  else
    let ws := s.earlier r fun x => x.writesInto h || (x.op == opFORK && opHandle x.entry == h)
    if ws.isEmpty then go s else s.accept r.id ws

/-- R208: an ACTIVE sequence may still have swapped frames; a request that needs one waits for its restore. -/
def State.swappedNeeded (s : State) (q : Seq) (lps : List (Nat × Nat)) : Bool :=
  lps.any fun lp => match s.pageFrame q lp.1 lp.2 with | some f => f.place.isSwap | none => false

/-! ### What an APPEND that fails leaves (R37, R74) -/

/-- The layers of an APPEND or a TS_REBUILD. -/
def layerRun (first count layers : Nat) : List Nat :=
  (List.range (if count = 0 then layers - first else count)).map (first + ·)

/-- Pages that an append of `n` tokens at a fill writes, each with its slots `[lo, hi)`. -/
def appendSpans (fill n : Nat) : List (Nat × Nat × Nat) :=
  (List.range ((fill + n - 1) / 256 + 1 - fill / 256)).map fun i =>
    let p := fill / 256 + i
    (p, max fill (256 * p) - 256 * p, min (fill + n) (256 * p + 256) - 256 * p)

/-- One run of a frame's bytes after a failure: as it was, or free. -/
def State.blurRun (s : State) (n off len : Nat) : State :=
  let (keep, s) := s.draw 2
  if keep = 0 then s
  else
    let (bs, s) := s.drawBytes len
    (s.writeFrame n off bs).getD s

/-- Slots `[lo, hi)` of a page after a failure, and its touchstone as it was or widened. -/
def State.blurSlots (s : State) (g : Geom) (l n lo hi : Nat) : State :=
  let s := (List.range g.hkv).foldl (fun s h =>
    let s := s.blurRun n (g.kOff h lo) ((hi - lo) * g.kb)
    if g.latent then s else s.blurRun n (g.vOff h lo) ((hi - lo) * g.vb)) s
  let (keep, s) := s.draw 2
  if keep = 0 then s else s.widenTouch g l n lo hi

/-- One layer of a failed APPEND: the slots at or above the fill on pages that the sequence maps alone. -/
def State.blurLayer (s : State) (x : Seq) (g : Geom) (l n : Nat) : State :=
  (appendSpans (x.fill l) n).foldl (fun s sp =>
    match s.pageFrame x l sp.1 with
    | some f => if s.sharers f.num = 1 ∧ !f.place.isSwap then s.blurSlots g l f.num sp.2.1 sp.2.2 else s
    | none => s) s

/-- A failed APPEND keeps whatever it wrote at or above the fill (DESIGN CHOICE, log 76). -/
def State.blurAppend (s : State) (r : Req) : State :=
  match s.findSeq r.tenant (opHandle r.entry) r.accepted with
  | none => s
  | some x =>
    match s.geom x.tenant x.geom with
    | none => s
    | some g =>
      let n := apTokens r.entry
      let ls := (layerRun (apLfirst r.entry) (apLcount r.entry) g.layers).filter (· < g.layers)
      if n = 0 ∨ 65536 < n then s else ls.foldl (fun s l => s.blurLayer x g l n) s

end Sys2Proof.Machine
end

