-- ==== Sys2Proof/Machine/HostLog.lean ====
section
/-! DEFINITION. Sys2Proof/Machine/HostLog.lean: event records of a logical device (R343, R357, R358), and one host access to
a 64-byte line (R341, R176). -/

namespace Sys2Proof.Machine

open Sys2Proof

/-! ### Logs, by source number k of R362 -/

def logInfo : Nat := 0
def logWarn : Nat := 1
def logFail : Nat := 2
def logFatal : Nat := 3
def logDcd : Nat := 4

/-- Causes of R358. -/
def vcDpa : Nat := 1
def vcXlate : Nat := 2
def vcLtFull : Nat := 3
def vcWindow : Nat := 4
def vcBanked : Nat := 5

/-- The timestamp that a host has set, advanced by the local counter (R348). -/
def State.timestamp (s : State) : BitVec 64 := s.clk.stamp + (s.clk.ltime - s.clk.stampAt)

/-- Put a record into a log and raise the log's source (R362). -/
def State.logRecord (s : State) (ld log : Nat) (x : EvRec) : State :=
  let s := s.modLd ld fun l =>
    { l with log := l.log ++ [⟨log, l.nextHandle, s.timestamp, x⟩], nextHandle := l.nextHandle % 65535 + 1 }
  s.raise (srcLd ld log)

/-- Accesses of one cause to one page within 1 ms merge (R358). -/
def mergeSpan : Nat := 1000000

/-- Does a record take in one more access? -/
def EvRec.takes (x : EvRec) (cause tenant dpa now : Nat) : Bool :=
  match x with
  | .vendor c _ t _ d _ time => c == cause && t == tenant && d / 4096 == dpa / 4096 && decide (now ≤ time.toNat + mergeSpan)
  | _ => false

def EvRec.bump : EvRec → EvRec
  | .vendor c w t n d a time => .vendor c w t (n + 1) d a time
  | x => x

/-- A vendor record in the Warning log (R357, R358). -/
def State.vendorRecord (s : State) (ld cause : Nat) (write : Bool) (tenant dpa addr : Nat) : State :=
  if (s.ld ld).log.any fun r => r.body.takes cause tenant dpa s.now then
    s.modLd ld fun l => { l with log := modWhere (fun r => r.body.takes cause tenant dpa s.now) (fun r => { r with body := r.body.bump }) l.log }
  else s.logRecord ld logWarn (.vendor cause write tenant 1 dpa addr s.clk.ltime)

/-! ### Dynamic capacity records (R343) -/

/-- Kinds of Dynamic Capacity Event records: add, release, forced release. -/
def dcAdd : Nat := 0
def dcRelease : Nat := 1
def dcForced : Nat := 2

/-- Log a Dynamic Capacity Event record of a composition's region. -/
def State.dcRecord (s : State) (c : Comp) (ld kind region off len : Nat) : State :=
  s.logRecord ld logDcd (.dcd kind region off len c.tenant c.id)

/-- Bytes of a dynamic capacity block. -/
def dcBlock : Nat := 2097152

/-- What is left of an extent outside `[off, off + len)`. -/
def Extent.outside (x : Extent) (off len : Nat) : List Extent :=
  let low := min (x.off + x.len) off - x.off
  let high := x.off + x.len - max x.off (off + len)
  (if low = 0 then [] else [{ x with len := low }]) ++ (if high = 0 then [] else [{ x with off := x.off + x.len - high, len := high }])

/-- Take `[off, off + len)` out of the extents of a region that satisfy `p`. -/
def cutExtents (p : Extent → Bool) (r off len : Nat) (xs : List Extent) : List Extent :=
  xs.flatMap fun x => if p x && x.region == r then x.outside off len else [x]

def Extent.meets (x : Extent) (r off len : Nat) : Bool := x.region == r && decide (x.off < off + len) && decide (off < x.off + x.len)

/-- An uncorrectable error at a tenant address of a loan: the 2 MiB block is withdrawn (R343, R359). -/
def State.withdraw (s : State) (t a : Nat) : State :=
  match s.comps.find? fun c => c.tenant == t && c.loan with
  | none => s
  | some c =>
    match c.region with
    | none => s
    | some (ld, r) =>
      let off := a / dcBlock * dcBlock
      if (s.ld ld).extents.any fun x => x.meets r off dcBlock then
        let s := s.modLd ld fun l => { l with extents := cutExtents (fun _ => true) r off dcBlock l.extents }
        (s.modComp c.slot fun c => { c with withdrawn := insertNew off c.withdrawn }).dcRecord c ld dcForced r off dcBlock
      else s

/-! ### One line -/

/-- 64 bytes as a line. -/
def lineOf (bs : List Byte) : BitVec 512 := BitVec.ofNat 512 (leVal bs)
def lineBytes (x : BitVec 512) : List Byte := leBytes 64 x.toNat

/-- Answer a read with undefined data. -/
def State.undefLine (s : State) (ld : Nat) : State :=
  let (x, s) := s.drawBits 512
  s.emit (.hostLine ld x)

/-- The tenant's key is held, so its lines decrypt (R311, R359). -/
def State.keyHeld (s : State) (t : Nat) : Bool := match s.tenant t with | some x => x.keyed | none => false

/-- AER Uncorrectable Internal Error: its status bit, and the message of its severity where software has unmasked it and enabled its report
(R357; PRESUMED from PCIe, log 12). -/
def State.aerError (s : State) (ld : Nat) : State :=
  let a := (s.ld ld).aer
  let s := s.modLd ld fun l => { l with aer := { l.aer with status := true } }
  if !a.masked && (if a.fatal then a.reportFatal else a.reportNonFatal) then s.emit (.errorMessage ld a.fatal) else s

/-- A host load whose line cannot be read: undefined data, a record and the AER error; a block of an accepted extent is withdrawn (R186, R357). -/
def State.mediaLine (s : State) (a : HostLine) : State :=
  let s := ((s.aerError a.ld).logRecord a.ld logFail (.media false a.dpa)).undefLine a.ld
  if a.dpa < 2 ^ 48 then s else s.withdraw a.tenant a.addr

/-- Walks of host accesses that wait. -/
def hostWalk : Nat := nodeReq + 1

/-- A host access waits: a store for sectors, or an access behind one, its walk live (R95, R185, R341). -/
def State.holdLine (s : State) (a : HostLine) : State :=
  let s := s.modMem fun m => { m with walks := m.walks ++ [⟨hostWalk, a.tenant, a.frame, a.walk⟩] }
  { s with eng := { s.eng with stores := s.eng.stores ++ [a] } }

/-- Serve a host access to a line whose frame has been found (R341, R357). -/
def State.serveLine (s : State) (a : HostLine) : State :=
  match a.write with
  | none =>
    if !s.keyHeld a.tenant then s.undefLine a.ld
    else if s.rehLost (s.placeOf a.frame) then ((s.count 0x6000 0x31).logRecord a.ld logInfo (.media false a.dpa)).undefLine a.ld
    else if s.meetsBad a.frame (64 * a.line) 64 then
      (if (s.placeOf a.frame).isLower then s.count 0x6100 0xA else s).mediaLine a
    else s.emit (.hostLine a.ld (lineOf (s.readFrame a.frame (64 * a.line) 64)))
  | some x =>
    match s.frame a.frame with
    | none => (s.putFrame a.frame (64 * a.line) (lineBytes x)).emit (.hostDone a.ld)
    | some _ =>
      if s.rehLost (s.placeOf a.frame) then ((s.count 0x6000 0x31).logRecord a.ld logInfo (.media true a.dpa)).emit (.hostDone a.ld)
      else if s.meetsLoss a.frame (64 * a.line) 64 then
        ((s.count 0x6100 0xA).logRecord a.ld logFail (.media true a.dpa)).emit (.hostDone a.ld)
      else match s.writeFrame a.frame (64 * a.line) (lineBytes x) with
      | some s => s.emit (.hostDone a.ld)
      | none =>
        match s.nodeRoom a.tenant with
        | some s => s.holdLine a
        | none => (s.vendorRecord a.ld vcLtFull true a.tenant a.dpa a.addr).emit (.hostDone a.ld)

end Sys2Proof.Machine
end

