-- ==== Sys2Proof/Machine/Answers.lean ====
section
/-! DEFINITION. Sys2Proof/Machine/Answers.lean: the records that SEQ_QUERY, TS_READ and PS_SEARCH write (R69, R138, R210-R213, R219-R223), and
what they leave when they fail (R37). -/

namespace Sys2Proof.Machine

open Sys2Proof

/-! ### SEQ_QUERY (R69) -/

/-- The record of SEQ_QUERY (R69) (DEDUCED, log 65). -/
def State.seqRecord (s : State) (x : Seq) : Nat :=
  let ns := s.seqFrames x
  let st := match x.state with | .active => 0 | .preempting => 1 | .preempted => 2 | .restoring => 3
  x.handle + x.geom * 2 ^ 144 + st * 2 ^ 167 + x.rclass * 2 ^ 170 + b2n x.pinned * 2 ^ 173 + x.length * 2 ^ 176 +
  x.maxFill * 2 ^ 208 + x.cap * 2 ^ 240 + x.base * 2 ^ 272 + ns.length * 2 ^ 336 +
  (ns.filter fun n => decide (s.sharers n > 1)).length * 2 ^ 368 + x.parent * 2 ^ 400 + x.lastAtt.toNat * 2 ^ 448

/-! ### TS_READ (R138) -/

def trFirst (e : BitVec 512) : Nat := fld e 223 192
def trLayer (e : BitVec 512) : Nat := fld e 191 176

/-- MIN and MAX of one head's part as stored: D MIN values, then D MAX values (R129). -/
def headBytes (vs : List (BitVec 16 × BitVec 16)) : List Byte :=
  vs.flatMap (fun v => leBytes 2 v.1.toNat) ++ vs.flatMap (fun v => leBytes 2 v.2.toNat)

/-- A block as bytes, head by head (R129). -/
def Geom.blockOut (g : Geom) (vals : List (BitVec 16 × BitVec 16)) : List Byte :=
  (List.range g.hkv).flatMap fun h => headBytes ((vals.drop (h * g.d)).take g.d)

/-- Header and block of one page; reset values where there is none to read (R138), as for a page in the swap area (DESIGN CHOICE, log 88). -/
def State.touchOut (s : State) (x : Seq) (g : Geom) (l p : Nat) : List Byte :=
  let blank := g.blockOut (List.replicate (g.hkv * g.d) (tsMin0, tsMax0))
  match (s.pageFrame x l p).bind (·.touch) with
  | some t =>
    if t.bad then leBytes 64 (p + l * 2 ^ 48) ++ blank
    else leBytes 64 (p + t.cover * 2 ^ 32 + b2n t.nonfin * 2 ^ 41 + l * 2 ^ 48) ++ g.blockOut (t.all g)
  | none => leBytes 64 (p + l * 2 ^ 48) ++ blank

/-! ### Keys and entries (R210-R213) -/

/-- Tag of a key pair (R211). -/
def psTag (ckey : BitVec 256) (mkey : BitVec 64) : BitVec 64 :=
  ckey.extractLsb' 0 64 ^^^ ckey.extractLsb' 64 64 ^^^ ckey.extractLsb' 128 64 ^^^ ckey.extractLsb' 192 64 ^^^ mkey

def psBanks : Nat := 64
def psSlots : Nat := 65536

def homeBank (tag : BitVec 64) : Nat := bits tag.toNat 63 58
def spillBank (tag : BitVec 64) : Nat := (homeBank tag + 1) % psBanks

/-- An entry lies in its spill bank. -/
def PsSlot.spilled (e : PsSlot) : Bool := e.bank != homeBank e.tag

def PsSlot.id (e : PsSlot) : Nat := e.gen * 2 ^ 24 + e.bank * 2 ^ 16 + e.slot

/-- Position of an entry in a lookup of its tag, as a cursor (R223). -/
def PsSlot.pos (e : PsSlot) : Nat := b2n e.spilled * 2 ^ 16 + e.slot

/-- END (R223). -/
def psEnd : Nat := 0xFFFFFFFF

/-! ### PS_SEARCH (R219-R223) -/

def pqQaddr (e : BitVec 512) : Nat := fld e 447 384
def pqMkey (e : BitVec 512) : BitVec 64 := e.extractLsb' 256 64

/-- Most tag matches that a lookup examines. -/
def maxExamined : Nat := 8

/-- The answer to one query. -/
structure Looked where
  found : Option PsSlot := none
  multi : Bool := false
  next : Nat := psEnd
  examined : Nat := 0
  false_ : Nat := 0
  status : Status := .ok
  /-- The query was looked up. -/
  counted : Bool := true
  deriving DecidableEq, Repr

/-- Walk the tag matches in ascending order (R221); one whose slot or key record is found unreadable is a false hit (R224). -/
def walkMatches (ckey : BitVec 256) (mkey : BitVec 64) : List (PsSlot × Bool) → Looked → Looked
  | [], x => x
  | (e, bad) :: es, x =>
    if x.examined = maxExamined then { x with multi := true, next := e.pos }
    else if e.ckey = ckey ∧ e.mkey = mkey ∧ !bad then
      { x with found := some e, examined := x.examined + 1, multi := !es.isEmpty, next := (es.head?.map fun y => y.1.pos).getD psEnd }
    else walkMatches ckey mkey es { x with examined := x.examined + 1, false_ := x.false_ + 1 }

/-- Look one query of a request up (DEDUCED, log 36). -/
def State.psLookup (s : State) (r t : Nat) (mkey : BitVec 64) (ckey : BitVec 256) (cursor : Nat) : Looked :=
  if cursor = psEnd then { counted := false }
  else if cursor ≥ 2 ^ 17 then { status := .rangeFault, counted := false }
  else
    let tag := psTag ckey mkey
    let mine := fun e : PsSlot => e.tenant == t && e.tag == tag && decide (cursor ≤ e.pos)
    let hits := (s.ps.filter mine).map (·, false) ++ ((s.flt.prefixes.filter fun x => x.1 == r && mine x.2).map (·.2, true))
    walkMatches ckey mkey (hits.mergeSort fun a b => decide (a.1.pos ≤ b.1.pos)) {}

/-- The lookups of a query array. -/
def State.psAnswers (s : State) (r t : Nat) (mkey : BitVec 64) (qs : List (BitVec 256 × Nat)) : List Looked :=
  qs.map fun x => s.psLookup r t mkey x.1 x.2

/-- SRCSTATE (R222). -/
def State.srcState (s : State) (handle : Nat) : Nat :=
  match s.seqs.find? (·.handle == handle) with
  | some x => match x.state with | .active => 0 | .preempting => 1 | .preempted => 2 | .restoring => 3
  | none => 0

/-- One result (R222). -/
def State.psResult (s : State) (x : Looked) : Nat :=
  let e := match x.found with
    | some e => e.id * 2 ^ 192 + e.page * 2 ^ 176 + e.handle * 2 ^ 128 + s.srcState e.handle * 2 ^ 10 + 2 ^ 8
    | none => 0
  x.next * 2 ^ 224 + e + x.examined * 2 ^ 48 + x.false_ * 2 ^ 40 + b2n x.multi * 2 ^ 9 + x.status.code

/-- The queries of an array: content key and cursor. -/
def psQueries (n : Nat) (bs : List Byte) : List (BitVec 256 × Nat) :=
  (chunks 64 n bs).map fun x => (BitVec.ofNat 256 (leVal x), bits (leVal x) 287 256)

/-! ### What a request that fails leaves (R37) -/

/-- The address and the bytes of the answer that a request of one command writes in tenant memory. -/
def State.answerOf (s : State) (q : Req) : Option (Nat × List Byte) :=
  let seq := s.findSeq q.tenant (opHandle q.entry) q.accepted
  if q.op = opSEQ_QUERY then seq.map fun x => (opAddrHigh q.entry, leBytes 64 (s.seqRecord x))
  else if q.op = opTS_READ then
    seq.bind fun x => (s.geom x.tenant x.geom).map fun g =>
      (trDest q.entry, (List.range (min 65536 (trCount q.entry))).flatMap fun i => s.touchOut x g (trLayer q.entry) (trFirst q.entry + i))
  else if q.op = opPS_SEARCH then
    match s.readTenant q.tenant (pqQaddr q.entry) (64 * min 65536 (pqCount q.entry)) with
    | .ok bs => some (pqRaddr q.entry, (s.psAnswers q.id q.tenant (pqMkey q.entry) (psQueries (min 65536 (pqCount q.entry)) bs)).flatMap fun x =>
        leBytes 32 (s.psResult x))
    | .error _ => none
  else none

/-- Such a request has failed: each line of its answer holds the old or the new contents (R37). -/
def State.mixAnswer (s : State) (q : Req) : State :=
  match s.answerOf q with
  | some (a, bs) => s.mix q.payer a bs
  | none => s

end Sys2Proof.Machine
end

