-- ==== Sys2Proof/Machine/Schedule.lean ====
section
/-! DEFINITION. Sys2Proof/Machine/Schedule.lean: the choice of the next piece (R314-R316). -/

namespace Sys2Proof.Machine

open Sys2Proof

/-! ### Near-bank units and their commands (R151, R157) -/

def State.nbUnit (s : State) (n : Nat) : NbUnit := (s.eng.units.find? (·.n == n)).getD { n := n }

def State.setNb (s : State) (u : NbUnit) : State :=
  { s with eng := { s.eng with units := u :: dropWhere (·.n == u.n) s.eng.units } }

/-- The unit holds work of a command. -/
def NbUnit.holds (u : NbUnit) (c : Nat) : Bool := u.queue.any (·.cmd == some c) || u.step.any (·.cmd == some c)

/-- Units that have come to the end of their list of a command report it; a command that all units have reported is complete (R157). -/
def State.sweepCmds (s : State) : State :=
  let cs := s.eng.cmds.map fun c => if c.issued then { c with left := c.left.filter fun n => (s.nbUnit n).holds c.num } else c
  let cs := cs.filter fun c => !c.issued || !c.left.isEmpty
  let us := s.eng.units.map fun u => { u with begun := u.begun.filter fun n => cs.any (·.num == n)
                                              buffer := u.buffer.filter fun b => cs.any (·.req == b.key.req) }
  { s with eng := { s.eng with cmds := cs, units := us } }

/-- A request has commands that are not complete, or pieces on the cores. -/
def State.hasCmds (s : State) (r : Nat) : Bool :=
  s.eng.cmds.any (·.req == r) || s.eng.coreQueue.any (·.req == r) || s.eng.cores.any fun c => c.piece.any (·.req == r)

/-! ### Dropping a request's work -/

/-- Take a request's waiting pieces out of a queue; the next piece of a flow becomes its head. -/
def State.dropFrom (s : State) (p : Point) (r : Nat) (q : List Job) : List Job × State :=
  match (flowHeads q []).find? (·.req == r) with
  | some j => s.tagHead p j.tenant j.loan (dropWhere (·.req == r) q)
  | none => (dropWhere (·.req == r) q, s)

/-- The same for every unit of a list; the request waits in no bank queue any more. -/
def State.dropUnits (s : State) (r : Nat) : List NbUnit → List NbUnit × State
  | [] => ([], s)
  | u :: us =>
    let (q, s) := s.dropFrom (.unit u.n) r u.queue
    let (us, s) := s.dropUnits r us
    let mine := fun l : LineAcc => match l with | .remote x => x == r | .fetch _ k _ _ _ => k.req == r | .host _ => false
    ({ u with queue := q, lines := u.lines.filter (!mine ·), buffer := u.buffer.filter (·.key.req != r) } :: us, s)

/-- Take a request's waiting pieces off every unit and core. Pieces that run go on to their ends. -/
def State.dropJobs (s : State) (r : Nat) : State :=
  let (us, s) := s.dropUnits r s.eng.units
  let (q, s) := s.dropFrom .cores r s.eng.coreQueue
  ({ s with eng := { s.eng with units := us, coreQueue := q, cmds := s.eng.cmds.filter fun c => c.issued || c.req != r } }).sweepCmds

/-- Waiting fences look again (R96). -/
def State.refence (s : State) : State :=
  let fence := fun q : Req => match q.phase with | .waiting (.fence _) => true | _ => false
  { s with reqs := modWhere fence (fun q => { q with phase := .started }) s.reqs }

/-- A request's walks are no longer live (R95); fences look again. -/
def State.endWalks (s : State) (r : Nat) : State :=
  ({ s with mem := { s.mem with walks := dropWhere (·.req == r) s.mem.walks } } : State).refence

/-- Bytes of a record (R114). -/
def recordBytes (counts : Bool) (ofmt dv : Nat) : Nat := (if counts then 24 else 8) + dv * (if ofmt = 0 then 4 else 2)

/-- Bytes that an ATTEND in progress has to write at RESULT_ADDR (R102, R114): none when its records leave otherwise. -/
def Req.resultBytes (q : Req) : Nat :=
  match q.att, q.origin with
  | some a, .queue _ => if atDest q.entry = 0 then a.recs.length * recordBytes (atCounts q.entry) (atOfmt q.entry) a.geom.dvOut else 0
  | _, _ => 0

/-- The request may have begun to write (R37). -/
def Req.begun (q : Req) : Bool := q.phase == .started || q.phase == .waiting .sectors

/-- What a request that fails leaves where it was to write: an ATTEND's result range, an APPEND's slots, an answer (R37, R74, R117). -/
def State.blurResult (s : State) (r : Nat) (st : Status) : State :=
  match s.req r with
  | some q =>
    let s := s.blur q.payer (atResult q.entry) q.resultBytes
    if !q.begun then s
    else if q.op = opAPPEND then s.blurAppend q
    else if blurs st then s.mixAnswer q
    else s
  | none => s

/-! ### Lines that a step writes (R176, R177) -/

/-- Write a line where dispatch walked to: the frame as it lies now, or the quarantined frame (R177). None: no sectors. -/
def State.putLine (s : State) (t : Nat) (w : LineWrite) : Option State :=
  let put := s.putFrame w.frame w.off w.bytes
  let s := match s.frame w.frame with
    | some f => if f.gen = w.gen then s.writeFrame w.frame w.off w.bytes else some put
    | none => some put
  s.map fun s => s.countExc t ⟨w.sat, w.nanInt⟩

def State.putLines (s : State) (t : Nat) : List LineWrite → Option State
  | [] => some s
  | w :: ws => match s.putLine t w with | some s => s.putLines t ws | none => none

/-- Steps and pieces in progress. -/
def State.running (s : State) : List Job := s.eng.units.filterMap (·.step) ++ s.eng.cores.filterMap (·.piece)

/-- Work in progress goes on to its boundary (R177, R178): what the running steps of some requests have made is written. -/
def State.finishSteps (s : State) (p : Nat → Bool) : State :=
  let s := (s.running.filter fun j => p j.req).foldl (fun s j => (s.putLines j.tenant j.made).getD s) s
  let done := fun j : Job => if p j.req then { j with made := [] } else j
  { s with eng := { s.eng with units := s.eng.units.map fun u => { u with step := u.step.map done }
                               cores := s.eng.cores.map fun c => { c with piece := c.piece.map done } } }

/-- End a request whatever it was doing. -/
def State.abandon (s : State) (r : Nat) (st : Status) : State :=
  (((((s.finishSteps (· == r)).blurResult r st).dropJobs r).endWalks r).modReq r fun q =>
    { q with att := q.att.map fun a => { a with seqs := [], held := [], busy := [], leadLeft := [] }, loanWork := none }).endReq r st

end Sys2Proof.Machine
end

