-- ==== Sys2Proof/Machine/AttendWork.lean ====
section
/-! DEFINITION. Sys2Proof/Machine/AttendWork.lean: the ATTEND descriptor and length table (R102, R105), masks (R110), work
blocks (R111, R112), page bounds (R139, R140) and what omission does to a record (R143-R146). -/

namespace Sys2Proof.Machine

open Sys2Proof

/-! ### Checks of the descriptor (R103) -/

/-- A FP32 field that must be +0, or finite and greater than 0. -/
def zeroOrPositive (x : F32) : Bool :=
  x == 0 || (match x.num with | .fin n m _ => !n && m != 0 | _ => false)

/-- τ, resolved: +0 selects 16.0. -/
def tauOf (e : BitVec 512) : F32 := if atTau e = 0 then 0x41800000 else bf16ToF32 (BitVec.ofNat 16 (atTau e))

/-- The field rules of R103 that need neither the table nor the geometry. -/
def attendChecks (e : BitVec 512) (remote : Bool) : List (Bool × Status) :=
  [(!(decide (atQfmt e ≤ 3)), .formatUnsupported),
   (decide (1 < atOfmt e), .formatUnsupported),
   (!zeroOrPositive (atScale e), .rangeFault),
   (!zeroOrPositive (atSoftcap e), .rangeFault),
   (atSkip e == 3 || decide (1 < atDest e), .rangeFault),
   (atSkip e == 1 && !zeroOrPositive (bf16ToF32 (BitVec.ofNat 16 (atTau e))), .rangeFault),
   (atSkip e == 2 && atBudget e == 0, .rangeFault),
   (atSkip e != 0 && atDest e == 0 && !atCounts e, .rangeFault),
   (atDest e == 1 && atNormalise e, .rangeFault),
   (atInline e && !remote, .rangeFault),
   (atRows e == 0 || decide (4096 < atRows e), .rangeFault),
   (!atInline e && (decide (atTable e % 32 ≠ 0) || decide (atQuery e % 64 ≠ 0)), .rangeFault),
   (atDest e == 0 && !remote && decide (atResult e % 8 ≠ 0), .rangeFault)]

/-! ### Length table (R105) -/

structure AttRow where
  pbEnd : Nat
  pbStart : Nat
  ctx : Nat
  cpos : Nat
  q0 : Nat
  qidx : Nat
  nq : Nat
  handle : Nat
  deriving DecidableEq, Repr

/-- The sentinel of CTX. -/
def ctxFill : Nat := 0xFFFFFFFF

def rowOf (bs : List Byte) : AttRow :=
  let x := leVal bs
  { pbEnd := bits x 255 224, pbStart := bits x 223 192, ctx := bits x 191 160, cpos := bits x 159 128, q0 := bits x 127 96,
    qidx := bits x 95 72, nq := bits x 71 48, handle := bits x 47 0 }

def rowsOf (n : Nat) (bs : List Byte) : List AttRow := (chunks 32 n bs).map rowOf

/-- Query positions in the table before each row, and in all (R107). -/
def positions (rows : List AttRow) : Nat := sumOf (·.nq) rows

/-- QC of R108. -/
def queryPositions (rows : List AttRow) : Nat := rows.foldl (fun a r => max a (r.qidx + r.nq)) 0

/-- CTX after the sentinel is resolved. -/
def AttRow.resolve (r : AttRow) (fill : Nat) : AttRow := if r.ctx = ctxFill then { r with ctx := fill } else r

/-! ### Mask (R110) -/

/-- Does position `t` of the row see local slot `j`? -/
def visible (e : BitVec 512) (r : AttRow) (t slot : Nat) : Bool :=
  let i := r.q0 + t
  let j := r.cpos + slot
  let pb := atPb e && decide (r.pbStart ≤ i) && decide (i < r.pbEnd) && decide (r.pbStart ≤ j) && decide (j < r.pbEnd)
  decide (slot < r.ctx) && (!atCausal e || decide (j ≤ i) || pb) &&
  (atWindow e == 0 || decide ((i : Int) - j < atWindow e) || decide (j < atSinks e))

/-- Visible slots of a page, as local slots of the frame. -/
def visibleOn (e : BitVec 512) (r : AttRow) (t p : Nat) : List Nat :=
  (List.range (min 256 (r.ctx - 256 * p))).filter fun x => visible e r t (256 * p + x)

/-! ### Blocks (R111) -/

/-- Vectors of a block: KV head and (position, head) pairs. -/
structure Group where
  kv : Nat
  vecs : List (Nat × Nat)

/-- The vector sets of a row of `nq` positions, `g` query heads to a KV head; each set forms a block of its own with its KV head (R111; DESIGN CHOICE
against the count of the worked sums, log 88). -/
def groupsOf (nq g hkv : Nat) : List Group :=
  (List.range hkv).flatMap fun kv =>
    if g ≤ 64 then
      let n := 64 / max 1 g
      (List.range (ceilDiv nq n)).map fun c =>
        ⟨kv, (List.range (min n (nq - c * n))).flatMap fun i => (List.range g).map fun h => (c * n + i, kv * g + h)⟩
    else
      (List.range nq).flatMap fun t => (List.range (ceilDiv g 64)).map fun c =>
        ⟨kv, (List.range (min 64 (g - 64 * c))).map fun h => (t, kv * g + 64 * c + h)⟩

/-! ### Bounds (R139, R140) -/

/-- 2^-21 in FP32. -/
def twoM21 : F32 := 0x35000000

/-- The larger of two FP32 values. -/
def f32Lt (a b : F32) : Bool := Num.lt a.num b.num

/-- One term of U: 0 for q_c = 0, else the larger product rounded up. -/
def boundTerm (q : F32) (v : BitVec 16 × BitVec 16) : F32 :=
  if q.isZero then F32.zero
  else
    let a := F32.mulR .up q (bf16ToF32 v.1)
    let b := F32.mulR .up q (bf16ToF32 v.2)
    if f32Lt a b then b else a

/-- U of R140, summed in ascending element order (DESIGN CHOICE, log 21). -/
def boundSum : List F32 → List (BitVec 16 × BitVec 16) → F32 → F32
  | q :: qs, v :: vs, acc => boundSum qs vs (F32.addR .up acc (boundTerm q v))
  | _, _, acc => acc

/-- c_s · (tanh(x / c_s) + 2^-21), every operation rounded toward +infinity (R140; the tanh is the exact one: DESIGN CHOICE, log 21). -/
def capBound (cap x : F32) : F32 := F32.mulR .up cap (F32.addR .up (F32.tanhUp (F32.divR .up x cap)) twoM21)

/-- B of a page for a query vector; `top` is the highest visible local slot. -/
def pageBound (g : Geom) (t : Option Touch) (kv : Nat) (q : List F32) (sigma cap : F32) (top : Nat) : F32 :=
  match t with
  | none => F32.posInf
  | some t =>
    if t.nonfin ∨ t.cover < top + 1 ∨ q.any F32.special ∨ t.bad then F32.posInf
    else
      let u := boundSum q (((t.all g).drop (kv * g.d)).take g.d) F32.zero
      let b := F32.mulR .up sigma u
      let b := if cap = 0 then b else capBound cap b
      if b.isNan then F32.posInf else b

/-- σ of a request: +0 selects 1/√D in FP32 (R102), here the root rounded once and then the quotient (DESIGN CHOICE, log 77). -/
def sigmaOf (e : BitVec 512) (d : Nat) : F32 :=
  if atScale e = 0 then F32.div F32.one (F32.sqrt (F32.ofNum .nearest (.fin false d 0))) else atScale e

/-! ### Kinds of scores (R46, R48, R49) -/

/-- What a score is before the soft-cap. -/
inductive ScoreKind where
  | nan | neg | pos | fin
  deriving DecidableEq, Repr

/-- What σ · q·k can be before the soft-cap (R46, R49): one kind, or those among which the order of the sum decides. A sum of `n` products
that are not 0 rounds n - 1 times; a partial sum lies between all negative and all positive products, and an FP32 result past `f32Over` is
an infinity. -/
def scoreKinds (sigma : F32) (q k : List F32) : List ScoreKind :=
  let ps := List.zipWith F32.mul q k
  let ninf := ps.contains F32.negInf
  let pinf := ps.contains F32.posInf
  let fin := (ps.filter fun x => !x.special && !x.isZero).map f32Rat
  let p := (fin.filter fun x => decide (0 < x)).foldl (· + ·) 0
  let n := -((fin.filter fun x => decide (x < 0)).foldl (· + ·) 0)
  let err := 2 * ((fin.length - 1 : Nat) : Rat) * unitU * (p + n)
  let up := pinf || f32Over ≤ p + err
  let dn := ninf || f32Over ≤ n + err
  let lo := p - n - err
  let hi := p - n + err
  let sum := !pinf && !ninf && decide (lo < f32Over) && decide (-f32Over < hi)
  let c := f32Rat sigma
  if ps.any F32.isNan || (ninf && pinf) then [.nan]
  else
    ([(.nan, up && dn), (.pos, (up && !ninf) || (sum && f32Over ≤ c * hi)), (.neg, (dn && !pinf) || (sum && c * lo ≤ -f32Over)),
      (.fin, sum && c * lo < f32Over && -f32Over < c * hi)].filter (·.2)).map (·.1)

/-! ### Planned time (R152, R173), in ps -/

/-- ps of near-bank arithmetic for `f` FLOP in a format of K or V. -/
def flopPs (fmt f : Nat) : Nat :=
  if fmt = fmtMX4 ∨ fmt = fmtINT4 then f / 2 else if fmt = fmtBF16 ∨ fmt = fmtFP16 then 2 * f else f

/-- A unit's products for a page read by `v` vectors, at the slower of the rates of K and V (R152). -/
def attendArith (g : Geom) (qfmt v slots : Nat) : Nat :=
  let f := 2 * (g.d + g.dvOut) * v * slots
  if qfmt = fmtFP32 then 8 * f else max (flopPs g.kfmt f) (flopPs (if g.latent then g.kfmt else g.vfmt) f)

/-- Planned time of a page read by `v` vectors. -/
def attendPs (g : Geom) (qfmt bytes v slots : Nat) : Nat :=
  max (max (bankPs bytes) (attendArith g qfmt v slots)) (v * slots * 125 / 2)

/-! ### Generating a row's work -/

/-- What generation needs to know of one row. -/
structure RowPlan where
  row : AttRow
  seq : Seq
  /-- Position of the row's first query position among all (R107). -/
  base : Nat
  /-- Frames of its pages, page 0 first. -/
  frames : List Nat

/-- Record index of position t and head h of a row. -/
def RowPlan.recNo (p : RowPlan) (hq t h : Nat) : Nat := (p.base + t) * hq + h

/-- Query vector of a row's position and head. -/
def queryVec (e : BitVec 512) (d : Nat) (blk : List Byte) (r : AttRow) (t h : Nat) : List F32 :=
  let w := vecBytes (atQfmt e) d
  decodeVec (atQfmt e) d [] ((blk.drop (((r.qidx + t) * atHq e + h) * w)).take w)

/-- The candidate that a page is for one record, if it holds a visible slot. -/
def State.candOf (s : State) (e : BitVec 512) (g : Geom) (p : RowPlan) (blk : List Byte) (kv t h page frame : Nat) : Option Cand :=
  match visibleOn e p.row t page with
  | [] => none
  | x :: xs =>
    let q := queryVec e g.d blk p.row t h
    let touch := (s.frame frame).bind (·.touch)
    let b := if atSkip e = 0 then F32.posInf
      else pageBound g touch kv q (sigmaOf e g.d) (atSoftcap e) (xs.foldl max x)
    some { page := page, slots := (x :: xs).length, bound := b }

/-! ### The reference of the error bounds (R51-R53) -/

/-- c_qk of R51: 0 where the product of a query and a key element is exact. -/
def cqk (qfmt kfmt : Nat) : Nat := if qfmt = fmtFP32 ∨ (qfmt = fmtFP16 ∧ kfmt = fmtINT8) then 1 else 0

/-- q·k, and Σ |q·k| of R52: 0 where an operand is not finite. -/
def dotRat (q k : List F32) : Rat := (List.zipWith (fun a b => f32Rat a * f32Rat b) q k).foldl (· + ·) 0
def magRat (q k : List F32) : Rat :=
  if q.any F32.special || k.any F32.special then 0
  else ((List.zipWith (fun a b => f32Rat a * f32Rat b) q k).map ratAbs).foldl (· + ·) 0

/-- The reference score of a slot of one kind (R48, R49, R109); none for -infinity. -/
def refScore (sigma cap : F32) (q k : List F32) : ScoreKind → Option SlotScore
  | .nan => some .nan
  | .pos => some (if cap = 0 then .pos else .fin (f32Rat cap))
  | .neg => if cap = 0 then none else some (.fin (-f32Rat cap))
  | .fin =>
    let x := f32Rat sigma * dotRat q k
    some (.fin (if cap = 0 then x else f32Rat cap * ratTanh (x / f32Rat cap)))

/-- E_s of R52 for the largest Σ |q·k| over the context. -/
def scoreError (e : BitVec 512) (g : Geom) (a : Rat) : Rat :=
  f32Rat (sigmaOf e g.d) * ((ceilLog2 g.d + 1 + cqk (atQfmt e) g.kfmt : Nat) : Rat) * unitU * a +
    (if atSoftcap e = 0 then 0 else f32Rat (atSoftcap e) * (1 / 2 ^ 21 + 2 * unitU))

/-- A visible slot with its key and value vectors. -/
structure SeenSlot where
  page : Nat
  slot : Nat
  k : List F32
  v : List F32

/-- The reference slots of some slots; where the order of a sum decides what a score is, the node's order is open (R46, R56). -/
def State.refSlots (sigma cap : F32) (q : List F32) : List SeenSlot → State → List RefSlot × State
  | [], s => ([], s)
  | x :: xs, s =>
    let ks := scoreKinds sigma q x.k
    let (n, s) := if ks.length ≤ 1 then (0, s) else s.draw ks.length
    let (l, s) := State.refSlots sigma cap q xs s
    match refScore sigma cap q x.k (ks.getD n .fin) with
    | some y => ({ page := x.page, slot := x.slot, score := y, v := x.v } :: l, s)
    | none => (l, s)

/-- The reference of a record: E_s over every context token, and the slots that the mask lets it see (R52, DESIGN CHOICE, log 70). -/
def State.reference (s : State) (e : BitVec 512) (g : Geom) (p : RowPlan) (blk : List Byte) (kv t h : Nat) : Reference × State :=
  let q := queryVec e g.d blk p.row t h
  let a := p.frames.zipIdx.foldl (fun a f => (List.range (min 256 (p.row.ctx - 256 * f.2))).foldl (fun a x =>
    max a (magRat q (s.slotK g (atLayer e) f.1 kv x))) a) 0
  let seen := p.frames.zipIdx.flatMap fun f => (visibleOn e p.row t f.2).map fun x =>
    (⟨f.2, x, s.slotK g (atLayer e) f.1 kv x, s.slotV g (atLayer e) f.1 kv x⟩ : SeenSlot)
  let (l, s) := State.refSlots (sigmaOf e g.d) (atSoftcap e) q seen s
  ({ es := scoreError e g a, slots := l }, s)

/-- The finite score of a slot. -/
def RefSlot.rat (t : RefSlot) : Option Rat := match t.score with | .fin x => some x | _ => none

/-- Every score of some slots is finite. -/
def settled (l : List RefSlot) : Bool := l.all fun t => t.rat.isSome

/-- The largest finite score of some slots. -/
def topScore (l : List RefSlot) : Option Rat :=
  match l.filterMap RefSlot.rat with
  | [] => none
  | x :: xs => some (xs.foldl max x)

/-- Slots of finite scores with their weights e^(s - top). -/
def weights (top : Rat) (l : List RefSlot) : List (Rat × RefSlot) := l.filterMap fun t => t.rat.map fun x => (ratExp (x - top), t)

/-- l of the reference: the sum of the weights. -/
def weightSum (ws : List (Rat × RefSlot)) : Rat := ws.foldl (fun a w => a + w.1) 0

/-- y_c of the reference: the weighted mean of the values. -/
def weightMean (ws : List (Rat × RefSlot)) (c : Nat) : Rat :=
  ws.foldl (fun a w => a + w.1 * f32Rat (w.2.v.getD c 0)) 0 / weightSum ws

/-- V_c over some slots (R52). -/
def maxValue (l : List RefSlot) (c : Nat) : Rat := l.foldl (fun a t => max a (ratAbs (f32Rat (t.v.getD c 0)))) 0

/-- The record of position t and head h of a row, with its candidate pages in ascending page order. -/
def State.recWork (s : State) (e : BitVec 512) (g : Geom) (blk : List Byte) (p : RowPlan) (t h : Nat) : RecWork × State :=
  let kv := h / max 1 (atHq e / max 1 (if g.latent then 1 else g.hkv))
  let (ref, s) := s.reference e g p blk kv t h
  ({ k := p.recNo (atHq e) t h, ref := ref, cands := p.frames.zipIdx.filterMap fun f => s.candOf e g p blk kv t h f.2 f.1 }, s)

/-- The records of some rows. -/
def State.allRecs (s : State) (e : BitVec 512) (g : Geom) (blk : List Byte) : List (RowPlan × Nat × Nat) → List RecWork × State
  | [] => ([], s)
  | x :: xs =>
    let (r, s) := s.recWork e g blk x.1 x.2.1 x.2.2
    let (rs, s) := s.allRecs e g blk xs
    (r :: rs, s)

/-- Positions and heads of some rows, in record order (R107). -/
def recordKeys (hq : Nat) (ps : List RowPlan) : List (RowPlan × Nat × Nat) :=
  ps.flatMap fun p => (List.range p.row.nq).flatMap fun t => (List.range hq).map fun h => (p, t, h)

/-! ### Query tables (R167) -/

/-- Vector sets of a row, one query table for each. -/
def rowGroups (e : BitVec 512) (g : Geom) (p : RowPlan) : List Group :=
  let hkv := if g.latent then 1 else g.hkv
  groupsOf p.row.nq (atHq e / max 1 hkv) hkv

/-- The part of an ATTEND_PAGES body that a query table fixes (R167): its first vector stands at position `t` of the row and head `h`,
with `hpp` vectors for each position. -/
def attendBody (e : BitVec 512) (g : Geom) (p : RowPlan) (t h hpp : Nat) : Nat :=
  (p.row.cpos * 2 ^ 480 + p.row.ctx * 2 ^ 448 + (p.row.q0 + t) * 2 ^ 416 + p.row.pbEnd * 2 ^ 384 + p.row.pbStart * 2 ^ 352 +
    (sigmaOf e g.d).toNat * 2 ^ 320 + (atSoftcap e).toNat * 2 ^ 288 + atWindow e * 2 ^ 264 + atSinks e * 2 ^ 248 + g.d * 2 ^ 232 +
    g.dvOut * 2 ^ 216 + atHq e * 2 ^ 205 + h * 2 ^ 195 + hpp * 2 ^ 188 + g.kfmt * 2 ^ 184 + g.vfmt * 2 ^ 180 + atQfmt e * 2 ^ 176 +
    b2n g.latent * 2 ^ 175 + b2n (atCausal e) * 2 ^ 174 + b2n (atPb e) * 2 ^ 173 + b2n (atSkip e == 1) * 2 ^ 172 +
    ((tauOf e).toNat / 2 ^ 16) * 2 ^ 148 + p.recNo (atHq e) t h * 2 ^ 128) / 2 ^ 128

/-- The query table of a vector set. -/
def tableOf (e : BitVec 512) (g : Geom) (p : RowPlan) (blk : List Byte) (gr : Group) : QTable :=
  let v0 := gr.vecs.headD (0, 0)
  let hpp := (gr.vecs.filter fun v => v.1 == v0.1).length
  let w := vecBytes (atQfmt e) g.d
  { body := BitVec.ofNat 384 (attendBody e g p v0.1 v0.2 hpp), rbase := p.recNo (atHq e) v0.1 v0.2, hpp := hpp,
    bytes := gr.vecs.flatMap fun v => (blk.drop (((p.row.qidx + v.1) * atHq e + v.2) * w)).take w }

/-- QIDX of a record in a table. -/
def QTable.qidx (q : QTable) (hq k : Nat) : Nat := (k - q.rbase) / max 1 hq * q.hpp + (k - q.rbase) % max 1 hq

/-- Lowest and highest visible slot on a page over the vectors of a block. -/
def groupSpan (e : BitVec 512) (r : AttRow) (vs : List (Nat × Nat)) (page : Nat) : Option (Nat × Nat) :=
  match vs.flatMap fun v => visibleOn e r v.1 page with
  | [] => none
  | x :: xs => some (xs.foldl min x, xs.foldl max x)

/-- The blocks of a row (R111, R112), each with the place where the walk found its frame (R29) and its query table, numbered from `n`;
block numbers are given later. -/
def rowBlocks (place : Nat → Place) (e : BitVec 512) (g : Geom) (n : Nat) (p : RowPlan) : List Block :=
  (rowGroups e g p).zipIdx.flatMap fun gt =>
    let gr := gt.1
    p.frames.zipIdx.filterMap fun f =>
      (groupSpan e p.row gr.vecs f.2).map fun sp =>
        let lo := sp.1 / 16 * 16
        let hi := min (sp.2 / 16 * 16 + 16) (p.row.ctx - 256 * f.2)
        let bytes := (hi - lo) * (g.kb + g.vb)
        let recs := (gr.vecs.filter fun v => !(visibleOn e p.row v.1 f.2).isEmpty).map fun v => p.recNo (atHq e) v.1 v.2
        { id := 0, parent := 0, page := f.2, frame := f.1, place := place f.1, recs := recs, kv := gr.kv, lo := lo, hi := hi, bytes := bytes, table := n + gt.2,
          planned := attendPs g (atQfmt e) bytes gr.vecs.length (hi - lo), arith := attendArith g (atQfmt e) gr.vecs.length (hi - lo) }

/-- The blocks of every row. -/
def allBlocks (place : Nat → Place) (e : BitVec 512) (g : Geom) : Nat → List RowPlan → List Block
  | _, [] => []
  | n, p :: ps => rowBlocks place e g n p ++ allBlocks place e g (n + (rowGroups e g p).length) ps

/-- Does a block read a line whose uncorrectable error stands (R428)? -/
def State.blockBad (s : State) (g : Geom) (b : Block) : Bool :=
  s.meetsBad b.frame (g.kOff b.kv b.lo) ((b.hi - b.lo) * g.kb) ||
  (!g.latent && s.meetsBad b.frame (g.vOff b.kv b.lo) ((b.hi - b.lo) * g.vb))

/-! ### Ranking and waves (R142, R143, R145) -/

/-- Rank order: descending bound, unbounded first, then the lower page. -/
def rankBefore (a b : Cand) : Bool := f32Lt b.bound a.bound || (!f32Lt a.bound b.bound && decide (a.page ≤ b.page))

def RecWork.ranked (r : RecWork) : List Cand := r.cands.mergeSort rankBefore

/-- The lead pages of a record in bounded mode. -/
def RecWork.leads (r : RecWork) : List Nat := (r.ranked.take 2).map (·.page)

/-- In budget mode a record omits all but its BUDGET best (R145). -/
def RecWork.cut (r : RecWork) (budget : Nat) : RecWork := { r with omitted := (r.ranked.drop budget).map (·.page) }

def recAt (rs : List RecWork) (k : Nat) : Option RecWork := rs.find? (·.k == k)

/-- A candidate falls below the running threshold: B_p < m_pub - τ, exactly (R143). -/
def belowThreshold (tau mpub : F32) (c : Cand) : Bool := Num.lt (F32.num c.bound) (Num.add .nearest (F32.num mpub) (F32.num tau).neg)

/-- Split a block for bounded mode: entries for which the page is a lead page, and the others (R143). -/
def splitBlock (rs : List RecWork) (b : Block) : List Block :=
  let lead := b.recs.filter fun k => match recAt rs k with | some r => r.leads.contains b.page | none => false
  let rest := b.recs.filter fun k => !lead.contains k
  (if lead.isEmpty then [] else [{ b with recs := lead, lead := true }]) ++
  (if rest.isEmpty then [] else [{ b with recs := rest, follow := true }])

/-- Keep the entries of a block whose record does not omit the page. -/
def keepRead (rs : List RecWork) (b : Block) : Block :=
  { b with recs := b.recs.filter fun k => match recAt rs k with | some r => !r.omitted.contains b.page | none => false }

/-- The reads of a request, numbered, in the order of R111. -/
def planBlocks (e : BitVec 512) (rs : List RecWork) (bs : List Block) : List Block :=
  let bs := bs.zipIdx.map fun b => { b.1 with parent := b.2 }
  let bs := if atSkip e = 1 then bs.flatMap (splitBlock rs)
    else if atSkip e = 2 then (bs.map (keepRead rs)).filter fun b => !b.recs.isEmpty
    else bs
  bs.zipIdx.map fun b => { b.1 with id := b.2 }

/-! ### Omission while the request runs (R143, R169) -/

/-- Drop the entries of a follow block that fall below the threshold now, marking the pages omitted. -/
def dropBelow (tau : F32) (b : Block) (rs : List RecWork) : Block × List RecWork :=
  let out := b.recs.filter fun k => match recAt rs k with
    | some r => (r.cands.find? (·.page == b.page)).any (belowThreshold tau r.mpub)
    | none => false
  ({ b with recs := b.recs.filter fun k => !out.contains k },
   rs.map fun r => if out.contains r.k then { r with omitted := insertNew b.page r.omitted } else r)

/-! ### Records (R113-R116, R146) -/

/-- 1 + 2^-21. -/
def onePlus : F32 := 0x3F800004

/-- BETA of a record from its m and l (R146), summed in rank order (DESIGN CHOICE, log 21). -/
def betaOf (r : RecWork) (m l : F32) : F32 :=
  let om := r.ranked.filter fun c => r.omitted.contains c.page
  if om.isEmpty then F32.zero
  else
    let term := fun c : Cand =>
      F32.mulR .up (F32.ofNum .up (.fin false c.slots 0))
        (F32.mulR .up (F32.exp (F32.addR .up c.bound (F32.neg m))) onePlus)
    F32.divR .up (om.foldl (fun a c => F32.addR .up a (term c)) F32.zero) l

/-- Pages that a record reads. -/
def RecWork.readPages (r : RecWork) : List Cand := r.cands.filter fun c => !r.omitted.contains c.page

/-- The identity record of R49. -/
def identityRecord (dv : Nat) : Record := { m := F32.negInf, l := F32.zero, o := List.replicate dv F32.zero }

/-- The NaN record of R49; its counts are as for any record. -/
def nanRecord (dv : Nat) : Record := { m := F32.nan, l := F32.nan, o := List.replicate dv F32.nan, beta := F32.nan }

/-- L of R53. -/
def RecWork.depth (r : RecWork) : Nat := 8 + r.readPages.length

/-- Reference slots that the record reads. -/
def RecWork.readSlots (r : RecWork) : List RefSlot := r.ref.slots.filter fun t => !r.omitted.contains t.page

/-- m within E_s of the largest reference score that the record reads (R52, R53), and no less than what it published (R144). -/
def RecWork.pickM (r : RecWork) (top : Rat) (m : F32) : F32 :=
  let m := pickBy (fun y => ratAbs (y - top) ≤ r.ref.es) (ratF32 top) m
  if f32Lt m r.mpub then r.mpub else m

/-- What m, l and o of a record are compared with: the largest score it reads, L of R53, the weights of the slots it reads, those of its
whole context where every score and value there is finite, and the bracket of R53. -/
structure RecBound where
  top : Rat
  depth : Nat
  read : List (Rat × RefSlot)
  all : List (Rat × RefSlot)
  whole : Bool
  bracket : Rat

def RecWork.bound (r : RecWork) (depth : Nat) : RecBound :=
  let top := (topScore r.readSlots).getD 0
  { top := top, depth := depth, read := weights top r.readSlots, all := weights top r.ref.slots,
    whole := settled r.ref.slots && !r.ref.slots.any fun t => t.v.any F32.special,
    bracket := (ratExp (2 * r.ref.es) - 1) + 4 * epsExp + (2 * depth + 4 : Nat) * unitU + ratSlack }

/-- l within the relative bound of R53 of the sum over the slots read (R113; under PARTIAL_SKIPPED too: DESIGN CHOICE, log 70). -/
def RecWork.pickL (r : RecWork) (b : RecBound) (m l : F32) : F32 :=
  let w := weightSum b.read
  let y := ratExp (f32Rat m - b.top)
  let d := (ratExp r.ref.es - 1) + 2 * epsExp + (b.depth + 2 : Nat) * unitU + ratSlack
  pickBy (fun z => ratAbs (z * y - w) ≤ w * d) (ratF32 (w / y)) l

/-- An element of o over infinite values: none where no value is infinite; a weight that has vanished makes of one a NaN (0 · infinity), as
do infinities of both signs. -/
def infO (top es : Rat) (l : List RefSlot) (c : Nat) (o : F32) : Option F32 :=
  let xs := l.filter fun t => F32.special (t.v.getD c 0)
  let vs := xs.map fun t => t.v.getD c 0
  let small := xs.any fun t => decide ((t.rat.getD 0) - top < 2 * es - 100)
  if xs.isEmpty then none
  else if vs.all fun v => v == F32.posInf then some (if small && o != F32.posInf then F32.nan else F32.posInf)
  else if vs.all fun v => v == F32.negInf then some (if small && o != F32.negInf then F32.nan else F32.negInf)
  else some F32.nan

/-- Is z allowed for o_c: within R53 of l times the mean over the slots read (R113), and within R53 and R54 of l times the mean over the
whole context? A partial has no BETA (a NaN). -/
def RecWork.okO (r : RecWork) (b : RecBound) (bf : Bool) (l beta : F32) (c : Nat) (z : Rat) : Bool :=
  let near := fun (ws : List (Rat × RefSlot)) (x : List RefSlot) (more : Rat) =>
    let y := weightMean ws c
    let v := maxValue x c
    decide (ratAbs (z - f32Rat l * y) ≤ ratAbs (f32Rat l) * (b.bracket * v + (if bf then ratAbs y / 2 ^ 8 else 0) + more * v))
  near b.read r.readSlots 0 && (!b.whole || beta.special || near b.all r.ref.slots (2 * f32Rat beta))

/-- o_c within the bounds of R53 and R54. -/
def RecWork.pickO (r : RecWork) (b : RecBound) (bf : Bool) (l beta : F32) (c : Nat) (o : F32) : F32 :=
  let round := fun x : F32 => if bf then bf16ToF32 (BitVec.ofNat 16 (Fmt.bf16.encode .nearest x.num).1) else x
  if let some y := infO b.top r.ref.es r.readSlots c (round o) then y
  else if l.special then round o
  else pickBy (r.okO b bf l beta c) (round (ratF32 (f32Rat l * weightMean b.read c))) (round o)

/-- m, l and o of a record, R49's where it fixes them, else the values of `x` where they lie within the bounds of R52 to R54, and the
nearest values where they do not (DESIGN CHOICE, log 20). BETA is `beta` of m and l. -/
def RecWork.shape (r : RecWork) (dv : Nat) (bf : Bool) (depth : Nat) (beta : F32 → F32 → F32) (x : Record) : Record :=
  let l := r.readSlots
  if l.any fun t => t.score == .nan || t.v.any F32.isNan then nanRecord dv
  else if l.any fun t => t.score == .pos then { nanRecord dv with m := F32.posInf, beta := beta F32.posInf F32.nan }
  else if l.isEmpty then { identityRecord dv with beta := beta F32.negInf F32.zero }
  else
    let b := r.bound depth
    let m := r.pickM b.top x.m
    let y := r.pickL b m x.l
    let z := beta m y
    { m := m, l := y, o := (List.range dv).map fun c => r.pickO b bf y z c (x.o.getD c 0), beta := z }

/-- Free words for a record. -/
def State.drawRecord (s : State) (dv : Nat) : Record × State :=
  let (m, s) := s.drawBits 32
  let (l, s) := s.drawBits 32
  let (o, s) := (List.range dv).foldl (fun a _ => let x := a.2.drawBits 32; (a.1 ++ [x.1], x.2)) (([] : List F32), s)
  ({ m := m, l := l, o := o }, s)

/-! ### Merging two records (R118, R119) -/

/-- Does a record take part: m above -infinity? -/
def Record.live (x : Record) : Bool := x.m != F32.negInf

/-- The counts of two records, summed (R119). -/
def Record.counts (x a b : Record) : Record :=
  { x with pagesRead := a.pagesRead + b.pagesRead, pagesSkipped := a.pagesSkipped + b.pagesSkipped, tokens := a.tokens + b.tokens }

/-- Add one live record, scaled to the merged maximum (R118); the omitted sum is rounded toward +infinity (DESIGN CHOICE, log 20). -/
def Record.scaleInto (acc : Record) (m : F32) (r : Record) : Record :=
  let f := F32.exp (F32.sub r.m m)
  { acc with
    l := F32.add acc.l (F32.mul r.l f)
    o := (acc.o.zip r.o).map fun x => F32.add x.1 (F32.mul x.2 f)
    beta := F32.addR .up acc.beta (F32.mulR .up (F32.mulR .up r.beta r.l) f) }

/-- Merge two records of `dv` elements. -/
def mergeRecords (dv : Nat) (a b : Record) : Record :=
  if F32.isNan a.m ∨ F32.isNan b.m then (nanRecord dv).counts a b
  else match [a, b].filter Record.live with
    | [] => (identityRecord dv).counts a b
    | x :: xs =>
      let m := xs.foldl (fun m r => F32.max m r.m) x.m
      let r := (x :: xs).foldl (fun acc r => acc.scaleInto m r) { identityRecord dv with m := m }
      ({ r with beta := F32.divR .up r.beta r.l }).counts a b

/-! ### Partials and the finished record (R113, R120, R169) -/

/-- The partial of some pages: open values within the bounds over the slots of those pages, at the record's own depth. -/
def State.formPartial (s : State) (dv : Nat) (r : RecWork) (pages : List Nat) : Record × State :=
  let (x, s) := s.drawRecord dv
  let own := (r.cands.map (·.page)).filter fun p => !pages.contains p
  ({ ({ r with omitted := own, mpub := F32.negInf } : RecWork).shape dv false r.depth (fun _ _ => F32.nan) x with beta := F32.zero }, s)

/-- Send the partials of a list that have not been sent. -/
def State.sendPartials (s : State) (dv : Nat) (rs : List RecWork) : List Partial → List Partial × State
  | [] => ([], s)
  | p :: ps =>
    match p.sent, recAt rs p.k with
    | none, some r =>
      let (x, s) := s.formPartial dv r p.pages
      let (l, s) := s.sendPartials dv rs ps
      ({ p with sent := some x } :: l, s)
    | _, _ => let (l, s) := s.sendPartials dv rs ps; (p :: l, s)

/-- The crucibles' merge of the partials of a record, in the order in which they came (R120, R56). -/
def mergePartials (dv k : Nat) (ps : List Partial) : Record :=
  (ps.filter (·.k == k)).foldl (fun a p => match p.sent with | some x => mergeRecords dv a x | none => a) (identityRecord dv)

/-- BETA of a finished record: R49's +0 where every visible score is -infinity, else R146's. -/
def RecWork.betaFor (r : RecWork) (m l : F32) : F32 := if r.ref.slots.isEmpty then F32.zero else betaOf r m l

/-- The finished record: the merge of its partials within the bounds of R52 to R54, m at least what was published (R144), with the counts
of the run. `bf`: the elements leave in BF16. -/
def RecWork.finish (r : RecWork) (dv : Nat) (bf : Bool) (merged : Record) : Record :=
  let rd := r.readPages
  { r.shape dv bf r.depth r.betaFor merged with
    pagesRead := rd.length, pagesSkipped := r.cands.length - rd.length, tokens := sumOf (·.slots) rd }

/-- An element of o in OFMT, divided by l when NORMALISE is set; an identity record is +0 (R116). -/
def outElem (x : Record) (ofmt : Nat) (normalise : Bool) (o : F32) : List Byte :=
  let y := if !normalise then o else if x.m = F32.negInf then F32.zero else F32.div o x.l
  (encodeVec ofmt [] [y]).1

/-- A record as bytes (R114). -/
def Record.bytes (x : Record) (ofmt : Nat) (counts normalise : Bool) : List Byte :=
  leBytes 4 x.m.toNat ++ leBytes 4 x.l.toNat ++
  (if counts then leBytes 4 x.pagesRead ++ leBytes 4 x.pagesSkipped ++ leBytes 4 x.beta.toNat ++ leBytes 4 x.tokens else []) ++
  x.o.flatMap (outElem x ofmt normalise)

end Sys2Proof.Machine
end

