-- ==== Sys2Proof/Machine/Sequences.lean ====
section
/-! DEFINITION. Sys2Proof/Machine/Sequences.lean: geometry, sequences, MAP and the translation edits (chapter 03). -/

namespace Sys2Proof.Machine

open Sys2Proof

/-! ### Shared by the requests of this chapter -/

/-- A request lacks room (R83-R85, R185): victims are taken or storage is on its way and the request stays, to be run
again; or it ends with CAPACITY. -/
def State.needRoom (s : State) (r : Req) (rclass : Nat) (needer : Option Nat) (noPreempt : Bool) : State :=
  match s.reqRoom r rclass needer noPreempt with
  | some s => s.accept r.id []
  | none => s.endReq r.id .capacity

/-- A write of a request found no sectors (R185): it waits for them, or ends with CAPACITY. -/
def State.needSectors (s : State) (r : Req) (rclass : Nat) (needer : Option Nat) : State :=
  match s.reqRoom r rclass needer false with
  | some s => s.waitReq r.id .sectors
  | none => s.endReq r.id .capacity

/-- Write a request's output to its tenant's memory, then go on (R91, R185). Sectors that it needs are sought as for class 7, the class
that R100 gives MAP (DESIGN CHOICE, log 80). -/
def State.store (s : State) (r : Req) (a : Nat) (bs : List Byte) (go : State → State) : State :=
  match s.writeTenant r.payer a bs with
  | .done s => go s
  | .bad st s => s.endReq r.id st
  | .noSectors => s.needSectors r 7 none

/-- The sequence that a request names, its descriptor held (R58, R188). -/
def State.onSeq (s : State) (r : Req) (handle : Nat) (go : Seq → State) : State :=
  match s.findSeq r.tenant handle r.accepted with
  | none => s.endReq r.id .keyFault
  | some q => if s.descLost q then s.endReq r.id .internal else go q

/-- Does the table page of a key cover part of a range? -/
def tableKeyIn (key a len : Nat) : Bool :=
  let span := 2 ^ (23 + 9 * (key / 2 ^ 40))
  let base := key % 2 ^ 40 * span
  decide (a < base + span) && decide (base < a + len)

/-- A privileged read of a table page of the tenant that covers part of a range is stalled (R209). -/
def State.pageStalled (s : State) (t a len : Nat) : Bool :=
  s.mem.stalls.any fun x => x.tenant == t && (x.kind == .tableHigh || x.kind == .tableLow) && tableKeyIn x.key a len

/-- How the walks of a sequence's pages end a request that needs them (R91, R188): a generation that does not match, or metadata that is lost. -/
def State.pagesFail (s : State) (q : Seq) (ps : List (Nat × Nat)) : Option Walked :=
  (ps.map fun lp => s.walk q.tenant (q.pageAddr (s.seqFrameBytes q) lp.1 lp.2) .read).find? fun w => w == .badGen || w == .lost

/-- A walk that failed so is counted where it met a generation that does not match (R91). -/
def State.countWalk (s : State) (t : Nat) (w : Walked) : State := if w = .badGen then s.count (0x4000 + t) 0x54 else s

/-- A request goes on where the walks of the pages that it needs do not end it with INTERNAL (R91, R188). -/
def State.withPages (s : State) (r : Req) (q : Seq) (ps : List (Nat × Nat)) (go : State → State) : State :=
  match s.pagesFail q ps with
  | some w => (s.countWalk q.tenant w).endReq r.id .internal
  | none => go s

/-- A lost table page of the tenant covers part of a range (R188). -/
def State.tablesLost (s : State) (t a len : Nat) : Bool :=
  s.mem.lost.any fun x => x.1 == t && (x.2.1 == .tableHigh || x.2.1 == .tableLow) && tableKeyIn x.2.2 a len

/-- An edit of the entries of a range goes on where no table page that it needs is lost (R188). -/
def State.withTables (s : State) (r : Req) (a len : Nat) (go : State → State) : State :=
  if s.tablesLost r.tenant a len then s.endReq r.id .internal else go s

/-- The ranges whose entries a request edits. -/
def State.editRanges (s : State) (q : Req) : List (Nat × Nat) :=
  let e := q.entry
  let own := fun h => match s.findSeq q.tenant h q.accepted with | some x => [(x.base, s.seqRange x)] | none => []
  if q.op = opSEQ_CREATE then
    match s.geom q.tenant (fld e 143 128) with
    | some g => [(opAddrHigh e, rangeBytes g.layers (ceilDiv (fld e 223 192) 256) g.frame)]
    | none => []
  else if q.op = opFORK then (own (opHandle e)).map fun x => (opAddrHigh e, x.2)
  else if q.op = opPAGE_SHARE then own (fld e 255 208)
  else if q.op = opMAP then [(fld e 191 128, fld e 223 192 * granule * 2 ^ fld e 227 224)]
  else if q.op = opUNMAP then [(fld e 191 128, fld e 223 192 * mib8)]
  else if q.op = opREMAP then [(fld e 191 128, fld e 287 256 * mib8), (fld e 255 192, fld e 287 256 * mib8)]
  else own (opHandle e)

/-- Run the row of a request that edits table entries: an edit waits for a privileged stall on its table page to end (R209). -/
def State.runEdit (s : State) (r op : Nat) (f : Req → State → State) : State :=
  s.runReq r [op] fun q s => if (s.editRanges q).any fun x => s.pageStalled q.tenant x.1 x.2 then s else f q s

/-- End with OK. -/
def State.okReq (s : State) (r : Req) (result : Nat) : State := s.endReq r.id .ok result

/-! ### GEOM_DEFINE, GEOM_RELEASE (R59-R61) -/

/-- Format codes of R38 that R50 permits for K or V. -/
def kvFormat (code : Nat) : Bool := decide (1 ≤ code) && decide (code ≤ 8)

/-- The geometry that a GEOM_DEFINE body describes. -/
def geomOf (t : Nat) (e : BitVec 512) : Geom :=
  { tenant := t, id := fld e 143 128, layers := fld e 159 144, hkv := fld e 175 160, d := fld e 191 176,
    dv := fld e 207 192, kfmt := fld e 211 208, vfmt := fld e 215 212, latent := flag e 216 }

/-- Steps 1 to 4 of R59. -/
def Geom.checks (g : Geom) : List (Bool × Status) :=
  [(!kvFormat g.kfmt || (!g.latent && !kvFormat g.vfmt), .formatUnsupported),
   (decide (1024 ≤ g.id) || g.layers == 0 || decide (512 < g.layers) || g.hkv == 0 || decide (256 < g.hkv) ||
    decide (g.d < 16) || decide (1024 < g.d) || decide (g.d % 16 ≠ 0) || (g.latent && g.hkv != 1) ||
    (!g.latent && g.dv != 0) || (g.latent && (decide (g.dv < 16) || decide (g.d < g.dv) || decide (g.dv % 16 ≠ 0))),
    .rangeFault),
   ((decide (g.d % 32 ≠ 0) && (blocked g.kfmt || (!g.latent && blocked g.vfmt))) ||
    (g.latent && decide (g.dv % 32 ≠ 0) && blocked g.kfmt), .formatUnsupported),
   (decide (mib8 < g.pageBytes), .rangeFault)]
where
  /-- MX and INT4 formats come in blocks of 32 (R39). -/
  blocked (c : Nat) : Bool := c == fmtMX6 || c == fmtMX4 || c == fmtINT4

/-- Channel scales of R60. -/
def Geom.scaleCount (g : Geom) : Nat :=
  if g.kfmt = fmtINT8 ∨ (!g.latent ∧ g.vfmt = fmtINT8) then
    (if g.latent then g.layers * g.d else 2 * g.layers * g.hkv * g.d)
  else 0

/-- BF16 values of a byte list. -/
def bf16List : Nat → List Byte → List (BitVec 16)
  | 0, _ => []
  | n + 1, bs => BitVec.ofNat 16 (leVal (bs.take 2)) :: bf16List n (bs.drop 2)

/-- The scale table, or none when it cannot be read or holds a scale that R44 rejects (R59 step 6). -/
def State.readScales (s : State) (y : Payer) (g : Geom) (a : Nat) : Option (List (BitVec 16) × State) :=
  if g.scaleCount = 0 then some ([], s)
  else match s.loadTenant y a (2 * g.scaleCount) with
    | .error _ => none
    | .ok (bs, s) =>
      let vs := bf16List g.scaleCount bs
      if vs.all int8ScaleOk then some (vs, s) else none

def execGeomDefine (r : Nat) (s : State) : Host.Outcome State Fault Refusal :=
  .next <| s.runReq r [opGEOM_DEFINE] fun q s =>
    let g := geomOf q.tenant q.entry
    s.checked r ((q.loan, .keyFault) :: g.checks ++ [((s.geom g.tenant g.id).isSome, .rangeFault)]) fun s =>
      match s.readScales q.payer g (opAddrHigh q.entry) with
      | none => s.endReq r .rangeFault
      | some (vs, s) => ({ s with geoms := s.geoms ++ [{ g with scales := vs }] }).okReq q g.frame

def execGeomRelease (r : Nat) (s : State) : Host.Outcome State Fault Refusal :=
  .next <| s.runReq r [opGEOM_RELEASE] fun q s =>
    let id := fld q.entry 143 128
    let used := s.seqs.any fun x => x.tenant == q.tenant && x.geom == id
    s.checked r [(decide (1024 ≤ id) || (s.geom q.tenant id).isNone || used, .rangeFault)] fun s =>
      ({ s with geoms := dropWhere (fun g => g.tenant == q.tenant && g.id == id) s.geoms }).okReq q 0

/-! ### SEQ_CREATE, FORK (R65-R67, R75) -/

/-- Is a range bad for a sequence (R67)? -/
def State.rangeBad (s : State) (t base len : Nat) : Bool :=
  decide (base % mib8 ≠ 0) || decide (s.addrLimit t < base + len) || s.mappedIn t base len || s.seqRangeIn t base len

/-- Enter a new sequence in the lowest free handle index (R65, DESIGN CHOICE, log 10); its table pages are taken by the caller. -/
def State.enterSeq (s : State) (q : Seq) : Option (Nat × State) :=
  (lowestFree (s.seqs.map (·.idx)) (maxSeqIndex + 1)).map fun idx =>
    let gen := max 1 (assocGet s.gens.seqs idx 0)
    let q := { q with idx := idx, gen := gen, lastAtt := s.clk.ltime }
    (q.handle, { s with gens := { s.gens with seqs := assocPut s.gens.seqs idx gen 0 }, seqs := s.seqs ++ [q] })

/-- The table pages of a sequence range that hold its RSV entries (R89). -/
def rangeTables (base len : Nat) : List (Nat × Nat) := tablePagesFor base len 1

/-- The largest capacity of a sequence, in tokens (R63). -/
def maxSeqTokens : Nat := 16777216

/-- The sequence that a SEQ_CREATE request describes (R67). -/
def newSeq (q : Req) (g : Geom) : Seq :=
  { idx := 0, gen := 0, tenant := q.tenant, comp := q.comp, geom := g.id, base := opAddrHigh q.entry, cap := fld q.entry 223 192,
    fills := List.replicate g.layers 0, pinned := flag q.entry 144, rclass := fld q.entry 162 160 }

/-- Create the sequence over a range of `len` bytes (R67). With every handle index in use it ends with CAPACITY (DESIGN CHOICE, log 80). -/
def State.createSeq (s : State) (q : Req) (g : Geom) (len : Nat) : State :=
  match s.takeTables q.tenant (rangeTables (opAddrHigh q.entry) len) with
  | none => s.endReq q.id .capacity
  | some s' =>
    match s'.enterSeq (newSeq q g) with
    | none => s.endReq q.id .capacity
    | some (h, s') => s'.okReq q h

/-- SEQ_CREATE. A geometry ID that is not defined for the tenant ends it with RANGE_FAULT (DESIGN CHOICE, log 80). -/
def execSeqCreate (r : Nat) (s : State) : Host.Outcome State Fault Refusal :=
  .next <| s.runEdit r opSEQ_CREATE fun q s =>
    let cap := fld q.entry 223 192
    match s.geom q.tenant (fld q.entry 143 128) with
    | none => s.endReq r (if q.loan then .keyFault else .rangeFault)
    | some g =>
      let len := rangeBytes g.layers (ceilDiv cap 256) g.frame
      s.checked r
        [(q.loan, .keyFault),
         (cap == 0 || decide (maxSeqTokens < cap) || s.rangeBad q.tenant (opAddrHigh q.entry) len, .rangeFault)] fun s =>
        s.withTables q (opAddrHigh q.entry) len fun s =>
        s.createSeq q g len

/-- The layer and page pairs of the first `n` pages of every layer. -/
def firstPages (layers n : Nat) : List (Nat × Nat) := (List.range layers).flatMap fun l => (List.range n).map fun p => (l, p)

/-- Most sequences that a frame counts (R77). -/
def maxSharers : Nat := 65535

/-- Map pages of one sequence into another, sharing the frames (R75, R76). -/
def State.sharePages (s : State) (src dst : Seq) (f : Nat) : List ((Nat × Nat) × (Nat × Nat)) → State
  | [] => s
  | (a, b) :: l =>
    match s.pageMap src a.1 a.2 with
    | some m => (s.cowEdit (s.mapFrame dst.tenant (dst.pageAddr f b.1 b.2) m.frame true false true) m.frame).sharePages src dst f l
    | none => s.sharePages src dst f l

/-- Would mapping pages of `q` in a sequence that maps the frames `mine` push a frame past its share count (R77)? -/
def State.shareFull (s : State) (q : Seq) (mine : List Nat) (ps : List (Nat × Nat)) : Bool :=
  ps.any fun lp => match s.pageMap q lp.1 lp.2 with
    | some m => decide (maxSharers ≤ s.sharers m.frame) && !mine.contains m.frame
    | none => false

/-- A FORK waits for the SEQ_TRUNCATEs of its parent that were accepted before it. -/
def State.forkTurn (s : State) (q : Req) (h : Nat) (go : State → State) : State :=
  if q.accepted then (if s.anyLive q.after then s else go s)
  else
    let ts := s.earlier q fun x => x.op == opSEQ_TRUNCATE && opHandle x.entry == h
    if ts.isEmpty then go s else s.accept q.id ts

/-- FORK takes the parent's length at acceptance, and no more than what an earlier SEQ_TRUNCATE has left (R99; DESIGN CHOICE, log 71). Later
writers of the parent wait for it. -/
def execFork (r : Nat) (s : State) : Host.Outcome State Fault Refusal :=
  .next <| s.runEdit r opFORK fun q s =>
    s.onSeq q (opHandle q.entry) fun p =>
    let n := if q.accepted then min q.count p.length else p.length
    let s := s.modReq r fun q => { q with count := if q.accepted then q.count else n }
    s.forkTurn q p.handle fun s =>
    match s.letIn q p false with
    | some s => s
    | none =>
      let k := fld q.entry 207 176
      let base := opAddrHigh q.entry
      let f := s.seqFrameBytes p
      let len := s.seqRange p
      let ps := firstPages p.fills.length (ceilDiv k 256)
      if k > n then s.endReq r .rangeFault
      else s.withPages q p ps fun s =>
      if s.swappedNeeded p ps then s.waitReq r (.restore p.idx)
      else s.checked r [(s.rangeBad q.tenant base len, .rangeFault), (s.shareFull p [] ps, .capacity)] fun s =>
        s.withTables q base len fun s =>
        let c : Seq := { idx := 0, gen := 0, tenant := q.tenant, comp := q.comp, geom := p.geom, base := base, cap := p.cap,
                         fills := p.fills.map fun _ => k, rclass := fld q.entry 210 208, parent := p.handle }
        let leaves := ps.flatMap fun lp => tablePagesFor (c.pageAddr f lp.1 lp.2) f (leafLow f)
        match s.takeTables q.tenant (rangeTables base len ++ leaves) with
        | none => s.endReq r .capacity
        | some s' =>
          match s'.enterSeq c with
          | none => s.endReq r .capacity
          | some (h, s') => (s'.sharePages p c f (ps.map fun lp => (lp, lp))).okReq q h

/-! ### APPEND (R70-R74, R78) -/

/-- Is a run of layers outside the geometry (R72)? -/
def layersBad (first count layers : Nat) : Bool :=
  decide (layers ≤ first) || (count != 0 && decide (layers < first + count))

/-- A source format that APPEND accepts for a stored format (R71). -/
def sourceFormatOk (src stored : Nat) : Bool := src == stored || decide (src ≤ 2)

/-- One vector of the source, in the stored format (R42-R44, R71). -/
def storedVec (src stored d : Nat) (scales : List (BitVec 16)) (bs : List Byte) : List Byte × Exc :=
  if src = stored then (bs, {}) else encodeVec stored scales (decodeVec src d [] bs)

/-- Stored vectors of tokens `[i, i + n)` of head `h` from a source block ordered by token, then head. -/
def sourceRun (src stored d hkv : Nat) (scales : List (BitVec 16)) (blk : List Byte) (h i n : Nat) : List Byte × Exc :=
  let w := vecBytes src d
  let vs := (List.range n).map fun j => storedVec src stored d scales ((blk.drop (((i + j) * hkv + h) * w)).take w)
  (vs.flatMap (·.1), vs.foldl (fun e v => e.add v.2) {})

/-- The writes of one page: offset in the frame and bytes, and the exceptions met. -/
def Geom.pageWrites (g : Geom) (layer srcK srcV lo n i : Nat) (kb vb : List Byte) : List ((Nat × List Byte) × Exc) :=
  (List.range g.hkv).flatMap fun h =>
    let k := sourceRun srcK g.kfmt g.d g.hkv (g.chanScales layer false h) kb h i n
    let v := sourceRun srcV g.vfmt g.d g.hkv (g.chanScales layer true h) vb h i n
    ((g.kOff h lo, k.1), k.2) :: (if g.latent then [] else [((g.vOff h lo, v.1), v.2)])

/-- Apply writes to a frame, the image bytes that they move charged (R314); none when it cannot obtain sectors. -/
def State.applyWrites (s : State) (y : Payer) (n : Nat) : List (Nat × List Byte) → Option State
  | [] => some s
  | (off, bs) :: l =>
    match s.writeFrame n off bs with
    | some s' =>
      (s'.chargePins y n (s.streamBytes n off bs.length + s'.streamBytes n off bs.length)).applyWrites y n l
    | none => none

/-- Copy the slots below `n` of one frame to another, through the decompression engines where one of them lies in the lower tier (R78 step 2,
R172). -/
def State.copySlots (s : State) (g : Geom) (src dst n : Nat) : State :=
  (List.range g.hkv).foldl (fun s h =>
    let s := s.putFrame dst (g.kOff h 0) (s.readFrame src (g.kOff h 0) (n * g.kb))
    if g.latent then s else s.putFrame dst (g.vOff h 0) (s.readFrame src (g.vOff h 0) (n * g.vb))) s

/-- Point a sequence's page at another frame: the old entry is displaced (R78 step 4, R95). -/
def State.repoint (s : State) (q : Seq) (f l p n : Nat) : State :=
  let gen := ((s.frame n).map (·.gen)).getD 0
  let a := q.pageAddr f l p
  s.modMem fun m =>
    { m with maps := modWhere (fun x => x.tenant == q.tenant && x.addr == a && x.seq) (fun x => { x with frame := n, gen := gen }) m.maps
             walkEpoch := m.walkEpoch + 1, tlb := dropWhere (fun e => e.1 == q.tenant && e.2.1 == a) m.tlb }

/-- The image of a new frame after its first contents are in place: what compaction leaves. None: its package has no room for it (R185). -/
def State.settle (s : State) (n : Nat) : Option State :=
  match s.frame n with
  | some f =>
    match f.place with
    | .lower k =>
      let total := s.frameTotal n
      let cs := s.fitChunks k f.chunks total
      let dir := s.frameDir n
      if ceilDiv total 64 ≤ s.pkgFree k + f.chunks.length then some (s.modFrame n fun f => { f with total := total, dead := 0, chunks := cs, dir := dir })
      else none
    | _ => some s
  | none => some s

/-- Copy the slots below `n` of a shared frame for its writer (R78 step 2): COPY commands for each head's K and V in the upper tier (R172). -/
def State.cowCopy (s : State) (j : Job) (g : Geom) (old new n : Nat) : State :=
  if (s.placeOf old).isUpper && (s.placeOf new).isUpper then
    (List.range g.hkv).foldl (fun s h =>
      let s := s.copyWork j old new (s.placeOf old) (s.placeOf new) (g.kOff h 0) (n * g.kb)
      if g.latent then s else s.copyWork j old new (s.placeOf old) (s.placeOf new) (g.vOff h 0) (n * g.vb)) s
  else s.copySlots g old new n

/-- Copy-on-write of one page once the slots have been copied (R78 steps 3 and 4): the copy's touchstone covers them, it keeps the hold
(R203), and a frame that no other sequence maps any more is released. -/
def State.cowPage (s : State) (j : Job) (q : Seq) (g : Geom) (l p old new : Nat) : Option State :=
  let n := q.fill l - 256 * p
  let held := ((s.frame old).map (·.held)).getD false
  let s := s.modFrame new fun f => { f with held := held }
  (((s.widenTouch g l new 0 n).touchWork j g new 0 n tbRebuild 0 0 []).settle new).map fun s =>
    let s := s.cowEdit (s.repoint q g.frame l p new) old
    if s.mapCount old = 0 then s.releaseFrame old else s

/-- A slot that a copy-on-write copy takes lies on a line whose uncorrectable error stands (R178). -/
def State.cowBad (s : State) (g : Geom) (n count : Nat) : Bool :=
  s.keysBad g n count || (!g.latent && (List.range g.hkv).any fun h => s.meetsBad n (g.vOff h 0) (count * g.vb))

/-- What an APPEND is about to do. -/
structure Append where
  q : Seq
  g : Geom
  layers : List Nat
  fill : Nat
  tokens : Nat
  srcK : Nat
  srcV : Nat
  job : Job

/-- Bytes of one layer of the source (R71). -/
def Append.layerBytes (a : Append) : Nat :=
  a.tokens * a.g.hkv * (vecBytes a.srcK a.g.d + if a.g.latent then 0 else vecBytes a.srcV a.g.d)

/-- Layer and page pairs that need a frame: newly entered pages, and a shared tail (R73 steps 1 and 2). -/
def State.appendNeeds (s : State) (a : Append) : List (Nat × Nat) :=
  a.layers.flatMap fun l => (appendSpans a.fill a.tokens).filterMap fun sp =>
    match s.pageMap a.q l sp.1 with
    | none => some (l, sp.1)
    | some m => if s.sharers m.frame > 1 then some (l, sp.1) else none

/-- A frame that the APPEND copies on write and that holds a slot whose line failed (R178). -/
def State.copiesBad (s : State) (a : Append) : Option Nat :=
  (s.appendNeeds a).findSome? fun lp => (s.pageMap a.q lp.1 lp.2).bind fun m =>
    if s.cowBad a.g m.frame (a.q.fill lp.1 - 256 * lp.2) then some m.frame else none

/-- A page that the APPEND writes holds a line that the write needs and that cannot be read: the rest of a unit in the lower tier (R184, R186) or of
a line written in part. -/
def State.slotsBad (s : State) (a : Append) : Option Nat :=
  (a.layers.flatMap fun l => (appendSpans a.fill a.tokens).map fun sp => (l, sp)).findSome? fun x =>
    (s.pageFrame a.q x.1 x.2.1).bind fun f =>
      if 1 < s.sharers f.num then none else
      let lo := x.2.2.1
      let n := x.2.2.2 - lo
      if (List.range a.g.hkv).any fun h =>
        s.meetsLoss f.num (a.g.kOff h lo) (n * a.g.kb) || (!a.g.latent && s.meetsLoss f.num (a.g.vOff h lo) (n * a.g.vb)) then some f.num else none

/-- A line of a frame has failed an APPEND: in the lower tier it is counted (R201). -/
def State.endMedia (s : State) (r n : Nat) : State :=
  (if (s.placeOf n).isLower then s.count 0x6100 0xA else s).endReq r .mediaError

/-- Map the new frames; a page that was shared gets its copy. None: a copy found no sectors. -/
def State.installFrames (s : State) (a : Append) : List ((Nat × Nat) × Nat) → Option State
  | [] => some s
  | ((l, p), n) :: rest =>
    match s.pageMap a.q l p with
    | some m =>
      match s.cowPage a.job a.q a.g l p m.frame n with
      | some s => s.installFrames a rest
      | none => none
    | none => (s.mapFrame a.q.tenant (a.q.pageAddr a.g.frame l p) n true false true).installFrames a rest

/-- Step 3 of R73 for one layer; then step 4. -/
def State.appendLayer (s : State) (a : Append) (bs : List Byte) (l : Nat) : List (Nat × Nat × Nat) → Option State
  | [] => some s
  | (p, lo, hi) :: rest =>
    match s.pageFrame a.q l p with
    | none => some s
    | some f =>
      let kbytes := a.tokens * a.g.hkv * vecBytes a.srcK a.g.d
      let ws := a.g.pageWrites l a.srcK a.srcV lo (hi - lo) (256 * p + lo - a.fill) bs (bs.drop kbytes)
      match (s.heatFrame a.q.tenant f.num).applyWrites ⟨a.job.tenant, a.job.comp⟩ f.num (ws.map (·.1)) with
      | none => none
      | some s =>
        let s := s.countExc a.q.tenant (ws.foldl (fun e w => e.add w.2) {})
        let part := fun (blk : List Byte) (w : Nat) => (blk.drop ((256 * p + lo - a.fill) * a.g.hkv * w)).take ((hi - lo) * a.g.hkv * w)
        let tokens := part bs (vecBytes a.srcK a.g.d) ++ if a.g.latent then [] else part (bs.drop kbytes) (vecBytes a.srcV a.g.d)
        let s := (s.widenTouch a.g l f.num lo hi).touchWork a.job a.g f.num lo (hi - lo) tbWiden a.srcK a.srcV tokens
        s.appendLayer a bs l rest

/-- Steps 3 and 4 of R73 over the layers. -/
def State.appendLayers (s : State) (a : Append) (bs : List Byte) : List Nat → Option State
  | [] => some s
  | l :: ls =>
    match s.appendLayer a (bs.take a.layerBytes) l (appendSpans a.fill a.tokens) with
    | some s => s.appendLayers a (bs.drop a.layerBytes) ls
    | none => none

/-- Advance the fills of some layers (R73 step 5). -/
def setFills (ls : List Nat) (n : Nat) (fills : List Nat) : List Nat :=
  fills.mapIdx fun i x => if ls.contains i then n else x

/-- Where an APPEND or a MERGE_SUBMIT reads its source (R70, R124): a payload carried with the request, a region of host
memory whose bytes the DMA brings, or tenant memory. None: the DMA brought another number of bytes (DESIGN CHOICE, log 16). -/
def State.source (s : State) (r : Req) (key off len : Nat) (dma : List Byte) : Except Status (Option (List Byte × State)) :=
  match r.origin, decide (key = 0) with
  | .remote _ _, true =>
    if off + len ≤ r.inlineData.length then .ok (some ((r.inlineData.drop off).take len, s)) else .error .rangeFault
  | _, _ =>
    match s.holdKey r key .localR off len with
    | .error e => .error e
    | .ok (g, s) =>
      if g.host then .ok (if dma.length = len then some (dma, s) else none)
      else match s.loadTenant r.payer (g.base + off) len with
        | .ok p => .ok (some p)
        | .error e => .error e

/-- An APPEND found no sectors (R185): it waits for them, or ends with CAPACITY and keeps what it wrote (R74). -/
def State.appendSectors (s : State) (r : Req) (q : Seq) : State :=
  match s.reqRoom r q.rclass (some q.idx) (apNoPreempt r.entry) with
  | some s => s.waitReq r.id .sectors
  | none => (s.blurAppend r).endReq r.id .capacity

/-- Steps 3 to 5 of R73, on frames that have been allocated and copied. -/
def State.appendWrite (s : State) (r : Req) (a : Append) (l : List ((Nat × Nat) × Nat)) (bs : List Byte) : State :=
  match ((s.modReq r.id fun q => { q with newFrames := [] }).installFrames a l).bind (·.appendLayers a bs a.layers) with
  | none => s.appendSectors r a.q
  | some s3 =>
    (s3.modSeq a.q.idx fun q => { q with fills := setFills a.layers (a.fill + a.tokens) q.fills, lastAtt := s.clk.ltime }).okReq
      r (a.fill + a.tokens)

/-- Step 2 of R73: the pages that were shared are copied, and the APPEND goes on once its COPY commands have completed (log 40). -/
def State.appendCopies (s : State) (r : Req) (a : Append) (l : List ((Nat × Nat) × Nat)) (bs : List Byte) : State :=
  let cow := l.filterMap fun x => (s.pageMap a.q x.1.1 x.1.2).map fun m => (x, m.frame)
  let t := s.modReq r.id fun q => { q with newFrames := l, accepted := true }
  let t := cow.foldl (fun s x => s.cowCopy a.job a.g x.2 x.1.2 (a.q.fill x.1.1.1 - 256 * x.1.1.2)) t
  if !cow.isEmpty && t.hasCmds r.id then t else t.appendWrite r a l bs

/-- The body of R73, once every check has passed. -/
def State.appendRun (s : State) (r : Req) (a : Append) (bs : List Byte) : State :=
  if !r.newFrames.isEmpty then (if s.hasCmds r.id then s else s.appendWrite r a r.newFrames bs) else
  let needs := s.appendNeeds a
  let leaves := needs.flatMap fun lp => tablePagesFor (a.q.pageAddr a.g.frame lp.1 lp.2) a.g.frame (leafLow a.g.frame)
  let room := fun s : State => s.needRoom r a.q.rclass (some a.q.idx) (apNoPreempt r.entry)
  match s.takeTables r.tenant leaves with
  | none => s.endReq r.id .capacity
  | some s1 =>
    match allocEach (fun lp s => s.allocPage r.tenant r.comp a.q.idx lp.1 lp.2 a.g.frame a.g.blockBytes) needs s1 with
    | .limit => s.endReq r.id .capacity
    | .full => room s
    | .got l s2 =>
      match s.copiesBad a, s.slotsBad a with
      | some n, _ => s.endMedia r.id n
      | none, some n => s.endMedia r.id n
      | none, none => s2.appendCopies r a l bs

/-- The checks of R71 and R72 that need no fill. -/
def appendChecks (e : BitVec 512) (g : Geom) : List (Bool × Status) :=
  [(!sourceFormatOk (apSrcK e) g.kfmt || (!g.latent && !sourceFormatOk (apSrcV e) g.vfmt), .formatUnsupported),
   (apTokens e == 0 || decide (65536 < apTokens e) || layersBad (apLfirst e) (apLcount e) g.layers, .rangeFault)]

/-- The checks of R72 against the fills. -/
def fillChecks (e : BitVec 512) (q : Seq) (ls : List Nat) : List (Bool × Status) :=
  let fill := q.fill (apLfirst e)
  [(ls.any (fun l => q.fill l != fill) || decide (q.cap < fill + apTokens e) ||
    (apExpect e != 0xFFFFFFFF && apExpect e != fill), .rangeFault)]

/-- APPEND. Of several checks that fail, the order that decides is: format, T and layers, the sequence's state, fills and EXPECT, the source
key (DESIGN CHOICE, log 80). -/
def execAppend (r : Nat) (dma : List Byte) (s : State) : Host.Outcome State Fault Refusal :=
  .next <| s.runEdit r opAPPEND fun q s =>
    s.onSeq q (opHandle q.entry) fun x =>
    match s.geom x.tenant x.geom with
    | none => s.endReq r .internal
    | some g =>
      s.checked r (appendChecks q.entry g) fun s =>
      s.turn q x.handle fun s =>
      match s.letIn q x (apWait q.entry) with
      | some s => s
      | none =>
        let ls := layerRun (apLfirst q.entry) (apLcount q.entry) g.layers
        let a : Append := ⟨x, g, ls, x.fill (apLfirst q.entry), apTokens q.entry, apSrcK q.entry, apSrcV q.entry, q.job⟩
        s.checked r (fillChecks q.entry x ls) fun s =>
        match s.source q (apSrcKey q.entry) (apSrcOffset q.entry) (a.layerBytes * ls.length) dma with
        | .error e => s.endRead q (s.keyAddr (apSrcKey q.entry) (apSrcOffset q.entry)) (a.layerBytes * ls.length) e
        | .ok none => s
        | .ok (some (bs, s)) =>
          s.withPages q x (ls.flatMap fun l => (appendSpans a.fill a.tokens).map fun sp => (l, sp.1)) fun s =>
          if s.swappedNeeded x (ls.map fun l => (l, a.fill / 256)) then s.waitReq r (.restore x.idx)
          else s.appendRun q a bs

/-! ### PAGE_SHARE (R76) -/

/-- PAGE_SHARE. Sequences of different geometry end it with RANGE_FAULT (DESIGN CHOICE, log 80). -/
def execPageShare (r : Nat) (s : State) : Host.Outcome State Fault Refusal :=
  .next <| s.runEdit r opPAGE_SHARE fun q s =>
    let sl := fld q.entry 191 176
    let sp := fld q.entry 207 192
    let tl := fld q.entry 271 256
    s.onSeq q (opHandle q.entry) fun a =>
    s.onSeq q (fld q.entry 255 208) fun b =>
    s.turn q b.handle fun s =>
    match s.letIn q a false with
    | some s => s
    | none =>
      match s.letIn q b false with
      | some s => s
      | none =>
        let fill := b.fill tl
        let f := s.seqFrameBytes b
        s.checked r
          [(a.geom != b.geom || decide (a.fills.length ≤ sl) || decide (b.fills.length ≤ tl) ||
            decide (a.fill sl < 256 * (sp + 1)) || decide (fill % 256 ≠ 0) || decide (b.cap < fill + 256), .rangeFault)] fun s =>
        s.withPages q a [(sl, sp)] fun s =>
        s.withPages q b [(tl, fill / 256)] fun s =>
        if s.swappedNeeded a [(sl, sp)] then s.waitReq r (.restore a.idx)
        else s.checked r [(s.shareFull a (s.seqFrames b) [(sl, sp)], .capacity)] fun s =>
          match s.takeTables q.tenant (tablePagesFor (b.pageAddr f tl (fill / 256)) f (leafLow f)) with
          | none => s.endReq r .capacity
          | some s =>
            ((s.sharePages a b f [((sl, sp), (tl, fill / 256))]).modSeq b.idx fun x =>
              { x with fills := setFills [tl] (fill + 256) x.fills }).okReq q (fill + 256)

/-! ### SEQ_PIN, SEQ_PREEMPT, SEQ_RESTORE (R68, R80, R84, R86) -/

/-- Bytes of some frames, with the granules of their blocks and the table pages of some mappings of theirs, each once (R312, DESIGN CHOICE,
log 79). -/
def State.bytesBrought (s : State) (ns : List Nat) (ms : List Mapping) : Nat :=
  let blocks := (ns.dedup.filterMap s.frame).filterMap fun f => f.touch.map (·.block)
  let grans := (blocks.flatMap fun b => (List.range (if b.size ≤ granule then 1 else blockSpan b.size / granule)).map fun i => (b.channel, b.granule + i)).dedup
  let pages := (ms.flatMap fun m => tablePagesFor m.addr (s.frameSize m.frame) (leafLow (s.frameSize m.frame))).dedup
  sumOf s.frameSize ns.dedup + granule * grans.length + 4096 * pages.length

/-- Bytes that some sequences' frames count against a limit (R80, R312). -/
def State.seqBytes (s : State) (qs : List Seq) : Nat := s.bytesBrought (qs.flatMap s.seqFrames) (qs.flatMap s.seqMaps)

/-- Bytes that count against PIN_LIMIT, with one more sequence pinned (R80). -/
def State.pinnedBytes (s : State) (t : Nat) (x : Seq) : Nat :=
  s.seqBytes (s.seqs.filter fun q => q.tenant == t && (q.pinned || q.idx == x.idx))

def execSeqPin (r : Nat) (s : State) : Host.Outcome State Fault Refusal :=
  .next <| s.runReq r [opSEQ_PIN] fun q s =>
    s.onSeq q (opHandle q.entry) fun x =>
    let old := b2n x.pinned
    if !flag q.entry 176 then (s.modSeq x.idx fun x => { x with pinned := false }).okReq q old
    else if x.state = .restoring then s.waitReq r (.restore x.idx)
    else s.checked r
      [(x.state != .active, .capacity),
       (!x.pinned && decide (s.tenantObj q.tenant 8 < s.pinnedBytes q.tenant x), .capacity)] fun s =>
      (s.modSeq x.idx fun x => { x with pinned := true }).okReq q old

/-- Begin the swap-out that a SEQ_PREEMPT asked for, and wait for its end (R84, R85, R204). Where nothing is swapped out, what waited for the
swap-out goes on. -/
def State.preemptNow (s : State) (q : Req) (x : Seq) : State :=
  match s.startSwapOut x with
  | none =>
    ((s.modSeq x.idx fun y => if y.state = .preempting then { y with state := .active, starter := none } else y).wake (.swapOut x.idx)).endReq q.id .capacity
  | some s' =>
    let s' := s'.modSeq x.idx fun y => { y with starter := none }
    if (s.ownFrames x).isEmpty then (s'.wake (.swapOut x.idx)).okReq q 0 else s'.waitReq q.id (.swapOut x.idx)

def execSeqPreempt (r : Nat) (s : State) : Host.Outcome State Fault Refusal :=
  .next <| s.runReq r [opSEQ_PREEMPT] fun q s =>
    s.onSeq q (opHandle q.entry) fun x =>
    let after := if q.accepted then q.after else s.earlier q fun y => y.writesInto x.handle
    match x.state with
    | .active =>
      let s := (s.modSeq x.idx fun x => { x with state := .preempting, moved := 0, starter := some r }).accept r after
      if s.anyLive after then s else s.preemptNow q x
    | .preempting => if x.starter = some r then (if s.anyLive after then s else s.preemptNow q x) else s.waitReq r (.swapOut x.idx)
    | .preempted => if q.accepted then s.preemptNow q x else s.okReq q 0
    | .restoring => (s.accept r after).waitReq r (.restore x.idx)

def execSeqRestore (r : Nat) (s : State) : Host.Outcome State Fault Refusal :=
  .next <| s.runReq r [opSEQ_RESTORE] fun q s =>
    s.onSeq q (opHandle q.entry) fun x =>
    match x.state with
    | .active => s.okReq q (if q.accepted then x.moved else 0)
    | .preempting => s.waitReq r (.swapOut x.idx)
    | .preempted =>
      if (s.swappedFrames x).isEmpty then (s.startRestore x (some r)).okReq q 0
      else (s.startRestore x (some r)).waitReq r (.restore x.idx)
    | .restoring => s.waitReq r (.restore x.idx)

def execRestoreFailed (seq : Nat) (st : Status) (s : State) : Host.Outcome State Fault Refusal :=
  .next <|
    match s.seqAt seq with
    | some q =>
      if s.coreRuns ∧ q.state = .restoring ∧ (st = .capacity ∨ st = .mediaError ∨ st = .timeout) then s.failRestore seq st else s
    | none => s

/-! ### SEQ_DESTROY, SEQ_TRUNCATE, SEQ_QUERY (R69, R79, R81) -/

/-- Unmap a list of mappings; counts the frames released. -/
def State.unmapAll (s : State) : List Mapping → Nat → State × Nat
  | [], n => (s, n)
  | m :: ms, n =>
    let out := s.mapCount m.frame == 1 && (match s.frame m.frame with | some f => !f.place.isSwap | none => false)
    (s.cowEdit (s.unmapOne m) m.frame).unmapAll ms (n + b2n out)

/-- Generation after the present one, skipping 0 (R33). -/
def nextGen (g : Nat) : Nat := g % 65535 + 1

/-- The last steps of SEQ_DESTROY: frames and runs are freed and the range is free (DEDUCED, log 71); a lost descriptor is lost no more (R188). -/
def State.destroySeq (s : State) (q : Req) (x : Seq) : State :=
  let r := s.unmapAll (s.seqMaps x) 0
  let s := r.1.modMem fun m => { m with lost := m.lost.erase (x.tenant, MetaKind.seqDesc, x.idx) }
  ({ s with seqs := dropWhere (·.idx == x.idx) s.seqs }).okReq q r.2

/-- SEQ_DESTROY once it is accepted: it waits for earlier requests, then for a swap-out or a restore (R68, R81). -/
def State.destroyWait (s : State) (q : Req) (x : Seq) (after : List Nat) : State :=
  if s.anyLive after then s
  else match x.state with
    | .preempting => s.waitReq q.id (.swapOut x.idx)
    | .restoring => s.waitReq q.id (.restore x.idx)
    | _ => s.destroySeq q x

def execSeqDestroy (r : Nat) (s : State) : Host.Outcome State Fault Refusal :=
  .next <| s.runEdit r opSEQ_DESTROY fun q s =>
    match s.findSeq q.tenant (opHandle q.entry) q.accepted with
    | none => s.endReq r .keyFault
    | some x =>
      if q.accepted then s.destroyWait q x q.after
      else
        let after := s.earlier q fun y => y.names x
        let s := { s with gens := { s.gens with seqs := assocPut s.gens.seqs x.idx (nextGen x.gen) 0 } }
        let s := (s.modSeq x.idx fun x => { x with destroying := true }).psForget x.handle 0
        (s.accept r after).destroyWait q x after

/-- Pages of a layer that hold data. -/
def Seq.pagesOf (q : Seq) (l : Nat) : List (Nat × Nat) := (List.range (ceilDiv (q.fill l) 256)).map fun p => (l, p)

/-- A rebuild (R134), and the unit's or core's work for it (R171). -/
def State.rebuildFor (s : State) (j : Job) (g : Geom) (layer n count : Nat) : Bool × State :=
  let (ok, s) := s.rebuildTouch g layer n count
  (ok, if ok then s.touchWork j g n 0 count tbRebuild 0 0 [] else s)

/-- Rebuild the new tail touchstones of lowered layers (R79 step 3). -/
def State.rebuildTails (s : State) (j : Job) (x : Seq) (g : Geom) (k : Nat) : List Nat → State
  | [] => s
  | l :: ls =>
    match s.pageFrame x l (k / 256) with
    | some f => (s.rebuildFor j g l f.num (s.coverOf f.num)).2.rebuildTails j x g k ls
    | none => s.rebuildTails j x g k ls

def execSeqTruncate (r : Nat) (s : State) : Host.Outcome State Fault Refusal :=
  .next <| s.runEdit r opSEQ_TRUNCATE fun q s =>
    s.onSeq q (opHandle q.entry) fun x =>
    s.turn q x.handle fun s =>
    match s.letIn q x false with
    | some s => s
    | none =>
      let k := fld q.entry 207 176
      let f := s.seqFrameBytes x
      let low := (List.range x.fills.length).filter fun l => decide (k < x.fill l)
      s.withPages q x ((low.flatMap x.pagesOf).filter fun lp => decide (k / 256 ≤ lp.2)) fun s =>
      if k % 256 ≠ 0 ∧ s.swappedNeeded x (low.map fun l => (l, k / 256)) then s.waitReq r (.restore x.idx) else
      let s := (s.modSeq x.idx fun x => { x with fills := x.fills.map (min k) })
      let s := if low.isEmpty then s else s.psForget x.handle k
      let gone := (s.seqMaps x).filter fun m =>
        let lp := x.pageOf f m.addr
        low.contains lp.1 && decide (ceilDiv k 256 ≤ lp.2)
      let u := s.unmapAll gone 0
      let s := match s.geom x.tenant x.geom with
        | some g => if k % 256 = 0 then u.1 else u.1.rebuildTails q.job x g k low
        | none => u.1
      s.okReq q u.2

def execSeqQuery (r : Nat) (s : State) : Host.Outcome State Fault Refusal :=
  .next <| s.runReq r [opSEQ_QUERY] fun q s =>
    s.onSeq q (opHandle q.entry) fun x =>
    s.store q (opAddrHigh q.entry) (leBytes 64 (s.seqRecord x)) fun s => s.okReq q 0

/-! ### SEQ_FENCE and quarantine (R95, R96) -/

/-- Live walks of a tenant below an epoch. -/
def State.walksBelow (s : State) (t f : Nat) : Bool := s.mem.walks.any fun w => w.tenant == t && decide (w.w < f)

def execSeqFence (r : Nat) (s : State) : Host.Outcome State Fault Refusal :=
  .next <| s.runReq r [opSEQ_FENCE] fun q s =>
    let f := if q.accepted then q.count else s.mem.walkEpoch
    if s.walksBelow q.tenant f then (s.modReq r fun q => { q with count := f }).waitReq r (.fence f)
    else s.okReq q f

def execSeqFenceTimeout (r : Nat) (s : State) : Host.Outcome State Fault Refusal :=
  .next <|
    match s.req r with
    | some q =>
      match q.phase with
      | .waiting (.fence _) => if s.coreRuns then s.endReq r .timeout q.count else s
      | _ => s
    | none => s

/-- Upper-tier storage of a quenched tenant waits to be zeroed (R329). -/
def State.toBeZeroed (s : State) (q : QItem) : Bool :=
  (match s.tenant q.tenant with | some x => x.state == .zeroing | none => false) &&
  (match q.what with | .place p _ _ => p.isUpper | .block _ => false)

def execQuarantineEnd (item : Nat) (s : State) : Host.Outcome State Fault Refusal :=
  .next <|
    match s.mem.quar.find? (·.id == item) with
    | some q => if s.walksPast q.tag && !s.toBeZeroed q then s.endQuarantine q else s
    | none => s

/-! ### MAP, UNMAP, REMAP (R98, R100) -/

def mapAddr (e : BitVec 512) : Nat := fld e 191 128

/-- MAP. The level-1 entry of a level-0 table page without entries counts as INVALID: that page makes no 8 MiB frame end with RANGE_FAULT
(DESIGN CHOICE, log 79). -/
def execMap (r : Nat) (s : State) : Host.Outcome State Fault Refusal :=
  .next <| s.runEdit r opMAP fun q s =>
    let t := q.tenant
    let a := mapAddr q.entry
    let n := fld q.entry 223 192
    let c := fld q.entry 227 224
    let size := granule * 2 ^ c
    let len := n * size
    s.checked r
      [(n == 0 || decide (9 < c) || decide (a % size ≠ 0) || decide (s.addrLimit t < a + len), .rangeFault),
       (s.mappedIn t a len || s.seqRangeIn t a len, .rangeFault),
       (decide (s.frameMax t < s.framesUsed t + len), .capacity)] fun s =>
      s.withTables q a len fun s =>
      match s.takeTables t (tablePagesFor a len (leafLow size)) with
      | none => s.endReq r .capacity
      | some s1 =>
        match allocEach (fun _ s => s.allocPlain t q.comp size .loan) (List.range n) s1 with
        | .limit => s.endReq r .capacity
        | .full => s.needRoom q 7 none (decide (s.frameCommit t < s1.framesUsed t + len))
        | .got l s2 =>
          (l.foldl (fun s p => s.mapFrame t (a + p.1 * size) p.2 (flag q.entry 228) (flag q.entry 229) false) s2).okReq q
            ((l.head?.map (·.2)).getD 0)

/-- The mappings of `n` consecutive frames from an address: LEAF entries with SEQ 0, none inside a frame (R100). -/
def State.loanRun (s : State) (t : Nat) : Nat → Nat → Option (List Mapping)
  | 0, _ => some []
  | n + 1, a =>
    match s.mem.maps.find? fun m => m.tenant == t && m.addr == a && !m.seq with
    | none => none
    | some m =>
      match s.frame m.frame with
      | none => none
      | some f => if f.place.isSwap then none else (s.loanRun t n (a + f.size)).map (m :: ·)

/-- How the walks of a run of mappings end a request that needs them (R91, R188). -/
def State.mapsFail (s : State) (ms : List Mapping) : Option Walked :=
  (ms.map fun m => s.walk m.tenant m.addr .read).find? fun w => w == .badGen || w == .lost

/-- Bytes that a run of mappings covers. -/
def State.runBytes (s : State) (ms : List Mapping) : Nat := sumOf (fun m => s.frameSize m.frame) ms

/-- The checks that UNMAP and REMAP share (R100 steps 1 to 3), then the run; it ends with INTERNAL where its walks meet lost metadata or a generation
that does not match (R91, R188). -/
def State.withRun (s : State) (q : Req) (go : List Mapping → State) : State :=
  let t := q.tenant
  let a := mapAddr q.entry
  let n := if q.op = opREMAP then fld q.entry 287 256 else fld q.entry 223 192
  if n = 0 ∨ s.mem.maps.length < n then s.endReq q.id .rangeFault
  else match s.loanRun t n a with
    | none => s.endReq q.id .rangeFault
    | some ms =>
      if s.addrLimit t < a + s.runBytes ms ∨ s.regionOver t a (s.runBytes ms) then s.endReq q.id .rangeFault
      else match s.mapsFail ms with
        | some w => (s.countWalk t w).endReq q.id .internal
        | none => go ms

def execUnmap (r : Nat) (s : State) : Host.Outcome State Fault Refusal :=
  .next <| s.runEdit r opUNMAP fun q s =>
    s.withRun q fun ms =>
      let u := s.unmapAll ms 0
      u.1.okReq q u.2

/-- Where each moved mapping goes. -/
def moved (new : Nat) (ms : List Mapping) : List Mapping :=
  match ms with
  | [] => []
  | m0 :: _ => ms.map fun m => { m with addr := new + (m.addr - m0.addr) }

def execRemap (r : Nat) (s : State) : Host.Outcome State Fault Refusal :=
  .next <| s.runEdit r opREMAP fun q s =>
    s.withRun q fun ms =>
      let t := q.tenant
      let a := mapAddr q.entry
      let b := fld q.entry 255 192
      let len := s.runBytes ms
      let new := moved b ms
      let leaves := new.flatMap fun m => tablePagesFor m.addr (s.frameSize m.frame) (leafLow (s.frameSize m.frame))
      s.checked r
        [(new.any (fun m => decide (m.addr % s.frameSize m.frame ≠ 0)) || decide (s.addrLimit t < b + len), .rangeFault),
         (s.mappedIn t b len || s.seqRangeIn t b len || (decide (a < b + len) && decide (b < a + len)), .rangeFault)] fun s =>
        s.withTables q b len fun s =>
        match s.takeTables t leaves with
        | none => s.endReq r .capacity
        | some s =>
          let s := s.modMem fun m => { m with maps := (m.maps.filter fun x => !ms.contains x) ++ new, walkEpoch := m.walkEpoch + ms.length }
          (s.tlbDrop fun e => e.1 == t && ms.any (·.addr == e.2.1)).okReq q 0

end Sys2Proof.Machine
end

