-- ==== Sys2Proof/Machine/Tiers.lean ====
section
/-! DEFINITION. Sys2Proof/Machine/Tiers.lean: migration, TIER_MOVE, the lower tier's writes and limits, privileged reads,
swap-out and restore (chapter 07). -/

namespace Sys2Proof.Machine

open Sys2Proof

/-! ### Heat and background migration (R196-R200) -/

def execHeatPeriodExpiry (s : State) : Host.Outcome State Fault Refusal :=
  .next <| s.modMem fun m =>
    { m with frames := m.frames.map fun f => { f with heat := f.heat / 2 }
             tpages := m.tpages.map fun p => { p with heat := p.heat / 2 } }

/-- The coldest upper-tier copy of a level-1 or level-0 table page (R92). -/
def State.coldestTable (s : State) : Option TablePage :=
  (s.mem.tpages.filter fun p => p.upper.isSome && decide (p.level ≤ 1)).foldl (fun best p => match best with
    | none => some p
    | some b => if p.heat < b.heat then some p else some b) none

/-- Reserve the destination of a move to the upper tier (R182) and begin it. -/
def State.startUp (s : State) (f : Frame) (req : Option Nat) (hold : Bool) : Option State :=
  (s.findUpper f.home f.size).map fun c =>
    let s := s.modFrame f.num fun f =>
      { f with mig := some { dest := .upper c.1 c.2, req := req, hold := hold, total := f.total, package := f.place.package } }
    match f.place.package with
    | some p => s.enterMove req f.num p (64 * f.total)
    | none => s

/-- Is demotion due (R82, R197, R201)? -/
def State.demotionDue (s : State) : Bool :=
  s.variant.hasLower && (s.migShare != 0 || !s.upperOpen) &&
  (!s.upperAtLeast s.lowWm || (s.mem.demoting && !s.upperAtLeast s.highWm))

/-- Demote the coldest frame, or drop a colder table page's upper-tier copy (R92, R197). -/
def State.demoteOne (s : State) : State :=
  match s.coldestTable, s.coldest with
  | some p, some f =>
    if p.heat < f.heat then s.modMem fun m => { m with tpages := modWhere (· == p) (fun p => { p with upper := none }) m.tpages }
    else (s.startDown f none none).getD s
  | some p, none => s.modMem fun m => { m with tpages := modWhere (· == p) (fun p => { p with upper := none }) m.tpages }
  | none, some f => (s.startDown f none none).getD s
  | none, none => s

def execDemotionStart (s : State) : Host.Outcome State Fault Refusal :=
  .next <| if s.coreRuns ∧ s.demotionDue then ((s.modMem fun m => { m with demoting := true }).demoteOne)
    else if s.upperAtLeast s.highWm then s.modMem fun m => { m with demoting := false } else s

def execPromotionStart (frame : Nat) (s : State) : Host.Outcome State Fault Refusal :=
  .next <|
    match s.frame frame with
    | none => s
    | some f =>
      if !s.coreRuns ∨ !s.variant.hasLower ∨ s.migShare = 0 ∨ !f.place.isLower ∨ f.mig.isSome ∨ f.swapRun.isSome ∨
         f.heat < s.promoteHeat ∨ s.allocStalled frame then s
      else if s.upperAtLeast s.highWm then (s.startUp f none false).getD s
      else match s.coldest with
        | some c => if c.heat + s.promoteHeat ≤ f.heat then (s.startDown c none (some frame)).getD s else s
        | none => s

/-- Switch a frame to its destination, unless a write has (R181, R199 step 6): the move is counted, and a TIER_MOVE's is charged with the image
bytes that it moved (R200). -/
def State.switchFrame (s : State) (f : Frame) (m : Migration) : State :=
  let down := m.dest.isLower
  let moved := 64 * (if down then s.frameTotal f.num else if m.moved then m.total else f.total)
  let s := (if m.moved then s else s.switchPlace f m).modFrame f.num fun f => { f with mig := none }
  let s := if m.reloc then s else s.count 0x6100 (if down then 6 else 5)
  match m.req, m.package with
  | some r, some p => s.chargeAt ⟨f.tenant, ((s.req r).map (·.comp)).getD f.comp⟩ (.lower p) moved
  | _, _ => s

/-- After a demotion that made way, the promotion it was for (R198), or the copy of a table page (R92). -/
def State.promoteNext (s : State) (m : Migration) : State :=
  let s := match m.thenTable with | some k => s.giveUpper k | none => s
  match m.thenUp with
  | some n =>
    match s.frame n with
    | some f => if f.place.isLower && f.mig.isNone && f.swapRun.isNone then (s.startUp f none false).getD s else s
    | none => s
  | none => s

/-- The copy pass that runs has ended: the next begins, over the units that were written meanwhile, or the entry is switched (R199). After three passes
over dirty units the remaining ones are copied while writes wait (step 5). A migration whose image no longer fits its package is given up, and its
TIER_MOVE goes on (DESIGN CHOICE, log 89). A TIER_MOVE's frame whose piece waits for its controller goes on
later (R314). -/
def execMigrationSwitch (frame : Nat) (s : State) : Host.Outcome State Fault Refusal :=
  .next <|
    match s.frame frame with
    | none => s
    | some f =>
      match f.mig with
      | none => s
      | some m =>
        if m.reloc ∨ s.allocStalled frame ∨ f.place.isSwap ∨ s.atLower (fun j => j.item == .frame frame && !s.ltStale j) then s
        else if !m.moved ∧ !m.dirty.isEmpty ∧ m.passes ≤ copyPasses then
          s.modFrame frame fun f => { f with mig := some { m with dirty := [], passes := m.passes + 1 } }
        else if m.moved ∨ s.switchFits f m then ((s.switchFrame f m).promoteNext m).tierEnd
        else (s.modFrame frame fun f => { f with mig := none }).tierEnd

/-! ### TIER_MOVE (R202, R203) -/

def tmOrdered (e : BitVec 512) : Bool := flag e 231
def tmHold (e : BitVec 512) : Bool := flag e 230
def tmTarget (e : BitVec 512) : Nat := fld e 229 228
def tmLen (e : BitVec 512) : Nat := granule * fld e 223 192
def tmAddr (e : BitVec 512) : Nat := fld e 191 128

/-- Chaining of NB_EXEC and TIER_MOVE of one queue (R155, R202). -/
def State.chained (s : State) (q : Req) (ordered : Bool) : Bool :=
  ordered && s.reqs.any fun x => decide (x.id < q.id) && x.live && x.origin == q.origin && (x.op == opNB_EXEC || x.op == opTIER_MOVE)

/-- Mappings of a tenant that touch a range, in ascending address order. -/
def State.mapsIn (s : State) (t a len : Nat) : List Mapping :=
  (s.mem.maps.filter fun m => m.tenant == t && decide (m.addr < a + len) && decide (a < m.addr + s.frameSize m.frame)).mergeSort
    fun x y => decide (x.addr ≤ y.addr)

/-- Does an end of the range fall inside a frame? -/
def State.cutsFrame (s : State) (t a len : Nat) : Bool :=
  (s.mapsIn t a len).any fun m => decide (m.addr < a) || decide (a + len < m.addr + s.frameSize m.frame)

/-- The frames of a range, each once. -/
def State.framesIn (s : State) (t a len : Nat) : List Frame :=
  ((s.mapsIn t a len).map (·.frame)).dedup.filterMap s.frame

/-- Bytes that count against HOLD_LIMIT with some more frames held: held frames, and frames on their way to be held, with the blocks and table
pages that they bring (R203, R312). -/
def State.heldBytes (s : State) (t : Nat) (new : List Frame) : Nat :=
  let ns := ((s.mem.frames.filter fun f => f.tenant == t && (f.held || f.mig.any (·.hold))) ++ new).map (·.num)
  s.bytesBrought ns (s.mem.maps.filter fun m => m.tenant == t && ns.contains m.frame)

/-- The checks of R203 steps 1 to 3; `new` is what the move would hold. -/
def State.tierChecks (s : State) (q : Req) (new : List Frame) : List (Bool × Status) :=
  let e := q.entry
  let a := tmAddr e
  [(!s.variant.hasLower, .unitAbsent),
   (tmTarget e == 3 || (tmTarget e == 1 && tmHold e) || tmLen e == 0 || decide (a % granule ≠ 0) || decide (addrEnd < a + tmLen e) ||
    s.cutsFrame q.tenant a (tmLen e), .rangeFault),
   (!new.isEmpty && decide (s.tenantObj q.tenant 9 < s.heldBytes q.tenant new), .capacity)]

/-- Run a TIER_MOVE of one target: checks, chaining, and the wait for a migration in progress (R209). -/
def State.tierMove (s : State) (r : Nat) (targets : List Nat) (go : Req → List Frame → Nat → State → State) : State :=
  s.runReq r [opTIER_MOVE] fun q s =>
    if !targets.contains (tmTarget q.entry) then s
    else if s.chained q (tmOrdered q.entry) then s.accept r []
    else
      let all := s.framesIn q.tenant (tmAddr q.entry) (tmLen q.entry)
      let res := all.filter fun f => !f.place.isSwap
      let new := if tmHold q.entry then res.filter fun f =>
        !f.held && !f.mig.any (·.hold) && (tmTarget q.entry == 0 || f.place.isUpper) else []
      s.checked r (s.tierChecks q new) fun s =>
        s.withTables q (tmAddr q.entry) (tmLen q.entry) fun s =>
        match s.mapsFail (s.mapsIn q.tenant (tmAddr q.entry) (tmLen q.entry)) with
        | some w => (s.countWalk q.tenant w).endReq r .internal
        | none =>
        if res.any (fun f => f.mig.isSome || s.allocStalled f.num) then s.waitReq r .tier
        else go q res (all.length - res.length) s

/-- Begin a list of moves, all or nothing. -/
def startMoves (f : Frame → State → Option State) : List Frame → State → Option State
  | [], s => some s
  | x :: xs, s => match f x s with | some s => startMoves f xs s | none => none

/-- A TIER_MOVE's moves have begun: it ends with the last switch, at once when there is none. -/
def State.tierBegun (s : State) (q : Req) (moves : List Frame) (changed skipped : Nat) : State :=
  let result := changed + skipped * 2 ^ 32
  if moves.isEmpty then s.okReq q result
  else (s.modReq q.id fun q => { q with tierLeft := moves.map (·.num), count := result }).waitReq q.id .tier

/-- Demote an unheld frame to make upper-tier room for a move (R203 step 4); none when no frame can go. -/
def State.demoteFor (s : State) : Option State :=
  if s.mem.frames.any (fun f => match f.mig with | some m => m.dest.isLower | none => false) ∨ 
      s.mem.quar.any (fun q => match q.what with | .place p _ _ => p.isUpper | .block _ => false) then some s
  else match s.coldest with
    | some c => s.startDown c none none
    | none => none

/-- What the upper tier can become for a move: quarantine over, migrations down done, and every unheld frame that can go demoted (R203 step 4). -/
def State.roomiest (s : State) : Nat → State
  | 0 => s
  | n + 1 =>
    match s.coldest with
    | none => s
    | some c =>
      match s.startDown c none none with
      | some s => (s.modFrame c.num fun f => match f.mig with | some m => { f with place := m.dest, chunks := m.chunks, mig := none } | none => f).roomiest n
      | none => s

/-- Space for every frame that moves up can be had, if need be by demotion (R203 step 4). -/
def State.upCanFit (s : State) (moves : List Frame) : Bool :=
  let s1 := s.modMem fun m => { m with
    frames := m.frames.map fun f => match f.mig with
      | some g => if g.dest.isLower then { f with place := g.dest, chunks := g.chunks, mig := none } else f
      | none => f
    quar := m.quar.filter fun q => match q.what with | .place p _ _ => !p.isUpper | .block _ => true }
  (startMoves (fun f s => s.startUp f none false) moves (s1.roomiest s.mem.frames.length)).isSome

/-- TIER_MOVE to the upper tier. -/
def execTierMoveUp (r : Nat) (s : State) : Host.Outcome State Fault Refusal :=
  .next <| s.tierMove r [0] fun q fs skipped s =>
    let moves := fs.filter fun f => f.place.isLower
    let holds := if tmHold q.entry then fs.filter fun f => f.place.isUpper && !f.held else []
    match startMoves (fun f s => s.startUp f (some r) (tmHold q.entry)) moves s with
    | some s =>
      let s := holds.foldl (fun s f => s.modFrame f.num fun f => { f with held := true }) s
      s.tierBegun q moves (moves.length + holds.length) skipped
    | none =>
      if !s.upCanFit moves then s.endReq r .capacity
      else match s.demoteFor with
        | some s => s.accept r []
        | none => s.endReq r .capacity

/-- TIER_MOVE to the lower tier; without room there for every frame it ends with CAPACITY and moves none (DESIGN CHOICE, log 89). -/
def execTierMoveDown (r : Nat) (s : State) : Host.Outcome State Fault Refusal :=
  .next <| s.tierMove r [1] fun q fs skipped s =>
    let moves := fs.filter fun f => f.place.isUpper && f.kind != .accumulator
    let held := fs.filter fun f => f.held && !f.place.isUpper
    let s' := fs.foldl (fun s f => s.modFrame f.num fun f => { f with held := false }) s
    match startMoves (fun f s => s.startDown f (some r) none) moves s' with
    | some s => s.tierBegun q moves (moves.length + held.length) skipped
    | none => s.endReq r .capacity

def execTierMoveHold (r : Nat) (s : State) : Host.Outcome State Fault Refusal :=
  .next <| s.tierMove r [2, 3] fun q fs skipped s =>
    let want := tmHold q.entry
    let chg := fs.filter fun f => f.place.isUpper && f.held != want
    let s := chg.foldl (fun s f => s.modFrame f.num fun f => { f with held := want }) s
    s.tierBegun q [] chg.length skipped

/-! ### The lower tier (R184-R188) -/

def execLowerUnitRmw (frame off : Nat) (bytes : List Byte) (s : State) : Host.Outcome State Fault Refusal :=
  .next <|
    match s.frame frame with
    | none => s
    | some f =>
      if !f.place.isLower ∨ f.size < off + bytes.length ∨ s.meetsLoss frame off bytes.length then s
      else match s.writeFrame frame off bytes with
        | some s => s
        | none => (s.nodeRoom f.tenant).getD s

/-- An image is compacted when its dead sectors exceed a quarter of its sector space (R184). -/
def compactDue (f : Frame) : Bool := f.place.isLower && decide (f.total < 4 * f.dead)

def execImageCompaction (frame : Nat) (s : State) : Host.Outcome State Fault Refusal :=
  .next <|
    match s.frame frame with
    | none => s
    | some f => if compactDue f && f.mig.isNone && !s.allocStalled frame then (s.compact frame).getD s else s

/-- Does a request read the lower tier: an ATTEND with blocks in lower-tier frames, an NB_EXEC with rows there, or a request that has
started? -/
def State.readsLower (s : State) (q : Req) : Bool :=
  match q.att, q.loanWork with
  | some a, _ => a.busy.any fun b => b.place.isLower
  | none, some w => w.rows.any fun r => (s.placeOf r.2.frame).isLower || r.2.srcs.any fun x => match x with | some y => (s.placeOf y.1).isLower | none => false
  | none, none => q.phase == .started

/-- Passes that a privileged read makes over its copies (R187). -/
def privPasses : Nat := 4

/-- Every attempt has failed: the request ends INTERNAL and METADATA_LOST is raised (R188). -/
def State.metaLost (s : State) (x : Stall) (time : Nat) : State :=
  let s := (s.count 0x6100 14 time).count 0x6100 15
  let s := s.modMem fun m => { m with stalls := dropWhere (·.id == x.id) m.stalls, lost := insertNew (x.tenant, x.kind, x.key) m.lost }
  let s := match x.req with | some r => s.abandon r .internal | none => s
  ((s.raise srcMetadataLost).emit (.metadataLost x.tenant x.kind)).tierEnd

/-- The copies of a table page, in the order of reading (R187). -/
def TablePage.places (p : TablePage) : List (Bool × Nat × Nat) :=
  (p.upper.toList.map fun x => (true, x.1, x.2)) ++ (p.copies.zip (p.chunks ++ [0, 0])).filterMap fun c => match c.1 with
    | .lower k => some (false, k, c.2)
    | .upper ch g => some (true, ch, g)
    | .swap _ _ => none

/-- The copies of privileged metadata (R187). -/
def State.metaPlaces (s : State) (k : MetaKind) (t key : Nat) : List (Bool × Nat × Nat) × State :=
  let page := s.mem.tpages.find? fun p => p.tenant == t && tableKey p.level p.index == key
  match k, page with
  | .tableHigh, some p => (p.places, s)
  | .tableLow, some p => (p.places, s)
  | .tableHigh, none =>
    let (u, s) := s.drawSpot true none
    let (l, s) := s.drawMirrors
    (u :: l, s)
  | _, _ => s.drawMirrors

/-- STALL_TABLE, STALL_SEQDESC or STALL_ALLOC (R201). -/
def stallCounter : MetaKind → Nat
  | .tableHigh | .tableLow => 0xB
  | .seqDesc => 0xC
  | .alloc => 0xD

/-- A privileged read of its first copy has failed and stalls (R187); `err`: by an uncorrectable error, which is counted (R442). -/
def State.stallMeta (s : State) (k : MetaKind) (t key : Nat) (req : Option Nat) (err : Bool) : State :=
  if (t, k, key) ∈ s.mem.lost then s
  else
    let (ps, s) := s.metaPlaces k t key
    let id := (lowestFree (s.mem.stalls.map (·.id)) (s.mem.stalls.length + 1)).getD 0
    let up := match ps.head? with | some p => p.1 | none => false
    let s := (if err then s.count 0x6000 (if up then 0x21 else 0x23) else s).count 0x6100 (stallCounter k)
    s.modMem fun m => { m with stalls := m.stalls ++ [⟨id, k, t, key, req, ps.length, 1, ps⟩] }

/-- The copies that failed are rewritten in new storage, and their lines are retired (R187, R428). -/
def State.retireCopies (s : State) (x : Stall) : State :=
  let bad := x.places.take x.attempts
  (bad.foldl (fun s p => s.retireFree p.1 p.2.1 p.2.2 0) s).moveTables fun up u l => bad.contains (up, u, l)

def execPrivilegedReadRetry (id : Nat) (ok : Bool) (time : Nat) (s : State) : Host.Outcome State Fault Refusal :=
  .next <|
    match s.mem.stalls.find? (·.id == id) with
    | none => s
    | some x =>
      if ok then
        (((s.count 0x6100 14 time).retireCopies x).modMem fun m => { m with stalls := dropWhere (·.id == id) m.stalls }).tierEnd
      else if x.attempts + 1 ≥ privPasses * x.copies then s.metaLost x time
      else s.modMem fun m => { m with stalls := modWhere (·.id == id) (fun x => { x with attempts := x.attempts + 1 }) m.stalls }

/-! ### Swap-out (R204-R206, R208) -/

/-- The sequence whose page a frame in swap traffic is: no other maps it. -/
def State.ownerOf (s : State) (n : Nat) : Option (Seq × Nat × Nat) := (s.frameUsers n).head?

/-- A swap-out has ended: the sequence is PREEMPTED; SEQ_PREEMPTs that waited end OK, others look again (R68, R84). -/
def State.swapOutDone (s : State) (idx : Nat) : State :=
  let n := ((s.seqAt idx).map (·.moved)).getD 0
  let s := s.modSeq idx fun q => { q with state := .preempted }
  let mine := fun q : Req => q.phase == .waiting (.swapOut idx) && q.op == opSEQ_PREEMPT
  ({ s with reqs := modWhere mine (fun q => { q with phase := .ended .ok n }) s.reqs }).wake (.swapOut idx)

/-- Sectors 1 to TOTAL − 1 of a frame's swap image (R191, R205). -/
def State.swapBody (s : State) (f : Frame) (serial : Nat) : List Byte :=
  imageBody (s.keyOf f.tenant) f.tenant serial f.size (s.unit f.num)

/-- Header of a frame's swap image. -/
def State.swapHeader (s : State) (f : Frame) (serial : Nat) : Nat :=
  imageHeader (crc32c (s.swapBody f serial)) (s.frameTotal f.num) serial f.tenant (f.kind == .page) true f.size

/-- Host address of a run of the swap area. -/
def State.runAddr (s : State) (a : Nat) : Nat := match s.mem.swapArea with | some (_, base, _) => base + 4096 * a | none => 0

/-- A change of the frame's entries waits for a privileged stall on their table page (R209). -/
def State.entriesStalled (s : State) (f : Frame) : Bool := s.mem.maps.any fun m => m.frame == f.num && s.pageStalled m.tenant m.addr f.size

/-- One frame is out (R84 steps 2 and 3): its image has been written, the header with the CRC last (R205). Lines that cannot be read are zeros in it,
as relocation would have left them (DESIGN CHOICE, log 80). -/
def State.frameOut (s : State) (f : Frame) (seq a c : Nat) : State :=
  let s := if f.badLines.isEmpty then s else (s.zeroBad f).modFrame f.num fun f => { f with badLines := [] }
  let (ser, s) := s.newSerial
  let body := s.emit (.dma (s.runAddr a + 64) (s.swapBody f ser))
  let s := (body.emit (.dma (s.runAddr a) (leBytes 64 (s.swapHeader f ser)))).count 0x6100 7
  let dir := s.frameDir f.num
  let s := (s.quarantine f.tenant (.place f.place f.size f.chunks) none (f.touch.map (·.block)) (some seq)).tlbDrop (·.2.2 == f.num)
  s.modFrame f.num fun f =>
    { f with place := .swap a c, swapRun := none, touch := none, held := false, mig := none, total := s.frameTotal f.num, dead := 0,
             serial := ser, chunks := [], dir := dir }

def execSwapOutFrameDone (frame : Nat) (s : State) : Host.Outcome State Fault Refusal :=
  .next <|
    match s.frame frame, s.ownerOf frame with
    | some f, some (q, _, _) =>
      match f.swapRun with
      | none => s
      | some (a, c) =>
        if f.place.isSwap ∨ q.state ≠ .preempting ∨ s.entriesStalled f then s
        else
          let s := (s.frameOut f q.idx a c).modSeq q.idx fun q => { q with moved := q.moved + 1 }
          if (s.swapping q).isEmpty then s.swapOutDone q.idx else s
    | _, _ => s

/-- The victim returns to ACTIVE, its unwritten images abandoned (R85, R208); a request that waits for room tries the
next victim (DEDUCED, log 68). A SEQ_PREEMPT that waited for the swap-out ends with MEDIA_ERROR (DESIGN CHOICE, log 80). -/
def State.swapOutFailed (s : State) (q : Seq) : State :=
  let left := s.swapping q
  let moved := q.moved
  let s := left.foldl (fun s n => s.modFrame n fun f => { f with swapRun := none }) s
  let s := s.modSeq q.idx fun q => { q with state := .active, moved := 0, starter := none }
  let mine := fun x : Req => x.phase == .waiting (.swapOut q.idx) && x.op == opSEQ_PREEMPT
  let s := { s with reqs := modWhere mine (fun x => { x with phase := .ended .mediaError moved }) s.reqs }
  let s := { s with reqs := modWhere (fun x => x.live && x.accepted) (fun x => { x with tried := insertNew q.idx x.tried }) s.reqs
                    seqs := modWhere (fun x => x.state == SeqState.restoring) (fun x => { x with tried := insertNew q.idx x.tried }) s.seqs }
  s.wake (.swapOut q.idx)

def execSwapOutFailure (frame : Nat) (s : State) : Host.Outcome State Fault Refusal :=
  .next <|
    match s.frame frame, s.ownerOf frame with
    | some f, some (q, _, _) =>
      if f.swapRun.isSome ∧ !f.place.isSwap ∧ q.state = .preempting then s.swapOutFailed q else s
    | _, _ => s

/-! ### Restore (R86, R207, R208) -/

/-- A swapped frame is being read back: its sequence is RESTORING, or a request on the ACTIVE sequence waits for it, or one that a
SEQ_PREEMPT lets end first (R84). -/
def State.readingBack (s : State) (q : Seq) : Bool :=
  q.state == .restoring || s.reqs.any fun r =>
    r.phase == .waiting (.restore q.idx) && (q.state == .active || (q.state == .preempting && s.preemptWaitsFor r q))

/-- The requests that a read-back of the sequence is for: the one whose WAIT_RESTORE started the restore, or those that wait for a page (R208). -/
def State.restoreFor (s : State) (q : Seq) : List Req :=
  if q.state = .restoring then (q.starter.bind s.req).toList else s.reqs.filter fun r => r.phase == .waiting (.restore q.idx)

/-- They set NO_PREEMPT (R70). -/
def State.starterNoPreempt (s : State) (q : Seq) : Bool :=
  let rs := s.restoreFor q
  !rs.isEmpty && rs.all fun x => x.op == opAPPEND && apNoPreempt x.entry

/-- A restore needs room (R86): victims are taken as R83 gives, but for those that have been tried (R85). None: it ends with CAPACITY. -/
def State.restoreRoom (s : State) (q : Seq) : Option State :=
  let rs := s.restoreFor q
  (s.makeRoom q.tenant q.rclass (some q.idx) (s.starterNoPreempt q) (q.tried ++ rs.flatMap (·.tried)) q.victims).map fun x =>
    x.2.modSeq q.idx fun q => { q with victims := x.1 }

/-- The restore of a sequence, or of the one page that a request needed, is complete. -/
def State.restoreDone (s : State) (q : Seq) : State :=
  let s := s.modSeq q.idx fun q =>
    if q.state = .restoring then { q with state := .active, lastAtt := s.clk.ltime, starter := none, tried := [], victims := [] } else { q with victims := [] }
  s.wake (.restore q.idx)

/-- Put a read frame in place, with a new block that covers its slots (R131, R134, R207); its swap run enters quarantine (R95). None: no room. -/
def State.frameIn (s : State) (f : Frame) (g : Geom) (l : Nat) : Option State :=
  match s.restorePlace f (s.frameTotal f.num) with
  | none => none
  | some p =>
    let cs := match p with | .lower k => s.freeChunks k (ceilDiv f.total 64) | _ => []
    let s1 := (s.quarantine f.tenant (.place f.place f.size [])).modFrame f.num fun x =>
      { x with place := p, swapRun := none, total := if p.isLower then x.total else 0, dead := 0, chunks := cs,
               dir := if p.isLower then x.dir else [], serial := if p.isLower then x.serial else 0 }
    match s1.placeBlock f.tenant f.home g.blockBytes with
    | none => none
    | some (b, s2) =>
      let s3 := s2.modFrame f.num fun x => { x with touch := some { block := b } }
      some ((s3.widenTouch g l f.num 0 (s.coverOf f.num)).touchWork (nodeJob f.tenant) g f.num 0 (s.coverOf f.num) tbRebuild 0 0 [])

/-- A frame has been read back and its image is good. -/
def State.restoreFrame (s : State) (f : Frame) (q : Seq) (l : Nat) : State :=
  match s.geom q.tenant q.geom with
  | none => s.failRestore q.idx .capacity
  | some g =>
    if s.frameMax f.tenant < s.framesUsed f.tenant + f.size then s.failRestore q.idx .capacity
    else match s.frameIn f g l with
      | none =>
        match s.restoreRoom q with
        | some s => s
        | none => s.failRestore q.idx .capacity
      | some s' =>
        if s.frameMax f.tenant < s'.framesUsed f.tenant then s.failRestore q.idx .capacity
        else
          let s' := (s'.count 0x6100 8).modSeq q.idx fun q => { q with moved := q.moved + 1 }
          if (s'.swappedFrames q).isEmpty ∨ q.state = .active then s'.restoreDone q else s'

/-- Sectors 1 to TOTAL − 1 of a swap image, as many as the header that was read back says; what its run holds beyond the image is free. -/
def State.imageRead (s : State) (f : Frame) (total : Nat) : List Byte × State :=
  let body := s.swapBody f f.serial
  let (more, s) := if 64 * (total - 1) ≤ body.length then ([], s) else s.drawBytes (64 * (total - 1) - body.length)
  (body.take (64 * (total - 1)) ++ more, s)

/-- A swap image passes the checks of R207, R189 and R190: its header, its CRC over the sectors that its TOTAL counts, and its directory. -/
def State.imageGood (s : State) (f : Frame) (hdr : BitVec 512) : Bool :=
  let total := fld hdr 145 128
  headerOk hdr.toNat f.tenant f.size && decide (2 ≤ total) && fld hdr 191 160 == (crc32c (s.imageRead f total).1).toNat &&
  f.dir.all fun e => dirOk f.size total e

def execRestoreFrameReadDone (frame : Nat) (hdr : BitVec 512) (decodes : Bool) (s : State) : Host.Outcome State Fault Refusal :=
  .next <|
    match s.frame frame, s.ownerOf frame with
    | some f, some (q, l, _) =>
      if !s.coreRuns ∨ !f.place.isSwap ∨ !s.readingBack q ∨ s.entriesStalled f then s
      else if s.imageGood f hdr && decodes then (s.imageRead f (fld hdr 145 128)).2.restoreFrame f q l
      else (s.imageRead f (fld hdr 145 128)).2.failRestore q.idx .mediaError
    | _, _ => s

def execRestoreDmaTimeout (frame : Nat) (s : State) : Host.Outcome State Fault Refusal :=
  .next <|
    match s.frame frame, s.ownerOf frame with
    | some f, some (q, _, _) => if f.place.isSwap ∧ s.readingBack q then s.failRestore q.idx .timeout else s
    | _, _ => s

end Sys2Proof.Machine
end

