-- ==== Sys2Proof/Machine/LoanOps.lean ====
section
/-! DEFINITION. Sys2Proof/Machine/LoanOps.lean: NB_EXEC: the operation descriptor and its checks (R155-R166), and what each
loan operation computes for a row. -/

namespace Sys2Proof.Machine

open Sys2Proof

/-! ### NB_EXEC and the descriptor (R155, R158, R159) -/

def nbDesc (e : BitVec 512) : Nat := fld e 511 448
def nbOrdered (e : BitVec 512) : Bool := flag e 132
def nbOp (e : BitVec 512) : Nat := fld e 131 128

def nbGATHER : Nat := 1
def nbEWISE : Nat := 2
def nbNORM : Nat := 3
def nbOPT : Nat := 4
def nbCAST : Nat := 5

/-- Bytes `[i, i + n)` of a descriptor as a number. -/
def descAt (d : List Byte) (i n : Nat) : Nat := leVal ((d.drop i).take n)

def ldRows (d : List Byte) : Nat := descAt d 0 4
def ldCols (d : List Byte) : Nat := descAt d 4 4
def ldRowlist (d : List Byte) : Nat := descAt d 8 8
def ldListcount (d : List Byte) : Nat := descAt d 16 4
def ldBody (d : List Byte) : Nat := descAt d 32 32

/-- An operand descriptor (R159). -/
structure Opnd where
  addr : Nat
  stride : Nat
  fmt : Nat
  valid : Bool
  deriving DecidableEq, Repr

def ldOpnd (d : List Byte) (i : Nat) : Opnd :=
  let x := descAt d (64 + 16 * i) 16
  { addr := bits x 127 64, stride := bits x 63 32, fmt := bits x 31 28, valid := bit x 27 }

/-- Tenant address of row r of an operand. -/
def Opnd.rowAddr (o : Opnd) (r : Nat) : Nat := o.addr + r * o.stride

/-! ### Bodies (R161-R164) -/

def grKind (d : List Byte) : Nat := bits (ldBody d) 1 0
def grTable (d : List Byte) : Nat := bits (ldBody d) 63 32

/-- A primitive of EWISE (R162). -/
structure EwSlot where
  fn : Nat
  xsrc : Nat
  ysrc : Nat
  k : BitVec 16
  deriving DecidableEq, Repr

def ewSlot (d : List Byte) (i : Nat) : EwSlot :=
  let x := bits (ldBody d) (32 * i + 31) (32 * i)
  { fn := bits x 31 26, xsrc := bits x 25 23, ysrc := bits x 22 20, k := BitVec.ofNat 16 (bits x 15 0) }

/-- The chain up to its first END. -/
def ewChain (d : List Byte) : List EwSlot := ((List.range 8).map (ewSlot d)).takeWhile fun x => x.fn != 0

/-- Does a function take two operands? -/
def ewBinary (fn : Nat) : Bool := decide (1 ≤ fn) && decide (fn ≤ 6)

def nmLayer (d : List Byte) : Bool := bit (ldBody d) 0
def nmEps (d : List Byte) : F32 := BitVec.ofNat 32 (bits (ldBody d) 63 32)

def osWfmt (d : List Byte) : Nat := bits (ldBody d) 231 228
def osZeroG (d : List Byte) : Bool := bit (ldBody d) 226
def osGslot (d : List Byte) : Bool := bit (ldBody d) 225
def osSgd (d : List Byte) : Bool := bit (ldBody d) 224
def osBc2 (d : List Byte) : F32 := BitVec.ofNat 32 (bits (ldBody d) 223 192)
def osBc1 (d : List Byte) : F32 := BitVec.ofNat 32 (bits (ldBody d) 191 160)
def osWd (d : List Byte) : F32 := BitVec.ofNat 32 (bits (ldBody d) 159 128)
def osEps (d : List Byte) : F32 := BitVec.ofNat 32 (bits (ldBody d) 127 96)
def osBeta2 (d : List Byte) : F32 := BitVec.ofNat 32 (bits (ldBody d) 95 64)
def osBeta1 (d : List Byte) : F32 := BitVec.ofNat 32 (bits (ldBody d) 63 32)
def osLr (d : List Byte) : F32 := BitVec.ofNat 32 (bits (ldBody d) 31 0)

/-- Bytes of one state block (R165). -/
def osBlock (d : List Byte) : Nat := (if osSgd d then 320 else 448) + (if osGslot d then 64 else 0)

/-! ### Which operands an operation has (R160) -/

/-- Operands that are rows of elements, of those with VALID 1. -/
def rowOpnds (op : Nat) (d : List Byte) : List Nat :=
  (if op = nbGATHER ∨ op = nbOPT then [1] else [1, 2, 3]).filter fun i => (ldOpnd d i).valid

/-- Size of a row of operand i. -/
def opndBytes (op : Nat) (d : List Byte) (i : Nat) : Nat :=
  if op = nbOPT ∧ i = 0 then ldCols d / 32 * osBlock d else vecBytes (ldOpnd d i).fmt (ldCols d)

/-- A format that the operation cannot take for a row of COLS elements (R39, R160). -/
def fmtBad (fmts : List Nat) (cols fmt : Nat) : Bool :=
  !fmts.contains fmt || ((fmt == fmtMX6 || fmt == fmtMX4 || fmt == fmtINT4) && decide (cols % 32 ≠ 0))

/-- Every format but INT8. -/
def plainFmts : List Nat := [0, 1, 2, 3, 4, 5, 6, 8]

/-- R156 step 4: the formats of the operands that are present; a reserved code is refused in any of them but the lists (R38, R159). -/
def formatBad (op : Nat) (d : List Byte) : Bool :=
  let n := ldCols d
  let f := fun i => (ldOpnd d i).fmt
  let v := fun i => (ldOpnd d i).valid
  let reserved := fun i => v i && decide (fmtINT4 < f i)
  if op = nbGATHER then (v 0 && fmtBad [0, 1, 2] n (f 0)) || (v 1 && fmtBad plainFmts n (f 1))
  else if op = nbOPT then
    !([fmtBF16, fmtFP16, fmtE4M3, fmtMX6, fmtMX4] : List Nat).contains (osWfmt d) ||
    (!osGslot d && v 1 && !([fmtFP32, fmtBF16] : List Nat).contains (f 1)) || [1, 2, 3].any reserved
  else if op = nbCAST then
    (v 0 && fmtBad (fmtINT8 :: plainFmts) n (f 0)) ||
    (v 1 && fmtBad (if f 0 = fmtINT8 then fmtINT8 :: plainFmts else plainFmts) n (f 1)) || (v 2 && f 2 != fmtBF16) || reserved 3
  else [0, 1, 2, 3].any fun i => v i && fmtBad plainFmts n (f i)

/-- The VALID bits that R160 asks for: required, and forbidden. -/
def validBad (op : Nat) (d : List Byte) : Bool :=
  let v := fun i => (ldOpnd d i).valid
  !v 0 ||
  (if op = nbGATHER then !(v 1 && v 2 && v 3)
   else if op = nbEWISE ∨ op = nbNORM then !v 1
   else if op = nbOPT then (v 1 == osGslot d) || v 2 || v 3
   else !v 1 || v 3 || (v 2 != ((ldOpnd d 0).fmt == fmtINT8)))

/-- Alignment and strides (R159, R160). -/
def strideBad (op : Nat) (d : List Byte) : Bool :=
  ((List.range 4).any fun i => let o := ldOpnd d i; o.valid && (decide (o.addr % 64 ≠ 0) || decide (o.stride % 64 ≠ 0))) ||
  (ldOpnd d 0).stride == 0 ||
  ((0 :: rowOpnds op d).any fun i => let o := ldOpnd d i; o.stride != 0 && decide (o.stride < opndBytes op d i)) ||
  (op == nbNORM && [2, 3].any fun i => let o := ldOpnd d i; o.valid && o.stride != 0) ||
  (op == nbCAST && (ldOpnd d 2).valid && (ldOpnd d 2).stride != 0)

/-- What the body of an operation forbids (R161-R164). -/
def bodyBad (op : Nat) (d : List Byte) : Bool :=
  if op = nbGATHER then grKind d == 3
  else if op = nbEWISE then
    let c := ewChain d
    let src := fun i => decide (4 < i) || (decide (1 ≤ i) && decide (i ≤ 3) && !(ldOpnd d i).valid)
    c.isEmpty || c.any fun x => decide (0x0D < x.fn) || src x.xsrc || (ewBinary x.fn && src x.ysrc)
  else if op = nbNORM then
    match (nmEps d).num with
    | .fin n m _ => n && m != 0
    | _ => true
  else if op = nbOPT then
    [osLr d, osBeta1 d, osWd d].any F32.special || (!osSgd d && [osBeta2 d, osEps d, osBc1 d, osBc2 d].any F32.special)
  else false

/-- R156 step 5, but for what needs the row list. -/
def descBad (op : Nat) (d : List Byte) : Bool :=
  ldRows d == 0 || ldCols d == 0 || decide (65536 < ldCols d) ||
  ((op == nbGATHER || op == nbNORM) && decide (16384 < ldCols d)) || (op == nbOPT && decide (ldCols d % 32 ≠ 0)) ||
  (ldRowlist d != 0 && (decide (ldRowlist d % 64 ≠ 0) || ldListcount d == 0 || decide (ldRows d < ldListcount d))) ||
  validBad op d || strideBad op d || bodyBad op d

/-- Steps 1 to 3 of R156. -/
def State.nbChecks (s : State) (q : Req) : List (Bool × Status) :=
  let op := nbOp q.entry
  [(!s.variant.nearBank, .unitAbsent), (!q.loan || op == 0 || op == 6 || op == 7, .keyFault),
   (decide (8 ≤ op) || decide (nbDesc q.entry % 64 ≠ 0), .rangeFault)]

/-! ### Lists and places -/

/-- U32 values of a byte list. -/
def u32List : Nat → List Byte → List Nat
  | 0, _ => []
  | n + 1, bs => leVal (bs.take 4) :: u32List n (bs.drop 4)

/-- The status of a range that R156 step 6 refuses: a SWAPPED entry counts as an INVALID one. -/
def loanStatus : Status → Status
  | .preempted => .rangeFault
  | st => st

/-- Read a list of `n` U32 values from tenant memory. -/
def State.loadU32s (s : State) (y : Payer) (a n : Nat) : Except Status (List Nat × State) :=
  if n = 0 then .ok ([], s)
  else match s.loadTenant y a (4 * n) with
    | .ok (bs, s) => .ok (u32List n bs, s)
    | .error e => .error (loanStatus e)

/-- The rows that a descriptor names (R158). -/
def State.loanRows (s : State) (y : Payer) (d : List Byte) : Except Status (List Nat × State) :=
  if ldRowlist d = 0 then .ok (List.range (ldRows d), s)
  else match s.loadU32s y (ldRowlist d) (ldListcount d) with
    | .ok (l, s) => if l.any fun r => decide (ldRows d ≤ r) then .error .rangeFault else .ok (l, s)
    | .error e => .error e

/-- The frame and offset of a row, which no frame boundary cuts (R159). -/
def State.rowPlace (s : State) (t a size : Nat) (need : Right) : Except Status (Nat × Nat) :=
  if addrEnd ≤ a then .error .rangeFault else
  match s.walk t a need with
  | .hit f off => if off + size ≤ s.frameSize f then .ok (f, off) else .error .rangeFault
  | w => .error (loanStatus w.status)

/-- The place of a destination row, which needs R and W (R156 step 6). -/
def State.destPlace (s : State) (t a size : Nat) : Except Status (Nat × Nat) :=
  match s.rowPlace t a size .read with
  | .error e => .error e
  | .ok _ => s.rowPlace t a size .write

/-- Places of the source rows of row r. -/
def State.srcPlaces (s : State) (t op : Nat) (d : List Byte) (r : Nat) : List Nat → Except Status (List (Option (Nat × Nat)))
  | [] => .ok []
  | i :: is =>
    let o := ldOpnd d i
    if !o.valid then (s.srcPlaces t op d r is).map (none :: ·)
    else match s.rowPlace t (o.rowAddr r) (opndBytes op d i) .read with
      | .ok p => (s.srcPlaces t op d r is).map (some p :: ·)
      | .error e => .error e

/-- The destination of row r with the places of its sources. -/
def State.loanRow (s : State) (t op : Nat) (d : List Byte) (srcs : List Nat) (r : Nat) : Except Status LoanRow :=
  match s.destPlace t ((ldOpnd d 0).rowAddr r) (opndBytes op d 0) with
  | .error e => .error e
  | .ok (f, off) =>
    (s.srcPlaces t op d r srcs).map fun ps => { idx := r, frame := f, gen := ((s.frame f).map (·.gen)).getD 0, off := off, srcs := ps }

/-- A list of rows, or the status of the first that fails. -/
def eachRow {α β : Type} (f : α → Except Status β) : List α → Except Status (List β)
  | [] => .ok []
  | x :: xs =>
    match f x with
    | .ok y => (eachRow f xs).map (y :: ·)
    | .error e => .error e

/-- Is a list non-decreasing? -/
def nonDecreasing : List Nat → Bool
  | x :: y :: l => decide (x ≤ y) && nonDecreasing (y :: l)
  | _ => true

/-- The table rows of the segments: (position of the output row, table row). -/
def gatherEntries (rows offs idx : List Nat) : List (Nat × Nat) :=
  rows.zipIdx.flatMap fun o =>
    ((idx.drop (offs.getD o.1 0)).take (offs.getD (o.1 + 1) 0 - offs.getD o.1 0)).map fun j => (o.2, j)

/-- What an operation will do, with the state after its lists have been read. -/
structure LoanPlan where
  rows : List LoanRow
  outs : List LoanRow := []

/-- The segment offsets and the table rows of a GATHER_REDUCE (R161). -/
def State.gatherIndices (s : State) (y : Payer) (d : List Byte) : Except Status (List Nat × List Nat × State) :=
  match s.loadU32s y (ldOpnd d 2).addr (ldRows d + 1) with
  | .error e => .error e
  | .ok (offs, s) =>
    let last := offs.getD (ldRows d) 0
    if !nonDecreasing offs ∨ 2 ^ 28 < last then .error .rangeFault else
    match s.loadU32s y (ldOpnd d 3).addr last with
    | .error e => .error e
    | .ok (idx, s) => if idx.any fun i => decide (grTable d ≤ i) then .error .rangeFault else .ok (offs, idx, s)

/-- Plan a GATHER_REDUCE (R161). -/
def State.gatherPlan (s : State) (y : Payer) (d : List Byte) (rows : List Nat) : Except Status (LoanPlan × State) :=
  match s.gatherIndices y d with
  | .error e => .error e
  | .ok (offs, idx, s) =>
    match eachRow (s.loanRow y.tenant nbGATHER d []) rows with
    | .error e => .error e
    | .ok outs =>
      let place := fun (e : Nat × Nat) =>
        (s.rowPlace y.tenant ((ldOpnd d 1).rowAddr e.2) (opndBytes nbGATHER d 1) .read).map fun p =>
          (⟨e.1, p.1, ((s.frame p.1).map (·.gen)).getD 0, p.2, [some p]⟩ : LoanRow)
      (eachRow place (gatherEntries rows offs idx)).map fun l => ({ rows := l, outs := outs }, s)

/-- The INT8 column scales of a CAST (R160). -/
def State.castScales (s : State) (d : List Byte) (p : Option (Nat × Nat)) : List (BitVec 16) :=
  match p with
  | some (f, off) => bf16List (ldCols d) (s.readFrame f off (2 * ldCols d))
  | none => []

/-- Scales that R44 refuses. -/
def State.scalesBad (s : State) (op : Nat) (d : List Byte) (rows : List LoanRow) : Bool :=
  op == nbCAST && (ldOpnd d 2).valid &&
  rows.any fun r => (s.castScales d (r.srcs.getD 1 none)).any fun x => !int8ScaleOk x

/-- Plan an operation: steps 4 to 6 of R156. -/
def State.loanPlan (s : State) (y : Payer) (op : Nat) (d : List Byte) : Except Status (LoanPlan × State) :=
  if formatBad op d then .error .formatUnsupported
  else if descBad op d then .error .rangeFault
  else match s.loanRows y d with
    | .error e => .error e
    | .ok (rows, s) =>
      if op = nbGATHER then s.gatherPlan y d rows
      else match eachRow (s.loanRow y.tenant op d [1, 2, 3]) rows with
        | .error e => .error e
        | .ok l => if s.scalesBad op d l then .error .rangeFault else .ok ({ rows := l }, s)

/-! ### Planned time of a row (R173), in ps -/

/-- Arithmetic of a row; a multiply-accumulate counts as two operations (R12; DESIGN CHOICE, log 17). -/
def rowArithPs (op : Nat) (d : List Byte) : Nat :=
  let n := ldCols d
  if op = nbOPT then max (fp32Ps (16 * n)) (funcPs (2 * n))
  else if op = nbEWISE then
    let c := ewChain d
    max (fp32Ps (n * sumOf (fun x => if x.fn = 4 then 2 else b2n (decide (x.fn ≤ 8))) c)) (funcPs (n * (c.filter fun x => decide (8 < x.fn)).length))
  else if op = nbNORM then fp32Ps (8 * n)
  else fp32Ps n

/-- Bytes of a row's sources in a channel, and elsewhere. The input of NORM is read twice (R163); a broadcast row is read with the first
row of a unit alone, into its operand buffer (R160). -/
def State.rowBytes (s : State) (op : Nat) (d : List Byte) (ch : Option Nat) (first : Bool) (r : LoanRow) : Nat × Nat :=
  ((rowOpnds op d).zip (r.srcs.filterMap id)).foldl (fun a x =>
    let n := if !first ∧ (ldOpnd d x.1).stride = 0 then 0
      else if op = nbNORM ∧ x.1 = 1 then 2 * opndBytes op d x.1 else opndBytes op d x.1
    match (s.frame x.2.1).map Frame.place with
    | some (Place.upper c _) => if some c = ch then (a.1 + n, a.2) else (a.1, a.2 + n)
    | _ => (a.1, a.2 + n)) (0, 0)

/-- Planned time of a row on a unit, and on the attention cores, which read and write it at 19.2 GB/s (R173, R179). -/
def State.rowPs (s : State) (op : Nat) (d : List Byte) (ch : Option Nat) (first : Bool) (r : LoanRow) : Nat :=
  let b := s.rowBytes op d ch first r
  let w := if op = nbGATHER then 0 else if op = nbOPT then 2 * opndBytes op d 0 else opndBytes op d 0
  match ch with
  | some _ => max (max (bankPs (b.1 + w)) (forwardPs b.2)) (rowArithPs op d)
  | none => max (forwardPs (b.1 + b.2 + w)) (rowArithPs op d)

/-- Pieces that a unit may cut a row into: state blocks of OPT_STEP, else 64-byte lines of the output, of the table row, or of the input
and then the output of NORM (R163, R173). -/
def rowLines (op : Nat) (d : List Byte) : Nat :=
  if op = nbOPT then ldCols d / 32
  else if op = nbGATHER then ceilDiv (opndBytes op d 1) 64
  else if op = nbNORM then 2 * ceilDiv (opndBytes op d 0) 64
  else ceilDiv (opndBytes op d 0) 64

/-! ### What a row computes -/

/-- The bytes of an operand's row, by operand; none where it is absent. -/
abbrev RowBytes := Nat → Option (List Byte)

/-- Decode one source row. -/
def srcVals (d : List Byte) (i : Nat) (scales : List (BitVec 16)) (rd : RowBytes) : List F32 :=
  match rd i with
  | some bs => decodeVec (ldOpnd d i).fmt (ldCols d) scales bs
  | none => []

/-- The column scales that a row of CAST has read (R160). -/
def scaleVals (d : List Byte) (rd : RowBytes) : List (BitVec 16) :=
  match rd 2 with
  | some bs => bf16List (ldCols d) bs
  | none => []

/-- One primitive (R162). -/
def ewApply (fn : Nat) (x y r : F32) : F32 :=
  match fn with
  | 1 => F32.add x y
  | 2 => F32.sub x y
  | 3 => F32.mul x y
  | 4 => F32.fma x y r
  | 5 => F32.min x y
  | 6 => F32.max x y
  | 7 => F32.abs x
  | 8 => F32.neg x
  | 9 => F32.sqrt x
  | 10 => F32.exp x
  | 11 => F32.recip x
  | 12 => F32.rsqrt x
  | 13 => F32.tanh x
  | _ => r

/-- A source of a primitive. -/
def ewSource (src : Nat) (a b c r : F32) (k : BitVec 16) : F32 :=
  match src with
  | 0 => r
  | 1 => a
  | 2 => b
  | 3 => c
  | _ => bf16ToF32 k

/-- The chain on one element. -/
def ewElem (chain : List EwSlot) (a b c : F32) : F32 :=
  chain.foldl (fun r x => ewApply x.fn (ewSource x.xsrc a b c r x.k) (ewSource x.ysrc a b c r x.k) r) F32.zero

/-- A row of EWISE. -/
def ewRow (d : List Byte) (a b c : List F32) : List F32 :=
  (List.range (ldCols d)).map fun i => ewElem (ewChain d) (a.getD i 0) (b.getD i 0) (c.getD i 0)

/-- A new weight within R55's bound of `w - Δ`: the value that the FP32 steps give where it is, else the rounded one. -/
def weightIn (w : F32) (delta : Rat) (y : F32) : F32 :=
  let z := f32Rat w - delta
  pickBy (fun x => ratAbs (x - z) ≤ 6 * unitU * ratAbs delta + unitU * ratAbs z + ratSlack * ratAbs delta) (ratF32 z) y

/-- The AdamW update of R165 as exact numbers, from the new moments; none where it divides by 0 or an operand is not finite. -/
def adamDelta (d : List Byte) (w m v : F32) : Option Rat :=
  let x := f32Rat v * f32Rat (osBc2 d)
  let den := ratSqrt x + f32Rat (osEps d)
  if w.special || m.special || v.special || decide (x < 0) || den == 0 then none
  else some (f32Rat (osLr d) * (f32Rat m * f32Rat (osBc1 d) / den + f32Rat (osWd d) * f32Rat w))

/-- A new moment within R55's bound of β·moment + (1 - β)·term: the value that the FP32 steps give where it is, else the rounded one. -/
def momentIn (beta moment : F32) (term : Rat) (y : F32) : F32 :=
  let a := f32Rat beta * f32Rat moment
  let b := (1 - f32Rat beta) * term
  pickNear (a + b) (2 * unitU * (ratAbs a + ratAbs b)) y

/-- AdamW on one parameter (R165): weight, moments, within R55's bounds (DEDUCED, log 41). -/
def adamw (d : List Byte) (w m v g : F32) : F32 × F32 × F32 :=
  let m' := F32.fma (F32.sub F32.one (osBeta1 d)) g (F32.mul (osBeta1 d) m)
  let v' := F32.fma (F32.mul (F32.sub F32.one (osBeta2 d)) g) g (F32.mul (osBeta2 d) v)
  let m := if m.special || g.special then m' else momentIn (osBeta1 d) m (f32Rat g) m'
  let v := if v.special || g.special then v' else momentIn (osBeta2 d) v (f32Rat g * f32Rat g) v'
  let u := F32.mul (F32.mul m (osBc1 d)) (F32.recip (F32.add (F32.sqrt (F32.mul v (osBc2 d))) (osEps d)))
  let y := F32.sub w (F32.mul (osLr d) (F32.add u (F32.mul (osWd d) w)))
  (match adamDelta d w m v with
   | some x => if y.special then y else weightIn w x y
   | none => y, m, v)

/-- SGD with momentum on one parameter (R165), the weight within R55's bound (DEDUCED, log 41). -/
def sgd (d : List Byte) (w m g : F32) : F32 × F32 :=
  let m := F32.add (F32.mul (osBeta1 d) m) g
  let y := F32.sub w (F32.mul (osLr d) (F32.add m (F32.mul (osWd d) w)))
  (if w.special || m.special || y.special then y
   else weightIn w (f32Rat (osLr d) * (f32Rat m + f32Rat (osWd d) * f32Rat w)) y, m)

/-- 32 FP32 values of a block. -/
def f32Part (b : List Byte) (off : Nat) : List F32 := decodeVec fmtFP32 32 [] ((b.drop off).take 128)

def f32Bytes (xs : List F32) : List Byte := xs.flatMap fun x => leBytes 4 x.toNat

/-- Bytes padded with zeros to a length. -/
def padTo (n : Nat) (bs : List Byte) : List Byte := bs ++ List.replicate (n - bs.length) 0

/-- One state block after its update (R165), with the exceptions of the work copy. -/
def optBlock (d : List Byte) (b : List Byte) (grad : List F32) : List Byte × Exc :=
  let gAt := if osSgd d then 320 else 448
  let g := if osGslot d then decodeVec fmtBF16 32 [] ((b.drop gAt).take 64) else grad
  let w := f32Part b 64
  let m := f32Part b 192
  let tail := if osGslot d then (if osZeroG d then List.replicate 64 0 else (b.drop gAt).take 64) else []
  if osSgd d then
    let r := (List.range 32).map fun i => sgd d (w.getD i 0) (m.getD i 0) (g.getD i 0)
    let c := encodeVec (osWfmt d) [] (r.map (·.1))
    (padTo 64 c.1 ++ f32Bytes (r.map (·.1)) ++ f32Bytes (r.map (·.2)) ++ tail, c.2)
  else
    let v := f32Part b 320
    let r := (List.range 32).map fun i => adamw d (w.getD i 0) (m.getD i 0) (v.getD i 0) (g.getD i 0)
    let c := encodeVec (osWfmt d) [] (r.map (·.1))
    (padTo 64 c.1 ++ f32Bytes (r.map (·.1)) ++ f32Bytes (r.map (·.2.1)) ++ f32Bytes (r.map (·.2.2)) ++ tail, c.2)

/-- The exact normalisation of x_i times its gain, in R163's formula; none where it has no finite value. -/
def normExact (layer : Bool) (eps : Rat) (xs : List Rat) (x g : Rat) : Option Rat :=
  let n : Rat := ((xs.length : Nat) : Rat)
  let mean := if layer then xs.foldl (· + ·) 0 / n else 0
  let v := xs.foldl (fun a y => a + (y - mean) * (y - mean)) 0 / n + eps
  if v ≤ 0 then none else some ((x - mean) / ratSqrt v * g)

/-- An element of NORM: an open value within the bound of R55. `xs` is the row as its statistics pass read it. Infinities follow the
formula, and a row of zeros with ε 0, whose formula is 0/0; a value that they leave undecided is free. -/
def normPick (layer : Bool) (eps : F32) (xs : List F32) (x g b y : F32) : F32 :=
  if xs.any F32.isNan || x.isNan || g.isNan || b.isNan || ((x :: xs).all F32.isZero && eps.isZero) then F32.nan
  else if xs.any F32.special then (if layer then F32.nan else F32.add (F32.mul (F32.mul x F32.zero) g) b)
  else if x.special || (layer && g.special) then y
  else if g.special then F32.add (F32.mul x g) b
  else if b.special then b
  else match normExact layer (f32Rat eps) (xs.map f32Rat) (f32Rat x) (f32Rat g) with
    | none => y
    | some z =>
      pickNear (z + f32Rat b) ((((ceilLog2 xs.length + 6 : Nat) : Rat) * unitU + 1 / 2 ^ 90) * ratAbs z + unitU * ratAbs (f32Rat b)) y

/-- A row of NORM (R163), `st` the row that the statistics pass read. -/
def State.normRow (s : State) (d : List Byte) (st xs gs bs : List F32) : List F32 × State :=
  (List.range (ldCols d)).foldl (fun a i =>
    let x := a.2.drawBits 32
    (a.1 ++ [normPick (nmLayer d) (nmEps d) st (xs.getD i 0) (gs.getD i F32.one) (bs.getD i F32.zero) x.1], x.2)) ([], s)

/-- The values of a row of EWISE, NORM or CAST. NORM is not reproducible (R55, DESIGN CHOICE, log 20). -/
def State.rowVals (s : State) (op : Nat) (d : List Byte) (st : List F32) (rd : RowBytes) : List F32 × State :=
  let src := fun i => srcVals d i [] rd
  if op = nbEWISE then (ewRow d (src 1) (src 2) (src 3), s)
  else if op = nbNORM then s.normRow d st (src 1) (src 2) (src 3)
  else (srcVals d 1 (scaleVals d rd) rd, s)

/-! ### Steps of a row (R173, R176) -/

/-- Elements of a packed row before its line `k`, in whole blocks of 32 (R40). -/
def elemsBefore (fmt cols lines k : Nat) : Nat :=
  if lines ≤ k then cols else min cols (64 * k * cols / max 1 (elemBytes fmt cols) / 32 * 32)

/-- A row's output when the elements from `e` on, with their scales, are made anew, and those before have been made. -/
def mergeRow (fmt cols e : Nat) (held fresh : List Byte) : List Byte :=
  let a := elemBytes fmt e
  let c := elemBytes fmt cols
  let k := vecBytes fmt e - a
  held.take a ++ (fresh.drop a).take (c - a) ++ (held.drop c).take k ++ fresh.drop (c + k)

/-- What a step makes of a row: the lines it will write, and the row's output so far. -/
structure RowStep where
  lines : List LineWrite
  held : List Byte := []

/-- Lines `[lo, hi)` of the output of a row of EWISE, NORM or CAST (R161-R163, R166); line `k` of the output is line `base + k` of the
piece. -/
def State.outLines (s : State) (w : LoanWork) (r : LoanRow) (item base lo hi : Nat) (rd : RowBytes) : RowStep × State :=
  let d := w.desc
  let fmt := (ldOpnd d 0).fmt
  let n := ldCols d
  let lines := ceilDiv (opndBytes w.op d 0) 64
  let (y, s) := s.rowVals w.op d ((w.stats.lookup item).getD []) rd
  let sc := if w.op = nbCAST then scaleVals d rd else []
  let row := mergeRow fmt n (elemsBefore fmt n lines lo) ((w.held.lookup item).getD []) (encodeVec fmt sc y).1
  let line := fun k =>
    let a := elemsBefore fmt n lines k
    let b := elemsBefore fmt n lines (k + 1)
    let exc := (encodeVec fmt ((sc.take b).drop a) ((y.take b).drop a)).2
    ({ item := item, line := base + k, frame := r.frame, gen := r.gen, off := r.off + 64 * k, bytes := (row.drop (64 * k)).take 64,
       sat := exc.sat, nanInt := exc.nanInt } : LineWrite)
  ({ lines := ((List.range hi).drop lo).map line, held := row }, s)

/-- State blocks `[lo, hi)` of a row of OPT_STEP, each written back whole in the step that reads it (R165). -/
def outBlocks (w : LoanWork) (r : LoanRow) (item lo hi : Nat) (rd : RowBytes) : RowStep :=
  let grad := srcVals w.desc 1 [] rd
  let bs := chunks (osBlock w.desc) (ldCols w.desc / 32) ((rd 0).getD [])
  let line := fun k =>
    let o := optBlock w.desc (bs.getD k []) ((grad.drop (32 * k)).take 32)
    ({ item := item, line := k, frame := r.frame, gen := r.gen, off := r.off + k * osBlock w.desc, bytes := o.1,
       sat := o.2.sat, nanInt := o.2.nanInt } : LineWrite)
  { lines := ((List.range hi).drop lo).map line }

/-- Bytes of an operand's row that lines `[lo, hi)` of `n` need: their share of the elements, and of the scales behind them (R40). -/
def shareOf (size elems lo hi n : Nat) : List (Nat × Nat) :=
  let cut := fun base len => (base + len * lo / max 1 n / 64 * 64, base + ceilDiv (len * hi) (max 1 n))
  [cut 0 elems, cut elems (size - elems)]

/-- Ranges of an operand's row that a part reads: of NORM's input in its statistics lines and in its output lines (R163), of a broadcast
row all (R160). -/
def partReads (op : Nat) (d : List Byte) (i : Nat) (p : Part) : List (Nat × Nat) :=
  let size := opndBytes op d i
  let el := if op = nbOPT ∧ i = 0 then size else elemBytes (ldOpnd d i).fmt (ldCols d)
  let half := p.n / 2
  if i ≠ 0 ∧ (ldOpnd d i).stride = 0 then [(0, size)]
  else if op = nbNORM then
    (if i = 1 ∧ p.lo < half then shareOf size el p.lo (min p.hi half) half else []) ++
    (if half < p.hi then shareOf size el (max p.lo half - half) (p.hi - half) half else [])
  else shareOf size el p.lo p.hi p.n

/-- Frame and offset of an operand's row: the destination for the state blocks of OPT_STEP. -/
def LoanRow.opnd (r : LoanRow) (i : Nat) : Option (Nat × Nat) := if i = 0 then some (r.frame, r.off) else r.srcs.getD (i - 1) none

/-- Operands that a row of an operation reads. -/
def readOpnds (op : Nat) (d : List Byte) : List Nat := (if op = nbOPT then [0] else []) ++ rowOpnds op d

/-- The frame in which a part needs a line whose uncorrectable error stands (R178). -/
def State.partBad (s : State) (op : Nat) (d : List Byte) (r : LoanRow) (p : Part) : Option Nat :=
  (readOpnds op d).findSome? fun i => match r.opnd i with
    | some (f, off) => if (partReads op d i p).any fun x => s.meetsBad f (off + x.1) (x.2 - x.1) then some f else none
    | none => none

/-- Store bytes of a row where dispatch walked to. None: no sectors. -/
def State.putRow (s : State) (r : LoanRow) (off : Nat) (bs : List Byte) : Option State :=
  s.putLine 0 { item := 0, line := 0, frame := r.frame, gen := r.gen, off := r.off + off, bytes := bs }

/-! ### The end of a GATHER_REDUCE (R161) -/

/-- Column i of the values of a segment. -/
def column (vs : List (List F32)) (i : Nat) : List F32 := vs.map fun v => v.getD i 0

/-- A sum or mean of rows without a NaN: an infinity or a NaN where an infinite row or an overflow can bring one, else an open value
within the bound of R55. Partial sums of one sign overflow only past `f32Over`. -/
def sumPick (mean : Bool) (xs : List F32) (y : F32) : F32 :=
  let rs := (xs.filter fun x => !x.special).map f32Rat
  let k : Rat := ((xs.length : Nat) : Rat)
  let mag := (rs.map ratAbs).foldl (· + ·) 0
  let sum := rs.foldl (· + ·) 0
  let past := fun x : Rat => decide (f32Over ≤ x * (1 + k * unitU))
  let pinf := xs.contains F32.posInf
  let ninf := xs.contains F32.negInf
  let up := pinf || past ((mag + sum) / 2)
  let dn := ninf || past ((mag - sum) / 2)
  let exact := if mean then sum / k else sum
  let d := if pinf then F32.posInf else if ninf then F32.negInf else ratF32 exact
  if pinf && ninf then F32.nan
  else match y.num with
    | .nan => if up && dn then F32.nan else d
    | .inf n => if (if n then dn && !pinf else up && !ninf) then y else d
    | .fin _ _ _ =>
      if pinf || ninf then d
      else pickBy (fun z => ratAbs (z - exact) ≤
        (if mean then (k - 1) * unitU * mag / k + unitU * ratAbs z else (k - 1) * unitU * mag)) d y

/-- One element of a reduction: exact for a maximum, for no row and for one; else open within R55's bound (DESIGN CHOICE, log 20). -/
def State.reduceElem (s : State) (kind : Nat) (xs : List F32) : F32 × State :=
  if kind = 2 then (xs.foldl F32.max F32.negInf, s)
  else match xs with
    | [] => (F32.zero, s)
    | [x] => (x, s)
    | _ => if xs.any F32.isNan then (F32.nan, s) else let (y, s) := s.drawBits 32; (sumPick (kind == 1) xs y, s)

/-- One output row. -/
def State.reduceRow (s : State) (kind cols : Nat) (vs : List (List F32)) : List F32 × State :=
  (List.range cols).foldl (fun a i => let x := a.2.reduceElem kind (column vs i); (a.1 ++ [x.1], x.2)) ([], s)

/-- Write the output rows of a GATHER_REDUCE; none when one finds no sectors. -/
def State.gatherOut (s : State) (t : Nat) (w : LoanWork) : List (LoanRow × Nat) → Option State
  | [] => some s
  | (r, i) :: rest =>
    let vs := (w.parts.filter fun p => p.1 == i).map (·.2.2)
    let (y, s) := s.reduceRow (grKind w.desc) (ldCols w.desc) vs
    let o := encodeVec (ldOpnd w.desc 0).fmt [] y
    match s.putRow r 0 o.1 with
    | some s => (s.countExc t o.2).gatherOut t w rest
    | none => none

end Sys2Proof.Machine
end

