-- ==== Sys2Proof/Machine/Engine.lean ====
section
/-! DEFINITION. Sys2Proof/Machine/Engine.lean: near-bank units and attention cores at work: dispatch, steps, the boundary
between steps, refresh, and the ends of blocks and rows (R169-R179, R143, R438). -/

namespace Sys2Proof.Machine

open Sys2Proof

/-! ### Units and cores -/

def State.coreSt (s : State) (c : Nat) : CoreSt := (s.eng.cores.find? (·.n == c)).getD { n := c }

def State.setCore (s : State) (x : CoreSt) : State :=
  { s with eng := { s.eng with cores := x :: dropWhere (·.n == x.n) s.eng.cores } }

/-- A unit goes on with the work it holds (R399), but not while a spare is being switched in for it (R438); a near-bank unit then still
ends the commands that it has begun (R178). -/
def State.runsWork (s : State) (c : UnitClass) (u : Nat) : Bool :=
  (s.oper c u == .inService || s.oper c u == .draining) && (c == .nearBank || !s.flt.switching.contains (c, u))

/-- Steps that a near-bank unit may begin. -/
def State.runnable (s : State) (n : Nat) : List Job :=
  let u := s.nbUnit n
  if s.flt.switching.contains (.nearBank, n) then u.queue.filter fun j => j.cmd.any u.begun.contains else u.queue

/-! ### Beginning a piece -/

/-- The block of an ATTEND that a part reads. -/
def State.jobBlock (s : State) (r item : Nat) : Option (Req × AttWork × Block) :=
  match s.req r with
  | some q =>
    match q.att with
    | some a => (a.busy.find? (·.id == item)).map fun b => (q, a, b)
    | none => none
  | none => none

def State.modAtt (s : State) (r : Nat) (f : AttWork → AttWork) : State := s.modReq r fun q => { q with att := q.att.map f }

/-- Replace a block that has not ended. -/
def AttWork.setBlock (a : AttWork) (b : Block) : AttWork := { a with busy := modWhere (·.id == b.id) (fun _ => b) a.busy }

/-- A request's walk of a frame is live while a block of it is to read the frame (R95). -/
def State.endWalk (s : State) (r n : Nat) : State :=
  match (s.req r).bind (·.att) with
  | some a =>
    if (a.busy ++ a.held).any (·.frame == n) then s
    else
      (s.modMem fun m => { m with walks := dropWhere (fun w => w.req == r && w.frame == n) m.walks }).refence
  | none => s

/-- A block that is not read, or that has been, leaves the request. -/
def State.dropBlock (s : State) (r : Nat) (b : Block) : State :=
  (s.modAtt r fun a => { a with busy := dropWhere (·.id == b.id) a.busy }).endWalk r b.frame

/-- The follow test before the first step of a read (R143, R169); false when nothing is left to read. -/
def State.beginRead (s : State) (j : Job) (p : Part) : Bool × State :=
  match s.jobBlock j.req p.item with
  | some (q, a, b) =>
    if b.follow ∧ p.first then
      let (b', rs) := dropBelow (tauOf q.entry) b a.recs
      let s := s.modAtt j.req fun a => { a.setBlock b' with recs := rs }
      if b'.recs.isEmpty then (false, s.dropBlock j.req b') else (true, s)
    else (true, s)
  | none => (false, s)

def State.modLoan (s : State) (r : Nat) (f : LoanWork → LoanWork) : State :=
  s.modReq r fun q => { q with loanWork := q.loanWork.map f }

/-- Add the values that a step of GATHER_REDUCE has read. -/
def addVals (out item : Nat) (vs : List F32) (first : Bool) (l : List (Nat × Nat × List F32)) : List (Nat × Nat × List F32) :=
  if first then l ++ [(out, item, vs)] else modWhere (·.2.1 == item) (fun x => (x.1, x.2.1, x.2.2 ++ vs)) l

/-- Room for a row's sectors is sought (R185): the part is tried again by a core, or the request ends with CAPACITY. -/
def State.partWaits (s : State) (j : Job) (p : Part) : State :=
  match (s.req j.req).bind fun q => s.reqRoom q 7 none false with
  | some s =>
    let (q, s) := s.enqueue .cores s.eng.coreQueue { j with cmd := none, parts := [p], made := [] }
    { s with eng := { s.eng with coreQueue := q } }
  | none => s.abandon j.req .capacity

/-! ### The operand buffer and foreign lines (R151, R160, R176) -/

/-- Bytes of a unit's operand buffer. -/
def bufferBytes : Nat := 65536

/-- A row in a unit's operand buffer. -/
def State.buffered (s : State) (n : Nat) (k : BufKey) : Option (List Byte) := ((s.nbUnit n).buffer.find? (·.key == k)).map (·.bytes)

def State.toBuffer (s : State) (n : Nat) (k : BufKey) (bs : List Byte) : State :=
  let u := s.nbUnit n
  s.setNb { u with buffer := ⟨k, bs⟩ :: dropWhere (·.key == k) u.buffer }

/-- The key under which a unit keeps an operand's row: a broadcast row serves every row of the request, while the buffer has room for it. -/
def State.bufKey (s : State) (n : Nat) (w : LoanWork) (req item i : Nat) : BufKey :=
  let kept := sumOf (fun b : BufRow => if b.key.item.isNone then b.bytes.length else 0) (s.nbUnit n).buffer
  let all : BufKey := ⟨req, none, i⟩
  if i ≠ 0 ∧ (ldOpnd w.desc i).stride = 0 ∧ ((s.buffered n all).isSome ∨ kept + opndBytes w.op w.desc i ≤ bufferBytes) then all
  else ⟨req, some item, i⟩

/-- Operand rows that a step of a unit needs in its buffer before it begins: broadcast rows, and rows of other channels; with frame, offset
and length. -/
def State.stepNeeds (s : State) (n : Nat) (j : Job) : List (BufKey × Nat × Nat × Nat) :=
  match (s.req j.req).bind (·.loanWork) with
  | none => []
  | some w =>
    (j.parts.flatMap fun p => match w.rows.lookup p.item with
      | none => []
      | some r => (readOpnds w.op w.desc).filterMap fun i => (r.opnd i).bind fun x =>
          let k := s.bufKey n w j.req p.item i
          let foreign := match s.placeOf x.1 with | .upper c _ => c != n | _ => false
          if (foreign || k.item.isNone) && (s.buffered n k).isNone then some (k, x.1, x.2, opndBytes w.op w.desc i) else none).dedup

/-- A fetch of a row for a unit waits in some channel's bank queue. -/
def State.fetching (s : State) (n : Nat) (k : BufKey) : Bool :=
  s.eng.units.any fun u => u.lines.any fun l => match l with | .fetch m x _ _ _ => m == n && x == k | _ => false

/-- Fetch a row for a unit: its own lines at once, others at the boundary of the channel that holds them (R176). -/
def State.fetchRow (s : State) (n : Nat) (x : BufKey × Nat × Nat × Nat) : State :=
  if s.fetching n x.1 then s
  else
    let now := s.toBuffer n x.1 (s.readFrame x.2.1 x.2.2.1 x.2.2.2)
    match s.placeOf x.2.1 with
    | .upper c _ =>
      let u := s.nbUnit c
      if c ≠ n ∧ (u.step.isSome ∨ !u.lines.isEmpty) then s.setNb { u with lines := u.lines ++ [.fetch n x.1 x.2.1 x.2.2.1 x.2.2.2] } else now
    | _ => now

/-- Every row that a step needs is in the buffer, or none of them is on its way. -/
def State.notFetching (s : State) (n : Nat) (j : Job) : Bool := (s.stepNeeds n j).all fun x => !s.fetching n x.1

/-- What a part reads of an operand's row: from the operand buffer, or from the bank now (R177). -/
def State.rowRead (s : State) (n : Option Nat) (w : LoanWork) (req item : Nat) (r : LoanRow) : RowBytes := fun i =>
  (r.opnd i).map fun x => ((n.bind fun n => s.buffered n (s.bufKey n w req item i))).getD (s.readFrame x.1 x.2 (opndBytes w.op w.desc i))

/-! ### A step begins -/

/-- Elements of a row before line `k` of `n`. -/
def elemAt (cols k n : Nat) : Nat := cols * k / max 1 n

/-- Append the elements that a step of the statistics pass has read (R163). -/
def addStats (item : Nat) (vs : List F32) (first : Bool) (l : List (Nat × List F32)) : List (Nat × List F32) :=
  if first then (item, vs) :: dropWhere (·.1 == item) l else modWhere (·.1 == item) (fun x => (x.1, x.2 ++ vs)) l

/-- The statistics pass of a row of NORM, in the first half of its lines (R163). -/
def State.normStats (s : State) (j : Job) (w : LoanWork) (rd : RowBytes) (p : Part) : State :=
  let half := p.n / 2
  if half ≤ p.lo then s
  else
    let n := ldCols w.desc
    let vs := ((srcVals w.desc 1 [] rd).take (elemAt n (min p.hi half) half)).drop (elemAt n p.lo half)
    s.modLoan j.req fun x => { x with stats := addStats p.item vs (p.lo == 0) x.stats }

/-- A step begins on a part of a row: it reads what stands there now, and makes what it writes at its end (R173, R176, R177). None: the part
is not run. `n` is the unit, if one runs it. -/
def State.beginRow (s : State) (n : Option Nat) (j : Job) (p : Part) : Option (List LineWrite) × State :=
  match (s.req j.req).bind (·.loanWork) with
  | none => (none, s)
  | some w =>
    match w.rows.lookup p.item with
    | none => (none, s)
    | some r =>
      match s.partBad w.op w.desc r p with
      | some f => (none, (if (s.placeOf f).isLower then s.count 0x6100 0xA else s).abandon j.req .mediaError)
      | none =>
        let rd := s.rowRead n w j.req p.item r
        let hold := fun (s : State) (o : RowStep) => s.modLoan j.req fun w => { w with held := (p.item, o.held) :: dropWhere (·.1 == p.item) w.held }
        if w.op = nbGATHER then
          let c := ldCols w.desc
          let vs := ((srcVals w.desc 1 [] rd).take (elemAt c p.hi p.n)).drop (elemAt c p.lo p.n)
          (some [], s.modLoan j.req fun w => { w with parts := addVals r.idx p.item vs p.first w.parts })
        else if w.op = nbOPT then (some (outBlocks w r p.item p.lo p.hi rd).lines, s)
        else if w.op = nbNORM then
          let s := s.normStats j w rd p
          let half := p.n / 2
          match (s.req j.req).bind (·.loanWork) with
          | none => (none, s)
          | some w =>
            if p.hi ≤ half then (some [], s)
            else let (o, s) := s.outLines w r p.item half (max p.lo half - half) (p.hi - half) rd; (some o.lines, hold s o)
        else let (o, s) := s.outLines w r p.item 0 p.lo p.hi rd; (some o.lines, hold s o)

/-- A step of a COPY reads its source lines (R172); one whose uncorrectable error stands ends the request (R178). -/
def State.beginCopy (s : State) (j : Job) (c : CopySpec) (p : Part) : Option (List LineWrite) × State :=
  if s.meetsBad c.src (c.off + 64 * p.lo) (64 * (p.hi - p.lo)) then (none, s.abandon j.req .mediaError)
  else
    let gen := ((s.frame c.dst).map (·.gen)).getD 0
    (some (((List.range p.hi).drop p.lo).map fun k =>
      { item := p.item, line := k, frame := c.dst, gen := gen, off := c.off + 64 * k, bytes := s.readFrame c.src (c.off + 64 * k) 64 }), s)

/-- A step or piece begins: the parts that run, and the lines that they make. -/
def State.beginParts (s : State) (n : Option Nat) (j : Job) : List Part → (List Part × List LineWrite) × State
  | [] => (([], []), s)
  | p :: ps =>
    let (o, s) :=
      if j.bare then (match j.copy with | some c => s.beginCopy j c p | none => (some [], s))
      else match s.req j.req with
        | some q => if q.att.isSome then (let (ok, s) := s.beginRead j p; (if ok then some [] else none, s)) else s.beginRow n j p
        | none => (none, s)
    let (l, s) := s.beginParts n j ps
    match o with
    | some ws => ((p :: l.1, ws ++ l.2), s)
    | none => (l, s)

/-- What is left of a step that begins; none when nothing is. -/
def State.beginJob (s : State) (n : Option Nat) (j : Job) : Option Job × State :=
  let ((ps, ws), s) := s.beginParts n j j.parts
  let s := match n with
    | some n => s.setNb { s.nbUnit n with buffer := dropWhere (fun b => b.key.req == j.req && b.key.item.any fun i => ps.any (·.item == i)) (s.nbUnit n).buffer }
    | none => s
  (if ps.isEmpty then none else some { j with parts := ps, made := ws }, s)

/-! ### Units -/

/-- A step or none runs on a unit. -/
def State.setStep (s : State) (n : Nat) (j : Option Job) : State := s.setNb { s.nbUnit n with step := j }

/-- A host access is over: its walk is no longer live, and fences look again (R95, R96). -/
def State.endHostWalk (s : State) (x : HostLine) : State :=
  (s.modMem fun m => { m with walks := m.walks.erase ⟨hostWalk, x.tenant, x.frame, x.walk⟩ }).refence

/-- Every access in a channel's bank queue that no request of a peer holds up is served, in order (R174). -/
def State.serveLines (s : State) : List LineAcc → List LineAcc × State
  | .host x :: l => ((s.serveLine x).endHostWalk x).serveLines l
  | .fetch n k f off len :: l => (s.toBuffer n k (s.readFrame f off len)).serveLines l
  | l => (l, s)

def State.drainLines (s : State) (n : Nat) : State :=
  let (l, s) := s.serveLines (s.nbUnit n).lines
  s.setNb { s.nbUnit n with lines := l }

/-- An idle unit whose bank queue is empty begins the next step that its scheduler selects (R174 step 3); one whose foreign lines are on their
way is passed over until they are in. -/
def State.startUnit : Nat → Nat → State → State
  | 0, _, s => s
  | k + 1, n, s =>
    let u := s.nbUnit n
    if u.step.isSome || !u.lines.isEmpty || !s.runsWork .nearBank n || !s.coreRuns then s
    else match s.chooseJob 2 (s.notFetching n) (s.runnable n) with
      | none => s
      | some j =>
        let s := (s.stepNeeds n j).foldl (fun s x => s.fetchRow n x) s
        if !(s.stepNeeds n j).isEmpty then s.startUnit k n
        else
          let u := s.nbUnit n
          let (q, s) := s.takeHead (.unit n) j u.queue
          let begun := match j.cmd with | some c => insertNew c u.begun | none => u.begun
          let (j, s) := (s.setNb { u with queue := q, begun := begun }).beginJob (some n) j
          match j with
          | some j => s.setStep n (some { j with began := s.now })
          | none => s.sweepCmds.startUnit k n

def State.kickUnit (s : State) (n : Nat) : State := s.startUnit (2 * (s.nbUnit n).queue.length + 1) n

/-- Units of a page that a block's K and V runs touch. -/
def Block.units (b : Block) (g : Geom) : List Nat :=
  unitsTouched (g.kOff b.kv b.lo) ((b.hi - b.lo) * g.kb) ++
  (if g.latent then [] else unitsTouched (g.vOff b.kv b.lo) ((b.hi - b.lo) * g.vb))

/-- Image bytes that a piece on a core moves at each controller of the lower tier (R200, R314). -/
def State.jobPins (s : State) (j : Job) : List (Nat × Nat) :=
  let at_ := fun (pl : Place) (bytes : Nat) => match pl.package with | some p => if bytes = 0 then [] else [(p, bytes)] | none => []
  j.parts.flatMap fun p => match s.jobBlock j.req p.item with
    | some (_, a, b) => if p.hi < p.n then [] else at_ b.place (s.streamUnits b.place b.frame (b.units a.geom))
    | none => match (s.req j.req).bind (·.loanWork) with
      | none => []
      | some w => match w.rows.lookup p.item with
        | none => []
        | some r =>
          (if p.first then ((rowOpnds w.op w.desc).zip (r.srcs.filterMap id)).flatMap fun x =>
            at_ (s.placeOf x.2.1) (s.streamBytes x.2.1 x.2.2 (opndBytes w.op w.desc x.1)) else []) ++
          if w.op = nbGATHER then []
          else at_ (s.placeOf r.frame) (s.streamBytes r.frame (r.off + opndBytes w.op w.desc 0 * p.lo / max 1 p.n) (opndBytes w.op w.desc 0 * (p.hi - p.lo) / max 1 p.n))

/-- A piece begins on a core; what it streams passes the controllers of the lower tier, and it cannot end before (R314). -/
def State.streamPiece (s : State) (c : Nat) (j : Job) : State :=
  if j.node then s else s.enterLower { j with parts := [], made := [], item := .core c s.now } (s.jobPins j)

/-- An idle core begins the next piece. -/
def State.startCore : Nat → Nat → State → State
  | 0, _, s => s
  | k + 1, c, s =>
    let x := s.coreSt c
    if x.piece.isSome || !s.runsWork .core c || !s.coreRuns then s
    else match s.chooseJob 1 (fun _ => true) s.eng.coreQueue with
      | none => s
      | some j =>
        let (q, s) := s.takeHead .cores j s.eng.coreQueue
        let (j, s) := ({ s with eng := { s.eng with coreQueue := q } }).beginJob none j
        match j with
        | some j => (s.setCore { x with piece := some { j with began := s.now } }).streamPiece c j
        | none => s.startCore k c

def State.kickCore (s : State) (c : Nat) : State := s.startCore (s.eng.coreQueue.length + 1) c

/-- A core that is in service and idle. -/
def State.idleCores (s : State) : List Nat :=
  (List.range (s.variant.count .core)).filter fun c => (s.coreSt c).piece.isNone && s.inService .core c && s.runsWork .core c

/-- Send a piece to the attention cores (R179). -/
def State.dispatchCore (s : State) (j : Job) (planned : Nat) : State :=
  let (q, s) := s.enqueue .cores s.eng.coreQueue { j with cmd := none, planned := planned }
  let s := { s with eng := { s.eng with coreQueue := q } }
  match s.idleCores with
  | c :: _ => s.kickCore c
  | [] => s

/-! ### Issuing commands (R151, R157) -/

/-- Queue the steps of a command on a unit. -/
def State.queueSteps (s : State) (n : Nat) : List Job → State
  | [] => s
  | j :: js =>
    let (q, s) := s.enqueue (.unit n) (s.nbUnit n).queue j
    (s.setNb { s.nbUnit n with queue := q }).queueSteps n js

/-- Commands issued whose list a unit has not ended. -/
def State.unitCmds (s : State) (n : Nat) : List NbCmd := s.eng.cmds.filter fun c => c.issued && c.left.contains n

/-- Entries of a command in a unit's work-list memory. -/
def NbCmd.span (c : NbCmd) (n : Nat) : Nat × Nat := (c.base, (c.lists.lookup n).elim 0 (·.length))

/-- Slots of a command's stacks that other commands hold. -/
def State.slotsTaken (s : State) (c : NbCmd) : List Nat :=
  (s.eng.cmds.filter fun x => x.issued && x.stacks.any c.stacks.contains).map (·.dslot)

/-- The command slot and the first work-list entry that a command gets, when every unit of its group has room for it. -/
def State.roomFor (s : State) (c : NbCmd) : Option (Nat × Nat) :=
  let units := c.lists.map (·.1)
  let used := units.flatMap fun n => (s.unitCmds n).map (·.span n)
  let n := c.lists.foldl (fun a l => max a l.2.length) 0
  if units.any fun n => decide (queueDepth ≤ (s.unitCmds n).length) then none
  else match lowestFree (s.slotsTaken c) cmdSlots, lowestGap used n 1 listEntries with
    | some k, some b => some (k, b)
    | _, _ => none

/-- Issue a command to every unit of its group; a word that the units refuse ends its request with INTERNAL. -/
def State.issueCmd (s : State) (c : NbCmd) (slot base : Nat) : State :=
  if c.refused then s.abandon c.req .internal
  else
    let units := c.lists.map (·.1)
    let s := { s with eng := { s.eng with
      cmds := modWhere (·.num == c.num) (fun c => { c with word := c.place slot base, issued := true, left := units, steps := [] }) s.eng.cmds } }
    let s := c.steps.foldl (fun s x => s.queueSteps x.1 x.2) s
    units.foldl State.kickUnit s

/-- Issue the commands for which there is room, in the order in which they were built (DESIGN CHOICE, log 40). -/
def State.issueAll : Nat → State → State
  | 0, s => s
  | k + 1, s =>
    match (s.eng.cmds.filter fun c => !c.issued).findSome? fun c => (s.roomFor c).map fun x => (c, x) with
    | some (c, slot, base) => (s.issueCmd c slot base).issueAll k
    | none => s

/-- What waits for a unit or a core goes on where it can: commands are issued, idle units and cores begin. -/
def State.pump (s : State) : State :=
  if !s.coreRuns then s
  else
    let s := s.ltPump.sweepCmds
    let s := s.issueAll (s.eng.cmds.length + 1)
    let s := ((s.eng.units.filter fun u => u.step.isNone && (!u.queue.isEmpty || !u.lines.isEmpty)).map (·.n)).foldl
      (fun s n => (s.drainLines n).kickUnit n) s
    if s.eng.coreQueue.isEmpty then s else s.idleCores.foldl State.kickCore s

/-! ### Dispatch of blocks -/

/-- Work-list entries of a block (R168), one for each record that it reads. -/
def AttWork.entries (a : AttWork) (e : BitVec 512) (b : Block) : List (BitVec 128) :=
  b.recs.map fun k =>
    let bound := ((recAt a.recs k).bind fun w => w.cands.find? (·.page == b.page)).elim F32.posInf fun c => c.bound
    let qidx := (a.tables[b.table]?).elim 0 (·.qidx (atHq e) k)
    BitVec.ofNat 128 (bound.toNat * 2 ^ 96 + b.frame * 2 ^ 64 + b.page * 2 ^ 48 + b.kv * 2 ^ 40 + b.lo / 16 * 2 ^ 36 + (b.hi - 1) / 16 * 2 ^ 32 +
      qidx * 2 ^ 26 + (if b.lead then 1 else if b.follow then 2 else 0) * 2 ^ 24)

/-- Dispatch blocks of an ATTEND: a command for each query table (R167), each block to the unit of the place where its walk found the page
(R29), or to the cores, which do its arithmetic at 16 times a unit's rate (R152). -/
def State.dispatchBlocks (s : State) (q : Req) (bs : List Block) : State :=
  match (s.req q.id).bind (·.att) with
  | none => s
  | some a =>
    let near := bs.filterMap fun b => (s.unitAt b.place).map fun n =>
      (b.table, n, ({ entries := a.entries q.entry b, item := b.id, n := ceilDiv b.bytes 64, planned := b.planned } : Work))
    let s := ((near.map (·.1)).dedup).foldl (fun s t =>
      let ws := byUnit ((near.filter (·.1 == t)).map (·.2))
      let table := a.tables[t]?
      State.broadcast (ws.length + near.length) q.job 0 (table.elim 0 (·.body.toNat)) (table.elim [] (·.bytes)) ws s) s
    let s := (bs.filter fun b => (s.unitAt b.place).isNone).foldl (fun s b =>
      s.dispatchCore { q.job with parts := [{ item := b.id, lo := 0, hi := max 1 (ceilDiv b.bytes 64), n := max 1 (ceilDiv b.bytes 64) }] }
        (max (forwardPs b.bytes) (b.arith / 16))) s
    s.pump

/-! ### The ends of blocks (R143, R169, R170) -/

/-- Slots of a record that a block has scored after `k` of its `n` lines, taken in ascending order (DESIGN CHOICE, log 70). -/
def RecWork.scored (w : RecWork) (b : Block) (k n : Nat) : List RefSlot :=
  w.ref.slots.filter fun t => t.page == b.page && decide (b.lo ≤ t.slot) && decide (t.slot < b.lo + ceilDiv ((b.hi - b.lo) * k) (max 1 n))

/-- What a unit sends for a record: its largest score so far, within E_s of the reference's (R52, R143, R170); with a NaN among them it is
a NaN (R49). -/
def RecWork.sends (w : RecWork) (l : List RefSlot) (x : F32) : F32 :=
  if l.any fun t => t.score == .nan then F32.nan
  else if l.any fun t => t.score == .pos then F32.posInf
  else match topScore l with
    | none => F32.negInf
    | some top => pickBy (fun y => ratAbs (y - top) ≤ w.ref.es) (ratF32 top) x

/-- A published score only raises m_pub; a NaN stays (R49). -/
def RecWork.publish (w : RecWork) (x : F32) : RecWork := { w with mpub := F32.max w.mpub x }

/-- Publish at the end of a step that reaches line `k` of `n`, for the records of a block (R143 step 2). -/
def State.publish (s : State) (r : Nat) (b : Block) (k n : Nat) : List Nat → State
  | [] => s
  | i :: is =>
    let (x, s) := s.drawBits 32
    (s.modAtt r fun a => { a with recs := modWhere (·.k == i) (fun w => w.publish (w.sends (w.scored b k n) x)) a.recs }).publish r b k n is

/-- The candidate that a block's page is for a record. -/
def candAt (rs : List RecWork) (k page : Nat) : Cand :=
  ((recAt rs k).bind fun w => w.cands.find? (·.page == page)).getD { page := page, slots := 0, bound := F32.posInf }

/-- The rank of a follow block: that of its page for its first record. -/
def blockRank (rs : List RecWork) (b : Block) : Cand := candAt rs (b.recs.headD 0) b.page

/-- Blocks in an order that is the rank order of every record, unit by unit (R143 step 4). -/
def inRankOrder (unit : Place → Option Nat) (rs : List RecWork) : List Block → Bool
  | [] => true
  | b :: bs =>
    (bs.all fun x => unit b.place != unit x.place || b.recs.all fun k => !x.recs.contains k || rankBefore (candAt rs k b.page) (candAt rs k x.page)) &&
    inRankOrder unit rs bs

/-- A follow wave in rank order: pages that several records read are read once where one order serves them all, else once for
each record. -/
def orderWave (unit : Place → Option Nat) (rs : List RecWork) (bs : List Block) : List Block :=
  let sort := fun l : List Block => l.mergeSort fun x y => rankBefore (blockRank rs x) (blockRank rs y)
  let whole := sort bs
  if inRankOrder unit rs whole then whole
  else (sort (bs.flatMap fun b => b.recs.map fun k => { b with recs := [k] })).mergeSort fun x y => decide (x.recs.headD 0 ≤ y.recs.headD 0)

/-- Dispatch the follow wave of some records (R143 step 3). -/
def State.followWave (s : State) (r : Nat) (ready : List Nat) : State :=
  match s.req r with
  | some q =>
    match q.att with
    | some a =>
      let t := a.held.foldl (fun (acc : List Block × List RecWork) b =>
        let x := dropBelow (tauOf q.entry) { b with recs := b.recs.filter ready.contains } acc.2
        (if x.1.recs.isEmpty then acc.1 else acc.1 ++ [x.1], x.2)) ([], a.recs)
      let go := (orderWave s.unitAt a.recs t.1).zipIdx.map fun b => { b.1 with id := a.nextId + b.2 }
      let left := (a.held.map fun b => { b with recs := b.recs.filter fun k => !ready.contains k }).filter fun b => !b.recs.isEmpty
      let s := s.modAtt r fun a => { a with held := left, busy := a.busy ++ go, recs := t.2, nextId := a.nextId + go.length }
      let s := a.held.foldl (fun s b => s.endWalk r b.frame) s
      s.dispatchBlocks q go
    | none => s
  | none => s

/-- Records of a lead block whose lead pages have all ended their first step. -/
def AttWork.ready (a : AttWork) (b : Block) : List Nat :=
  b.recs.filter fun k => !a.busy.any fun x => x.id != b.id && a.leadLeft.contains x.id && x.recs.contains k

/-- A lead block has ended its first step; the records for which it is the last such go on to their follow waves. -/
def State.leadDone (s : State) (r : Nat) (b : Block) : State :=
  match (s.req r).bind (·.att) with
  | some a => (s.modAtt r fun a => { a with leadLeft := a.leadLeft.erase b.id }).followWave r (a.ready b)
  | none => s

/-- Enter a page that a unit has read into what it combines for a record. -/
def addPage (k : Nat) (cmd : Option Nat) (unit page : Nat) (l : List Partial) : List Partial :=
  if l.any fun p => p.k == k && p.cmd == cmd && p.unit == unit then
    modWhere (fun p => p.k == k && p.cmd == cmd && p.unit == unit) (fun p => { p with pages := insertNew page p.pages }) l
  else l ++ [{ k := k, cmd := cmd, unit := unit, pages := [page] }]

/-- Blocks of a command that a unit is still to read. -/
def State.blocksLeft (s : State) (a : AttWork) (cmd : Option Nat) (unit : Nat) : List Block :=
  let u := s.nbUnit unit
  let items := ((u.queue ++ u.step.toList).filter fun j => j.cmd == cmd).flatMap fun j => j.parts.map (·.item)
  a.busy.filter fun b => items.contains b.id

/-- A unit or a core has come to the end of a block: it combines the page into its records, and sends the partial of each for which it has
no entry left (R169). -/
def State.combine (s : State) (j : Job) (b : Block) : State :=
  match s.req j.req with
  | none => s
  | some q =>
    match q.att with
    | none => s
    | some a =>
      let unit := match j.cmd, s.unitAt b.place with | some _, some n => n | _, _ => b.id
      let left := if j.cmd.isSome then s.blocksLeft a j.cmd unit else []
      let ps := b.recs.foldl (fun l k => addPage k j.cmd unit b.page l) a.partials
      let due := fun p : Partial => b.recs.contains p.k && p.cmd == j.cmd && p.unit == unit && !left.any fun x => x.id != b.id && x.recs.contains p.k
      let (l, s) := s.sendPartials a.geom.dvOut a.recs (ps.filter due)
      s.modAtt j.req fun a => { a with partials := (ps.filter fun p => !due p) ++ l }

/-- One step of an ATTEND block has ended. -/
def State.attPart (s : State) (j : Job) (p : Part) : State :=
  match s.jobBlock j.req p.item with
  | none => s
  | some (q, a, b) =>
    if s.blockBad a.geom b then (if b.place.isLower then s.count 0x6100 0xA else s).abandon j.req .mediaError else
    let s := if atSkip q.entry = 1 then s.publish j.req b p.hi p.n b.recs else s
    let s := if b.lead ∧ p.first then s.leadDone j.req b else s
    if p.hi < p.n then s
    else
      let s := s.chargeAt ⟨j.tenant, j.comp⟩ b.place (s.streamUnits b.place b.frame (b.units a.geom))
      ((s.combine j b).modAtt j.req fun a => { a with readIds := insertNew b.parent a.readIds }).dropBlock j.req b

/-! ### The ends of rows -/

/-- A part of a loan operation has ended; with the last part of a row the row is done. -/
def State.rowPart (s : State) (j : Job) (p : Part) : State :=
  match (s.req j.req).bind (·.loanWork) with
  | none => s
  | some w =>
    match w.rows.lookup p.item with
    | none => s
    | some r =>
      let left := w.jobs.erase p.item
      let s := if p.first then ((rowOpnds w.op w.desc).zip (r.srcs.filterMap id)).foldl
          (fun s x => s.chargePins ⟨j.tenant, j.comp⟩ x.2.1 (s.streamBytes x.2.1 x.2.2 (opndBytes w.op w.desc x.1))) s else s
      let s := if w.op = nbGATHER then s
        else s.chargePins ⟨j.tenant, j.comp⟩ r.frame (s.streamBytes r.frame (r.off + opndBytes w.op w.desc 0 * p.lo / max 1 p.n) (opndBytes w.op w.desc 0 * (p.hi - p.lo) / max 1 p.n))
      s.modLoan j.req fun w =>
        if left.contains p.item then { w with jobs := left }
        else { w with jobs := left, rows := dropWhere (·.1 == p.item) w.rows, held := dropWhere (·.1 == p.item) w.held,
                      stats := dropWhere (·.1 == p.item) w.stats, rowsDone := w.rowsDone + b2n (w.op != nbGATHER) }

/-- The lines that a part has made are written (R176), and the part has ended; one that finds no sectors waits for them (R185). -/
def State.rowEnd (s : State) (j : Job) (p : Part) : State :=
  match s.putLines j.tenant (j.made.filter (·.item == p.item)) with
  | some s => s.rowPart j p
  | none => s.partWaits j p

/-- What a step or a piece leaves at its end. -/
def State.stepDone (s : State) (j : Job) : State :=
  if j.bare then (s.putLines j.tenant j.made).getD s
  else j.parts.foldl (fun s p => match s.req j.req with
    | some q => if q.att.isSome then s.attPart j p else s.rowEnd j p
    | none => s) s

/-! ### Step boundaries (R174, R175) -/

/-- Measured busy time of a step or a piece, in ns of the local counter (R314, R317). -/
def Job.busyNs (j : Job) (now : Nat) : Nat := now - j.began

/-- The boundary: owed refreshes run, queued line accesses are served in order, a command whose list has ended is reported, and the next
step begins. -/
def State.boundary (s : State) (n : Nat) : State :=
  let s := s.setNb { s.nbUnit n with step := none, owed := 0, cut := false }
  ((s.drainLines n).kickUnit n).pump

/-- A step's busy time is metered to its tenant, but not that of node work (R174, R314). -/
def State.chargeStep (s : State) (r : Nat) (j : Job) : State := if j.node then s else s.charge j.tenant j.comp r (j.busyNs s.now)

def execNearBankStepEnd (unit : Nat) (s : State) : Host.Outcome State Fault Refusal :=
  .next <|
    match (s.nbUnit unit).step with
    | none => s
    | some j => if !s.coreRuns then s else ((s.chargeStep 2 j).stepDone j).boundary unit

/-- Lines of some parts. -/
def partLines (ps : List Part) : Nat := sumOf (fun p : Part => p.hi - p.lo) ps

/-- Divide parts after `k` lines. -/
def cutParts : Nat → List Part → List Part × List Part
  | _, [] => ([], [])
  | k, p :: ps =>
    let n := p.hi - p.lo
    if n ≤ k then let x := cutParts (k - n) ps; (p :: x.1, x.2)
    else if k = 0 then ([], p :: ps)
    else ([{ p with hi := p.lo + k }], { p with lo := p.lo + k, first := false } :: ps)

/-- A step after `k` of its lines: what it keeps, and the rest. -/
def Job.cutAt (j : Job) (k : Nat) : Job × Job :=
  let x := cutParts k j.parts
  let n := max 1 (partLines j.parts)
  ({ j with parts := x.1, planned := ceilDiv (j.planned * k) n,
            made := j.made.filter fun w => x.1.any fun p => p.item == w.item && decide (p.lo ≤ w.line) && decide (w.line < p.hi) },
   { j with parts := x.2, planned := j.planned - ceilDiv (j.planned * k) n, made := [] })

/-- What the rest of a step has read for a reduction or the statistics of NORM is read anew. -/
def State.unread (s : State) (r : Nat) (p : Part) : State :=
  s.modLoan r fun w =>
    let n := ldCols w.desc
    { w with parts := (w.parts.filter fun x => x.2.1 != p.item || !p.first).map fun x =>
               if x.2.1 = p.item then (x.1, x.2.1, x.2.2.take (elemAt n p.lo p.n)) else x
             stats := if p.lo < p.n / 2 then modWhere (·.1 == p.item) (fun x => (x.1, x.2.take (elemAt n p.lo (p.n / 2)))) w.stats else w.stats }

/-- The step that runs ends at the next line boundary, and the rest of its work becomes the next step (R175). The line at which it stands is
open. -/
def State.cutStep (s : State) (n : Nat) (j : Job) : State :=
  let (k, s) := s.draw (max 1 (partLines j.parts))
  let x := j.cutAt (k + 1)
  let u := s.nbUnit n
  if x.2.parts.isEmpty then s.setNb { u with cut := true }
  else
    let s := if j.bare then s else x.2.parts.foldl (fun s p => s.unread j.req p) s
    let s := s.setNb { u with cut := true, step := some x.1 }
    if j.node then s.setNb { s.nbUnit n with queue := x.2 :: (s.nbUnit n).queue }
    else
      let (q, s) := s.tagHead (.unit n) j.tenant j.loan (x.2 :: (s.nbUnit n).queue)
      s.setNb { s.nbUnit n with queue := q }

/-- Most refreshes that a channel owes. -/
def maxOwed : Nat := 8

def execRefreshDue (unit : Nat) (s : State) : Host.Outcome State Fault Refusal :=
  .next <|
    let u := s.nbUnit unit
    match u.step with
    | none => s
    | some j =>
      let u := { u with owed := min maxOwed (u.owed + 1) }
      let s := s.setNb u
      if u.owed = maxOwed ∧ !u.cut then s.cutStep unit j else s

/-- A piece on an attention core ends (R179, R314, R438), once what it streams has passed the controllers of the lower tier. -/
def execAttentionCorePieceEnd (core : Nat) (s : State) : Host.Outcome State Fault Refusal :=
  .next <|
    match (s.coreSt core).piece with
    | none => s
    | some j =>
      if !s.coreRuns ∨ s.atLower (fun x => x.item == .core core j.began) then s
      else
        let s := (s.chargeStep 1 j).stepDone j
        ((s.setCore { n := core }).kickCore core).pump

/-! ### Loan operations (R155-R157, R161-R166) -/

/-- Dispatch the rows of a loan operation, or the table rows of a GATHER_REDUCE: those of a unit in commands, in order (R157, R158; DESIGN
CHOICE, log 40), the others to the attention cores (R179). A unit reads a broadcast row once (R160). -/
def State.dispatchRows (s : State) (q : Req) (op : Nat) (d : List Byte) (rows : List (Nat × LoanRow)) : State :=
  let work := fun (x : Nat × LoanRow) (first : Bool) (n : Nat) =>
    ({ entries := [BitVec.ofNat 128 x.2.idx], item := x.1, n := rowLines op d, planned := s.rowPs op d (some n) first x.2,
       blocks := op == nbOPT } : Work)
  let near := rows.filterMap fun x => (s.unitFor x.2.frame).map fun n => (n, x)
  let units := (near.map (·.1)).dedup
  let ws := units.map fun n => (n, ((near.filter (·.1 == n)).map (·.2)).zipIdx.map fun x => work x.1 (x.2 == 0) n)
  let far := rows.filter fun x => (s.unitFor x.2.frame).isNone
  let s := State.broadcast (near.length + 1) q.job op 0 d ws s
  let parts := (s.eng.cmds.filter (·.req == q.id)).flatMap fun c => c.steps.flatMap fun x => x.2.flatMap fun j => j.parts.map (·.item)
  let s := s.modLoan q.id fun w => { w with jobs := parts }
  let s := far.foldl (fun s x =>
    (s.modLoan q.id fun w => { w with jobs := x.1 :: w.jobs }).dispatchCore
      { q.job with parts := [{ item := x.1, lo := 0, hi := rowLines op d, n := rowLines op d }] } (s.rowPs op d none true x.2)) s
  s.pump

/-- Frames that an operation walks to. -/
def LoanPlan.frames (p : LoanPlan) : List Nat :=
  ((p.rows ++ p.outs).flatMap fun r => r.frame :: r.srcs.filterMap fun x => x.map (·.1)).dedup

/-- A row that a plan names meets a generation that does not match (R91). -/
def State.rowsBadGen (s : State) (y : Payer) (op : Nat) (d : List Byte) : Bool :=
  let bad := fun a => addrEnd > a && s.walk y.tenant a .read == .badGen
  let rows := match s.loanRows y d with | .ok (rows, _) => rows | .error _ => []
  if op = nbGATHER then
    rows.any (fun r => bad ((ldOpnd d 0).rowAddr r)) ||
    (match s.gatherIndices y d with | .ok (_, idx, _) => idx.any (fun i => bad ((ldOpnd d 1).rowAddr i)) | .error _ => false)
  else rows.any fun r => (List.range 4).any fun i => (i == 0 || (ldOpnd d i).valid) && bad ((ldOpnd d i).rowAddr r)

/-- A plan has failed: a list that it reads may have met a line that the lower tier cannot read (R201), and a list or a row a generation that does
not match (R91). -/
def State.planFailed (s : State) (y : Payer) (op : Nat) (d : List Byte) (st : Status) : State :=
  let rowlist := if ldRowlist d = 0 then [] else [(ldRowlist d, 4 * ldListcount d)]
  let gather := if op = nbGATHER then [((ldOpnd d 2).addr, 4 * (ldRows d + 1))] else []
  match (rowlist ++ gather).find? fun x => (s.failsAt y.tenant .read (x.2 / granule + 2) x.1 x.2).isSome with
  | some x => if st = .mediaError ∨ st = .internal then s.noteFailed y.tenant x.1 x.2 .read else s
  | none => if st = .internal ∧ s.rowsBadGen y op d then s.count (0x4000 + y.tenant) 0x54 else s

/-- An NB_EXEC of one operation: the checks of R156, the chaining of R155, and dispatch. -/
def State.nbExec (s : State) (r op : Nat) : State :=
  s.runReq r [opNB_EXEC] fun q s =>
    if nbOp q.entry ≠ op ∨ q.loanWork.isSome then s
    else if s.chained q (nbOrdered q.entry) then s.accept r []
    else s.checked r (s.nbChecks q) fun s =>
      match s.loadTenant q.payer (nbDesc q.entry) 128 with
      | .error e => s.endRead q (nbDesc q.entry) 128 (loanStatus e)
      | .ok (d, s) =>
        match s.loanPlan q.payer op d with
        | .error e => (s.planFailed q.payer op d e).endReq r e
        | .ok (p, s) =>
          let rows := p.rows.zipIdx.map fun x => (x.2, x.1)
          let dest := (if op = nbGATHER then p.outs else p.rows).zipIdx
          let fwd := (dest.filter fun x => (s.unitFor x.1.frame).isNone).map (·.2)
          let w : LoanWork := { op := op, desc := d, rows := rows, outs := p.outs, jobs := [], rowsDone := 0, fwd := fwd }
          let s := s.modReq r fun q => { q with loanWork := some w, phase := .waiting .work, accepted := true }
          let ws := p.frames.map fun f => (⟨r, q.tenant, f, s.mem.walkEpoch⟩ : Walk)
          let s := p.frames.foldl (fun s f => s.heatFrame q.tenant f) (s.modMem fun m => { m with walks := m.walks ++ ws })
          s.dispatchRows q op d rows

/-- NB_EXEC entries whose OP names no loan operation end by R156 whichever row runs them. -/
def State.nbRow (s : State) (r op : Nat) : State :=
  match s.req r with
  | some q =>
    if decide (1 ≤ nbOp q.entry) && decide (nbOp q.entry ≤ 5) then s.nbExec r op
    else s.nbExec r (nbOp q.entry)
  | none => s

def execGatherReduce (r : Nat) (s : State) : Host.Outcome State Fault Refusal := .next (s.nbRow r nbGATHER)
def execEwise (r : Nat) (s : State) : Host.Outcome State Fault Refusal := .next (s.nbRow r nbEWISE)
def execNorm (r : Nat) (s : State) : Host.Outcome State Fault Refusal := .next (s.nbRow r nbNORM)
def execOptStep (r : Nat) (s : State) : Host.Outcome State Fault Refusal := .next (s.nbRow r nbOPT)
def execCast (r : Nat) (s : State) : Host.Outcome State Fault Refusal := .next (s.nbRow r nbCAST)

/-- Result of an NB_EXEC (R155). -/
def LoanWork.result (w : LoanWork) : Nat := (if w.op = nbGATHER then w.outs.length else w.rowsDone) + w.fwd.length * 2 ^ 32

/-- The commands of a request have completed: every unit has reported the end of its list (R157). A GATHER_REDUCE writes
its output now. -/
def execBroadcastCommandComplete (r : Nat) (s : State) : Host.Outcome State Fault Refusal :=
  .next <|
    match s.req r with
    | none => s
    | some q =>
      match q.loanWork with
      | none => s
      | some w =>
        if !w.jobs.isEmpty ∨ q.phase ≠ .waiting .work ∨ !s.coreRuns then s
        else if w.op = nbGATHER then
          match s.gatherOut q.tenant w w.outs.zipIdx with
          | some s => (s.endWalks r).okReq q w.result
          | none =>
            match s.reqRoom q 7 none false with
            | some s => s
            | none => (s.endWalks r).endReq r .capacity
        else (s.endWalks r).okReq q w.result

end Sys2Proof.Machine
end

