-- ==== Sys2Proof/Machine/Merge.lean ====
section
/-! DEFINITION. Sys2Proof/Machine/Merge.lean: merge contexts and contributions (R121-R126, R474). -/

namespace Sys2Proof.Machine

open Sys2Proof

/-! ### Contexts -/

def moResult (e : BitVec 512) : Nat := fld e 511 448
def moRecords (e : BitVec 512) : Nat := fld e 447 416
def moContrib (e : BitVec 512) : Nat := fld e 415 400
def moTimeout (e : BitVec 512) : Nat := fld e 399 368
def moDv (e : BitVec 512) : Nat := fld e 367 352
def moOfmt (e : BitVec 512) : Nat := fld e 351 348

/-- Merge contexts of a node (R121). -/
def maxMerges : Nat := 4096

def MergeCtx.id (x : MergeCtx) : Nat := x.slot * 16 + x.gen

/-- The context that a tenant's merge ID names (R101). -/
def State.findMerge (s : State) (t id : Nat) : Option MergeCtx :=
  s.merges.find? fun x => x.id == id && x.tenant == t

def State.modMerge (s : State) (slot : Nat) (f : MergeCtx → MergeCtx) : State :=
  { s with merges := modWhere (·.slot == slot) f s.merges }

/-- Frame sizes of an accumulator of `n` bytes: 8 MiB frames, then the smallest that holds the rest (DEDUCED, log 22). -/
def accFrames (n : Nat) : List Nat :=
  List.replicate (n / mib8) mib8 ++ (if n % mib8 = 0 then [] else [max granule (2 ^ clog2 (n % mib8))])

/-- Bytes of an accumulator record (R121). -/
def accRecord (dv : Nat) : Nat := 24 + 4 * dv

/-- Release a context: its frames, and the generation advances (R125). -/
def State.releaseMerge (s : State) (x : MergeCtx) : State :=
  let s := { s with merges := dropWhere (·.slot == x.slot) s.merges,
                    gens := { s.gens with merges := assocPut s.gens.merges x.slot (x.gen % 15 + 1) 0 } }
  x.frames.foldl (fun s n => s.releaseFrame n) s

/-- Bytes of the final records (R125). -/
def MergeCtx.resultBytes (x : MergeCtx) : Nat := x.records * recordBytes x.counts x.ofmt x.dv

def execMergeOpen (r : Nat) (s : State) : Host.Outcome State Fault Refusal :=
  .next <| s.runReq r [opMERGE_OPEN] fun q s =>
    let e := q.entry
    let dv := moDv e
    s.checked r
      [(decide (1 < moOfmt e), .formatUnsupported),
       (moRecords e == 0 || decide (1048576 < moRecords e) || moContrib e == 0 || decide (4096 < moContrib e) || decide (dv < 16) ||
        decide (1024 < dv) || decide (dv % 16 ≠ 0) || decide (moResult e % 8 ≠ 0), .rangeFault)] fun s =>
      match lowestFree (s.merges.map (·.slot)) maxMerges with
      | none => s.endReq r .capacity
      | some slot =>
        match allocEach (fun size s => s.allocPlain q.tenant q.comp size .accumulator false)
            (accFrames (moRecords e * accRecord dv)) s with
        | .got l s =>
          let gen := max 1 (assocGet s.gens.merges slot 0)
          let us := if moTimeout e = 0 then 1000000 else moTimeout e
          let x : MergeCtx := {
            slot := slot, gen := gen, tenant := q.tenant, comp := q.comp, result := moResult e, records := moRecords e, contribs := moContrib e, deadline := s.now + 1000 * us, dv := dv, ofmt := moOfmt e,
            counts := flag e 347, normalise := flag e 346, frames := l.map (·.2) }
          ({ s with merges := s.merges ++ [x], gens := { s.gens with merges := assocPut s.gens.merges slot gen 0 } }).okReq q x.id
        | _ => s.endReq r .capacity

/-! ### Closing (R125) -/

/-- Has every contribution ended? -/
def MergeCtx.allEnded (x : MergeCtx) : Bool := (x.begun.filter (·.ended)).length == x.contribs

/-- The status that a contribution which ended with neither OK nor PARTIAL_SKIPPED leaves. -/
def Contrib.bad (c : Contrib) : Bool := c.ended && c.status != .ok && c.status != .partialSkipped

/-- The lowest contributor index that failed. -/
def MergeCtx.firstBad (x : MergeCtx) : Option Contrib := leastBad (x.begun.filter Contrib.bad)
where
  leastBad (l : List Contrib) : Option Contrib :=
    match l with
    | [] => none
    | c :: cs => some (cs.foldl (fun a b => if b.idx < a.idx then b else a) c)

/-- The status of MERGE_CLOSE. -/
def MergeCtx.status (x : MergeCtx) : Status :=
  match x.firstBad with
  | some c => c.status
  | none =>
    if !x.allEnded then .timeout
    else if x.acc.any fun a => decide (0 < a.2.pagesSkipped) then .partialSkipped else .ok

/-- Result of MERGE_CLOSE (R101) (DEDUCED, log 67). -/
def MergeCtx.closeResult (x : MergeCtx) : Nat := sumOf (·.blocks) x.begun % 2 ^ 32 + sumOf (·.skipped) x.begun * 2 ^ 32

/-- The record of an index; an index that no contribution reached is the identity. -/
def MergeCtx.record (x : MergeCtx) (i : Nat) : Record := assocGet x.acc i (identityRecord x.dv)

/-- The final records as bytes. -/
def MergeCtx.output (x : MergeCtx) : List Byte :=
  (List.range x.records).flatMap fun i => (x.record i).bytes x.ofmt x.counts x.normalise

/-- What a MERGE_CLOSE that ends with a status leaves where its final records were to go: old or new lines, or undefined bytes (R37). -/
def State.blurFinal (s : State) (x : MergeCtx) (st : Status) : State := if blurs st then s.mix ⟨x.tenant, x.comp⟩ x.result x.output else s

/-- Release a context at once; a MERGE_CLOSE that waits on it ends with the status given (R126). -/
def State.dropMerge (s : State) (x : MergeCtx) (st : Status) : State :=
  let s := (if x.closing.isSome then s.blurFinal x st else s).releaseMerge x
  match x.closing with
  | some r => s.endReq r st
  | none => s

/-- NaN records among the final ones (R49, R57). -/
def MergeCtx.nanCount (x : MergeCtx) : Nat := (x.acc.filter fun a => F32.isNan a.2.m).length

/-- Count records written as NaN. -/
def State.countNanRec (s : State) (t n : Nat) : State := s.count (0x4000 + t) 0x52 n

/-- Finish the MERGE_CLOSE that waits on a context, once every contribution has ended or the timeout has expired. -/
def State.tryClose (s : State) (slot : Nat) : State :=
  match s.merges.find? (·.slot == slot) with
  | none => s
  | some x =>
    match x.closing.bind s.req with
    | none => s
    | some q =>
      if !(x.allEnded || x.timedOut) ∨ !q.live then s
      else
        let st := x.status
        if st = .ok ∨ st = .partialSkipped then
          match s.writeTenant ⟨x.tenant, x.comp⟩ x.result x.output with
          | .done s => ((s.countNanRec x.tenant x.nanCount).releaseMerge x).endReq q.id st x.closeResult
          | .bad e s => ((if blurs e then s.blurFinal x e else s.blur ⟨x.tenant, x.comp⟩ x.result x.resultBytes).releaseMerge x).endReq q.id e x.closeResult
          | .noSectors =>
            match s.reqRoom q 7 none false with
            | some s => s.waitReq q.id .sectors
            | none => (s.releaseMerge x).endReq q.id .capacity x.closeResult
        else ((s.blurFinal x st).releaseMerge x).endReq q.id st x.closeResult

def msId (e : BitVec 512) : Nat := fld e 143 128

def execMergeClose (r : Nat) (s : State) : Host.Outcome State Fault Refusal :=
  .next <| s.runReq r [opMERGE_CLOSE] fun q s =>
    match s.findMerge q.tenant (msId q.entry) with
    | none => s.endReq r .keyFault
    | some x =>
      if x.closing ≠ none ∧ x.closing ≠ some r then s.endReq r .keyFault
      else ((s.modMerge x.slot fun x => { x with closing := some r }).waitReq r (.mergeClose x.slot)).tryClose x.slot

def execMergeAbort (r : Nat) (s : State) : Host.Outcome State Fault Refusal :=
  .next <| s.runReq r [opMERGE_ABORT] fun q s =>
    match s.findMerge q.tenant (msId q.entry) with
    | none => s.endReq r .keyFault
    | some x => (s.dropMerge x .revoked).okReq q 0

/-- MERGE_TIMEOUT (R126). When an expiry comes is the sender's (DESIGN CHOICE, log 4). -/
def execMergeTimeout (slot : Nat) (s : State) : Host.Outcome State Fault Refusal :=
  .next <| if s.coreRuns then (s.modMerge slot fun x => { x with timedOut := true }).tryClose slot else s

/-! ### Contributions (R123, R474) -/

/-- What a message of a contribution says. -/
structure ContribMsg where
  id : Nat
  contrib : Nat
  rbase : Nat
  dv : Nat
  recs : List Record
  final : Bool
  status : Status := .ok
  blocks : Nat := 0

/-- Is the contribution that a message belongs to in progress? -/
def MergeCtx.inProgress (x : MergeCtx) (m : ContribMsg) (src : Option Nat × Nat) : Bool :=
  x.begun.any fun c => c.idx == m.contrib && c.src == src && !c.ended

/-- The judgement of R123; none: the message is taken. A contribution of no records is within a context of R records where RBASE ≤ R (DESIGN
CHOICE, log 82). -/
def State.judge (s : State) (t : Nat) (src : Option Nat × Nat) (m : ContribMsg) : Option Status :=
  match s.findMerge t m.id with
  | none => some .keyFault
  | some x =>
    if x.timedOut then some .keyFault
    else if x.contribs ≤ m.contrib ∨ x.records < m.rbase + m.recs.length ∨ x.dv ≠ m.dv then some .rangeFault
    else if x.inProgress m src then none
    else if x.begun.any fun c => c.idx == m.contrib then some .rangeFault
    else none

/-- Merge records into an accumulator from an index on, in arrival order. -/
def MergeCtx.mergeIn (x : MergeCtx) (i : Nat) : List Record → MergeCtx
  | [] => x
  | r :: rs =>
    ({ x with acc := assocPut x.acc i (mergeRecords x.dv (x.record i) r) (identityRecord x.dv) }).mergeIn (i + 1) rs

/-- Note a message in its contribution's record. -/
def MergeCtx.note (x : MergeCtx) (m : ContribMsg) (src : Option Nat × Nat) : MergeCtx :=
  let skipped := (m.recs.filter fun r => decide (0 < r.pagesSkipped)).length
  let up := fun c : Contrib => { c with
    skipped := c.skipped + skipped, blocks := c.blocks + m.blocks, ended := m.final,
    status := if m.final then (c.failed.getD m.status) else c.status }
  if x.begun.any fun c => c.idx == m.contrib then { x with begun := modWhere (·.idx == m.contrib) up x.begun }
  else { x with begun := x.begun ++ [up { idx := m.contrib, src := src }] }

/-- Take a message of a contribution (R123): the status of its refusal, or the state with its records merged. -/
def State.contribute (s : State) (t : Nat) (src : Option Nat × Nat) (m : ContribMsg) : Except Status State :=
  match s.judge t src m, s.findMerge t m.id with
  | some st, _ => .error st
  | none, none => .error .keyFault
  | none, some x => .ok ((s.modMerge x.slot fun x => (x.mergeIn m.rbase m.recs).note m src).tryClose x.slot)

/-! ### Records as bytes (R114, R124, R474) -/

/-- A record with counts and FP32 o. -/
def recordOf (dv : Nat) (bs : List Byte) : Record :=
  let f := fun i => leVal ((bs.drop i).take 4)
  { m := BitVec.ofNat 32 (f 0), l := BitVec.ofNat 32 (f 4), pagesRead := f 8, pagesSkipped := f 12, beta := BitVec.ofNat 32 (f 16),
    tokens := f 20, o := (List.range dv).map fun i => BitVec.ofNat 32 (f (24 + 4 * i)) }

def recordsOf (dv n : Nat) (bs : List Byte) : List Record := (chunks (accRecord dv) n bs).map (recordOf dv)

/-- The message that a REQ_MERGE payload holds. -/
def contribMsgOf (bs : List Byte) : ContribMsg :=
  let h := leVal (bs.take 32)
  let dv := bits h 143 128
  { id := bits h 15 0, contrib := bits h 47 32, rbase := bits h 95 64, dv := dv, recs := recordsOf dv (bits h 127 96) (bs.drop 32),
    final := bit h 144, status := Status.ofCode (bits h 159 152), blocks := bits h 191 160 }

/-- A REQ_MERGE payload. -/
def ContribMsg.bytes (m : ContribMsg) : List Byte :=
  leBytes 32 (m.id + m.contrib * 2 ^ 32 + m.rbase * 2 ^ 64 + m.recs.length * 2 ^ 96 + m.dv * 2 ^ 128 + b2n m.final * 2 ^ 144 +
    m.status.code * 2 ^ 152 + m.blocks * 2 ^ 160) ++ m.recs.flatMap fun r => r.bytes fmtFP32 true false

/-! ### MERGE_SUBMIT (R124) -/

def msSrcOffset (e : BitVec 512) : Nat := fld e 383 320
def msSrcKey (e : BitVec 512) : Nat := fld e 319 288
def msCount (e : BitVec 512) : Nat := fld e 287 256
def msRbase (e : BitVec 512) : Nat := fld e 255 224
def msContrib (e : BitVec 512) : Nat := fld e 159 144

def execMergeSubmit (r : Nat) (dma : List Byte) (s : State) : Host.Outcome State Fault Refusal :=
  .next <| s.runReq r [opMERGE_SUBMIT] fun q s =>
    let e := q.entry
    let n := msCount e
    s.checked r [(n == 0 || decide (msSrcOffset e % 8 ≠ 0), .rangeFault)] fun s =>
    let dv := ((s.findMerge q.tenant (msId e)).map (·.dv)).getD 0
    let len := if dv = 0 then 0 else n * accRecord dv
    match s.source q (msSrcKey e) (msSrcOffset e) len (if dv = 0 then [] else dma) with
    | .error st => s.endRead q (s.keyAddr (msSrcKey e) (msSrcOffset e)) len st
    | .ok none => s
    | .ok (some (bs, s)) =>
      match s.contribute q.tenant (none, r) { id := msId e, contrib := msContrib e, rbase := msRbase e, dv := dv,
                                              recs := recordsOf dv n bs, final := true } with
      | .error st => s.endReq r st
      | .ok s => s.okReq q n

end Sys2Proof.Machine
end

