-- ==== Sys2Proof/Machine/Wire.lean ====
section
/-! DEFINITION. Sys2Proof/Machine/Wire.lean: Pyvas packets and connections: header and framing (R233-R237), paths (R251),
sending within window and credit (R242, R245), acknowledgement (R246-R248), and the completion entry (R270). -/

namespace Sys2Proof

/-! ### The header (R237) -/

def PClass.code : PClass → Nat
  | .req => 0 | .rsp => 1 | .ack => 2 | .mgt => 3

/-- The 40 header bytes as sent. -/
def Packet.header (p : Packet) : List Byte :=
  beBytes 40 (p.ver * 2 ^ 316 + p.cls.code * 2 ^ 314 + p.type * 2 ^ 308 + b2n p.som * 2 ^ 307 + b2n p.eom * 2 ^ 306 +
    b2n p.retx * 2 ^ 305 + b2n p.acknow * 2 ^ 304 + b2n p.banked * 2 ^ 303 + p.src * 2 ^ 288 + p.dst * 2 ^ 276 +
    p.tenant * 2 ^ 264 + p.hoplim * 2 ^ 256 + p.conn * 2 ^ 232 + p.retry * 2 ^ 224 + p.psn * 2 ^ 192 + p.mlen * 2 ^ 160 +
    p.reqId * 2 ^ 128 + p.comp * 2 ^ 112 + p.epoch * 2 ^ 96 + p.offset * 2 ^ 64 + p.tstamp * 2 ^ 32 + p.len * 2 ^ 16 + p.age * 2 ^ 8)

/-- ICRC over header and payload (R235). -/
def Packet.crc (p : Packet) : BitVec 32 := Machine.crc32c (p.header ++ p.payload)

/-- The 802.1Q tag, when there is one (R233). -/
def Packet.tag (p : Packet) : List Byte := if p.vlan = 0 then [] else beBytes 2 0x8100 ++ beBytes 2 (p.pcp * 2 ^ 13 + p.vlan)

/-- Sum of the 16-bit words of some bytes, in ones' complement. -/
def onesSum (bs : List Byte) : Nat :=
  (Machine.chunks 2 (ceilDiv bs.length 2) bs).foldl (fun a w =>
    let x := a + beVal (w ++ List.replicate (2 - w.length) 0)
    x % 2 ^ 16 + x / 2 ^ 16) 0

/-- The IPv6 and UDP headers of a frame, with the UDP checksum (R234). -/
def Packet.ipUdp (p : Packet) : List Byte :=
  let n := 52 + p.payload.length
  let addrs := beBytes 16 p.srcIp.toNat ++ beBytes 16 p.dstIp.toNat
  let udp := fun c : Nat => beBytes 2 p.sport ++ beBytes 2 p.dport ++ beBytes 2 n ++ beBytes 2 c
  let sum := 0xFFFF - onesSum (addrs ++ beBytes 4 n ++ beBytes 4 17 ++ udp 0 ++ p.header ++ p.payload ++ beBytes 4 p.icrc.toNat)
  beBytes 4 (6 * 2 ^ 28 + (4 * p.dscp + p.ecn) * 2 ^ 20 + p.flow) ++ beBytes 2 n ++ beBytes 1 17 ++ beBytes 1 p.hopLimit ++ addrs ++
  udp (if sum = 0 then 0xFFFF else sum)

/-- The frame as sent: native or UDP/IPv6, the ICRC most significant byte first, the pad to 64 bytes and the FCS (R233-R235). -/
def Packet.frame (p : Packet) : List Byte :=
  let body := beBytes 6 p.dstMac.toNat ++ beBytes 6 p.srcMac.toNat ++ p.tag ++ beBytes 2 p.etherType ++
    (if p.udp then p.ipUdp else []) ++ p.header ++ p.payload ++ beBytes 4 p.icrc.toNat
  let padded := body ++ List.replicate (60 - body.length) 0
  padded ++ leBytes 4 (Machine.crc32 padded).toNat

/-- Congestion was met (R247). -/
def Packet.ce (p : Packet) : Bool := p.udp && p.ecn == 3

/-- PCP and DSCP of a class (R261). -/
def Machine.Marks.pcpOf (m : Machine.Marks) (c : PClass) : Nat := bits m.pcp (3 * c.code + 2) (3 * c.code)
def Machine.Marks.dscpOf (m : Machine.Marks) (c : PClass) : Nat := bits m.dscp (6 * c.code + 5) (6 * c.code)

/-- A packet of a class that carries requests or responses. -/
def Packet.carries (p : Packet) : Bool := p.cls == .req || p.cls == .rsp

/-- The fields of the framing that FRAMING selects (R233, R234). -/
def Packet.framed (p : Packet) (udp : Bool) (node port path : Nat) (m : Machine.Marks) : Packet :=
  let p := { p with
    src := node, udp := udp, etherType := if udp then 0x86DD else 0x88B6, vlan := m.vlan, pcp := m.pcpOf p.cls, dport := 0, sport := 0,
    flow := 0, dscp := 0, ecn := 0 }
  if udp then { p with
    dport := port, sport := 0xC000 + (Config.flowPort node p.dst p.conn path).toNat, flow := (Config.flowLabel node p.dst p.conn path).toNat,
    dscp := m.dscpOf p.cls, ecn := if p.carries then 2 else 0, hopLimit := 64 }
  else p

/-- Is TYPE listed for the class (R238)? -/
def Packet.typeOk (p : Packet) : Bool :=
  match p.cls with
  | .req => p.type == 1 || p.type == 2
  | .rsp => p.type == 1 || p.type == 2
  | .ack => decide (1 ≤ p.type) && decide (p.type ≤ 4)
  | .mgt => decide (1 ≤ p.type) && decide (p.type ≤ 7)

end Sys2Proof

namespace Sys2Proof.Machine

open Sys2Proof

/-! ### Settings (R261) -/

def State.nodeId (s : State) : Nat := s.scalar 0x3210 1
def State.rtoMin (s : State) : Nat := s.scalar 0x3210 8
def State.rtoMax (s : State) : Nat := s.scalar 0x3210 9
def State.ccInit (s : State) : Nat := s.scalar 0x3210 0xA
def State.ccMin (s : State) : Nat := s.scalar 0x3210 0xB

/-- Payload bytes that an MTU code selects; an unlisted code is treated as 0 (R244, R261). -/
def mtuBytes (code : Nat) : Nat := if code = 1 then 2048 else if code = 2 then 4096 else 1024

/-! ### Sequence numbers (R245) -/

def seqMod : Nat := 2 ^ 32

/-- `b - a` modulo 2^32. -/
def seqDist (a b : Nat) : Nat := (b + seqMod - a % seqMod) % seqMod

/-- PSN a lies below b. -/
def psnBelow (a b : Nat) : Bool := let d := seqDist a b; decide (1 ≤ d) && decide (d < 2 ^ 31)

def psnNext (a : Nat) : Nat := (a + 1) % seqMod

/-- Frame bytes, FCS included (R233-R235). -/
def frameLen (udp tagged : Bool) (len : Nat) : Nat :=
  if udp then 110 + len + (if tagged then 4 else 0)
  else max 64 (62 + len + (if tagged then 4 else 0))

/-! ### Ports and paths -/

def State.port (s : State) (p : Nat) : Port := (s.fab.ports.find? (·.p == p)).getD { p := p, status := .absent }

/-- PORT_STATUS: ports that are not fitted read ABSENT (R232). -/
def State.portStatus (s : State) (p : Nat) : PortStatus := if p < s.variant.ports then (s.port p).status else .absent

/-- A port over which paths run (R251). -/
def State.portLive (s : State) (p : Nat) : Bool := s.portStatus p == .up || s.portStatus p == .degraded

def State.conn (s : State) (n : Nat) : Option Conn := s.fab.conns.find? (·.num == n)

def State.modConn (s : State) (n : Nat) (f : Conn → Conn) : State :=
  { s with fab := { s.fab with conns := modWhere (·.num == n) f s.fab.conns } }

/-- Home I/O die and engine of a connection (R275). -/
def State.homeDie (s : State) (n : Nat) : Nat := n % max 1 s.variant.ioDies
def State.engineOf (s : State) (n : Nat) : Nat := n / max 1 s.variant.ioDies % 8

def Conn.send (c : Conn) : Nat → SendSpace
  | 0 => c.sreq
  | 1 => c.srsp
  | _ => c.smerge

def Conn.setSend (c : Conn) (sp : Nat) (x : SendSpace) : Conn :=
  match sp with
  | 0 => { c with sreq := x }
  | 1 => { c with srsp := x }
  | _ => { c with smerge := x }

def Conn.recv (c : Conn) : Nat → RecvSpace
  | 0 => c.rreq
  | 1 => c.rrsp
  | _ => c.rmerge

def Conn.setRecv (c : Conn) (sp : Nat) (x : RecvSpace) : Conn :=
  match sp with
  | 0 => { c with rreq := x }
  | 1 => { c with rrsp := x }
  | _ => { c with rmerge := x }

/-- Usable paths, by index: on a live port and not taken out. -/
def State.usablePaths (s : State) (c : Conn) : List (Path × Nat) :=
  c.paths.zipIdx.filter fun x => s.portLive x.1.port && !x.1.out

/-- Paths on live ports, when every one of them has been taken out. -/
def State.livePaths (s : State) (c : Conn) : List (Path × Nat) := c.paths.zipIdx.filter fun x => s.portLive x.1.port

/-- The least of a list by a measure; the first of equals. -/
def leastBy {α : Type} (f : α → Nat) : List α → Option α
  | [] => none
  | x :: xs => some (xs.foldl (fun a y => if f y < f a then y else a) x)

/-- The path a packet takes (R251); a retransmission avoids the one that it last took while another is available (R249). -/
def State.choosePath (s : State) (c : Conn) (avoid : Option Nat) : Option Nat :=
  let us := s.usablePaths c
  let other := us.filter fun x => some x.2 != avoid
  match leastBy (·.1.next) (if other.isEmpty then us else other) with
  | some x => some x.2
  | none => (leastBy (·.1.failedAt) (s.livePaths c)).map (·.2)

/-! ### Sending a packet -/

def State.udpFraming (s : State) : Bool := s.scalar 0x3210 2 == 1

/-- VLAN, PCP_MAP and DSCP_MAP as they now stand (R261). -/
def State.marks (s : State) : Marks := { vlan := s.scalar 0x3210 5, pcp := s.scalar 0x3210 6, dscp := s.scalar 0x3210 7 }


/-- BANKED in the headers of packets that are sent: from the start of entry to the end of exit (R450, R452). -/
def State.banks (s : State) : Bool := s.node.phase == .entering || s.node.phase == .banked || s.node.phase == .exiting

/-- UDP framing is selected while the port has no IPv6 address: it then sends nothing (R232). -/
def State.noAddress (s : State) (port : Nat) : Bool := s.udpFraming && (s.octets (0x3200 + port) 4 0 16).all (· == 0)

/-- A path is a pair of a local port and a port address of the target (R251). -/
def Path.joins (x : Path) (port : Nat) (mac : BitVec 48) (ip : BitVec 128) : Bool := x.port == port && x.mac == mac && x.ip == ip

/-- Paths that a packet has used, whichever connection holds them (R259). -/
def State.usedPath (s : State) (port : Nat) (mac : BitVec 48) (ip : BitVec 128) : State :=
  { s with fab := { s.fab with conns := s.fab.conns.map fun c =>
      { c with paths := modWhere (·.joins port mac ip) (fun x => { x with used := s.now }) c.paths } } }

/-- Put a packet on a port's wire. MLEN of an ACK or MGT packet is its payload's length; `path` is 0 for a packet that no path set carries
(DESIGN CHOICE, log 85). -/
def State.putWire (s : State) (p : Packet) (port : Nat) (mac : BitVec 48) (ip : BitVec 128) (m : Marks) (path : Nat) : State :=
  if s.noAddress port then s else
  let s := if p.cls = .mgt ∧ p.type = 1 then s else s.usedPath port mac ip
  let p := p.framed s.udpFraming s.nodeId (s.scalar 0x3210 3) path m
  let p := { p with
    port := port, dstMac := mac, dstIp := ip, srcMac := BitVec.ofNat 48 (beVal (s.octets (0x3200 + port) 3 0 6)),
    srcIp := BitVec.ofNat 128 (beVal (s.octets (0x3200 + port) 4 0 16)), tstamp := s.now % seqMod, len := p.payload.length,
    mlen := if p.carries then p.mlen else p.payload.length, banked := s.banks }
  let p := { p with icrc := p.crc }
  (s.emit (.packet p p.frame)).count 0x6300 1

/-- Time over which a port's ACK and MGT packets are capped, and the bytes of one lane that 2 % of its rate is in that time (R314). -/
def ctlSpan : Nat := 100000
def ctlLaneBytes : Nat := 50000

/-- An ACK or MGT packet of `n` bytes may leave by a port now. -/
def State.ctlRoom (s : State) (port n : Nat) : Bool :=
  decide (sumOf (fun x : Nat × Nat × Nat => if x.1 = port ∧ s.now < x.2.1 + ctlSpan then x.2.2 else 0) s.fab.ctlSent + n ≤
    ctlLaneBytes * max 1 (s.port port).width)

/-- Send a packet. One of the classes ACK and MGT leaves ahead of REQ and RSP, or waits for the cap behind those that wait (R314). -/
def State.transmit (s : State) (p : Packet) (port : Nat) (mac : BitVec 48) (ip : BitVec 128) (m : Marks) (path : Nat := 0) : State :=
  if p.carries then s.putWire p port mac ip m path
  else
    let n := frameLen s.udpFraming (m.vlan != 0) p.payload.length
    if !s.fab.ctl.any (·.port == port) ∧ s.ctlRoom port n then
      ({ s with fab := { s.fab with
          ctlSent := (port, s.now, n) :: s.fab.ctlSent.filter fun x => decide (s.now < x.2.1 + ctlSpan) } } : State).putWire p port mac ip m path
    else { s with fab := { s.fab with ctl := s.fab.ctl ++ [⟨p, port, mac, ip, m, path⟩] } }

/-- ACK and MGT packets that waited leave as the cap comes to permit. -/
def State.drainCtl (s : State) : State :=
  s.fab.ctl.foldl (fun s x => s.transmit x.pkt x.port x.mac x.ip x.marks x.path) { s with fab := { s.fab with ctl := [] } }

/-- COMP_ID of a composition slot; 0 for a slot that is free. -/
def State.compId (s : State) (slot : Nat) : Nat := ((s.comp slot).map (·.id)).getD 0

/-- EPOCH of the current map of a slot. -/
def State.compEpoch (s : State) (slot : Nat) : Nat := (((s.comp slot).bind (·.map)).map (·.epoch)).getD 0

/-- A packet of a connection, its class fields still to be set. -/
def State.connPacket (s : State) (c : Conn) (cls : PClass) (type : Nat) : Packet :=
  { cls := cls, type := type, dst := c.peer, tenant := c.tenant, conn := c.peerConn, comp := s.compId c.comp, epoch := s.compEpoch c.comp }

/-- ns that a frame takes at a rate in Mbit/s. -/
def wireNs (bytes rate : Nat) : Nat := ceilDiv (bytes * 8000) (max 1 rate)

/-- A rehearsed DROPPED_REPLY discards one RSP packet in N to its peer at egress (R440). -/
def State.dropsReply (s : State) (p : Packet) : Bool × State :=
  match s.flt.rehearsals.find? fun x => x.kind == rehReply && x.target == p.dst with
  | some x =>
    if p.cls = .rsp then
      let n := x.seen + 1
      let s := { s with flt := { s.flt with rehearsals := modWhere (·.slot == x.slot) (fun y => { y with seen := n }) s.flt.rehearsals } }
      if n % max 1 (s.scalar (0x7001 + x.slot) 7) = 0 then (true, s.count 0x6000 0x32) else (false, s)
    else (false, s)
  | none => (false, s)

/-- A connection's packets are of its composition's class (R314). -/
def State.connLoan (s : State) (c : Conn) : Bool := match s.comp c.comp with | some x => x.loan | none => false

/-- V of a port (R315). -/
def State.portV (s : State) (port : Nat) : Rat :=
  match s.fab.heads.filter (·.1 == port) with
  | [] => s.lastV (.port port)
  | x :: xs => xs.foldl (fun a y => min a y.2.2.2) x.2.2.2

/-- The start tag with which a flow's next packet is served at a port: that of its head, else as a flow that wakes (R315). -/
def State.startTag (s : State) (port t : Nat) (loan : Bool) : Rat :=
  let here := s.fab.heads.filter (·.1 == port)
  match here.find? fun x => x.2.1 == t && x.2.2.1 == loan with
  | some x => x.2.2.2
  | none =>
    max (s.finishTag (.port port) t loan) (s.portV port)

/-- A flow's packet of `n` bytes has been served at a port: its finish tag, which is the start tag of the next that it holds (R315). -/
def State.servedAt (s : State) (port t : Nat) (loan : Bool) (n : Nat) : State :=
  let st := s.startTag port t loan
  let f := st + (n : Rat) / (s.weight t loan : Rat)
  let v := if (s.fab.heads.filter (·.1 == port)).isEmpty then st else s.portV port
  let s := (s.setV (.port port) v).setFinish (.port port) t loan f
  { s with fab := { s.fab with
    heads := modWhere (fun x => x.1 == port && x.2.1 == t && x.2.2.1 == loan) (fun x => (x.1, x.2.1, x.2.2.1, f)) s.fab.heads } }

/-- Send a connection's packet over a path: its pace (R251) and, for REQ and RSP, its flow's tag and its charge (R314, R315). -/
def State.sendOn (s : State) (c : Conn) (i : Nat) (p : Packet) : State :=
  match c.paths[i]? with
  | none => s
  | some path =>
    let n := frameLen s.udpFraming (c.marks.vlan != 0) p.payload.length
    let (drop, s) := s.dropsReply p
    let s := if drop then s else s.transmit p path.port path.mac path.ip c.marks i
    let s := s.modConn c.num fun c =>
      { c with paths := c.paths.modify i fun x => { x with next := max s.now x.next + wireNs n x.rate }, lastUse := s.now }
    if p.carries then (s.servedAt path.port c.tenant (s.connLoan c) n).charge c.tenant c.comp 0 n else s

/-- Send an ACK or MGT packet of a connection, if it has a path. -/
def State.sendAck (s : State) (c : Conn) (p : Packet) : State :=
  match s.choosePath c none with
  | some i => s.sendOn c i p
  | none => s

/-! ### Messages (R238, R242, R245) -/

/-- AGE (R237): 4 us units since the first issue. -/
def ageOf (now first : Nat) : Nat := min 255 ((now - first) / 4000)

/-- AGE of a packet as it leaves: that of its request; 0 for one that no request of this node sends (DESIGN CHOICE, log 83). -/
def State.ageFor (s : State) (r : Option Nat) : Nat :=
  match (r.bind s.req).bind (·.remote) with
  | some o => ageOf s.now o.firstIssue
  | none => 0

/-- A message to be cut into packets. -/
structure Msg where
  cls : PClass
  type : Nat
  bytes : List Byte
  reqId : Nat
  req : Option Nat
  epoch : Nat
  retry : Nat := 0
  hoplim : Nat := 8
  /-- AGE of the request that a response answers. -/
  age : Nat := 0
  deriving DecidableEq, Repr

/-- Sending space of a class and type. -/
def spaceOf (cls : PClass) (type : Nat) : Nat := if cls = .rsp then 1 else if type = 2 then 2 else 0

/-- Segments of a message: offset and payload. -/
def segments (mtu : Nat) (bs : List Byte) : List (Nat × List Byte) :=
  (chunks mtu (max 1 (ceilDiv bs.length mtu)) bs).zipIdx.map fun x => (mtu * x.2, x.1)

/-- The packets of a message under consecutive PSNs. -/
def State.msgPackets (s : State) (c : Conn) (m : Msg) (first : Nat) : List OutPkt :=
  let segs := segments c.mtu m.bytes
  segs.zipIdx.map fun x =>
    let psn := (first + x.2) % seqMod
    let p := { s.connPacket c m.cls m.type with
      som := x.2 == 0, eom := x.2 + 1 == segs.length, psn := psn, mlen := m.bytes.length, reqId := m.reqId, epoch := m.epoch,
      retry := m.retry, hoplim := m.hoplim, offset := x.1.1, payload := x.1.2 }
    { psn := psn, req := m.req, path := 0, since := s.now, age := if m.req.isSome then s.ageFor m.req else m.age, arr := s.fab.nextArr, pkt := p }

/-- The next packet to come to a scheduler has another number. -/
def State.arrive (s : State) : State := { s with fab := { s.fab with nextArr := s.fab.nextArr + 1 } }

/-- Most packets outstanding beyond CUM (R245). -/
def sendWindow : Nat := 512

/-- May a packet of a space be sent now? -/
def Conn.maySend (c : Conn) (sp psn : Nat) : Bool :=
  decide (seqDist (c.send sp).cum psn < sendWindow) && (sp != 0 || psnBelow psn c.limit)

/-- CREDIT_ASK, with the greatest AGE of the packets that wait (R238, R242). -/
def State.creditAsk (s : State) (c : Conn) : State :=
  let held := c.sreq.outs.filter fun o => !o.sent
  let age := held.foldl (fun a o => max a (s.ageFor o.req)) 0
  s.sendAck c { s.connPacket c .ack 2 with payload := beBytes 4 held.length, age := age }

/-! ### The ledger at a resend (R297) -/

/-- Opcodes of atomic operations. -/
def isAtomic (op : Nat) : Bool := decide (opFADD ≤ op) && decide (op ≤ opCAS128)

/-- OPCODE and STATUS of a completion entry. -/
def cqeOpcode (bs : List Byte) : Nat := bits (leVal bs) 167 160
def cqeStatus (bs : List Byte) : Nat := bits (leVal bs) 159 152

/-- A completion entry with another status. -/
def cqeWithStatus (bs : List Byte) (st : Status) : List Byte :=
  leBytes 32 (leVal bs - cqeStatus bs * 2 ^ 152 + st.code * 2 ^ 152)

/-- Rebuild an atomic's RSP_END from the ledger: INDETERMINATE when its entry has aged out or is lost. One that refused the operation, which has no
entry, goes as it was. -/
def State.rebuildEnd (s : State) (c : Conn) (o : OutPkt) : OutPkt × State :=
  if o.pkt.cls = .rsp ∧ o.pkt.type = 2 ∧ isAtomic (cqeOpcode o.pkt.payload) ∧ cqeStatus o.pkt.payload = Status.ok.code then
    match c.ledger.bind fun l => l.entries.find? fun e => e.psn == o.psn && !e.bad with
    | some _ => (o, s.count 0x6400 8)
    | none => ({ o with pkt := { o.pkt with payload := cqeWithStatus o.pkt.payload .indeterminate } }, s.count 0x6400 9)
  else (o, s)

/-! ### Sending within window, credit, pace and bucket (R242, R245, R251, R252, R316) -/

/-- It waits to leave: not yet sent, or to be sent again. -/
def OutPkt.waits (o : OutPkt) : Bool := !o.sent || o.again

/-- A path's pace and its tenant's egress bucket permit a packet (R252, R316). -/
def State.leaves (s : State) (c : Conn) (i : Nat) : Bool :=
  (match c.paths[i]? with | some x => decide (x.next ≤ s.now) | none => false) && s.peakOk c.tenant 0

def State.modRemote (s : State) (r : Nat) (f : RemoteOp → RemoteOp) : State := s.modReq r fun q => { q with remote := q.remote.map f }

/-- Retries used by the request of a packet, for its header (R255). -/
def State.retriesOf (s : State) (o : OutPkt) : Nat := ((o.req.bind s.req).bind (·.remote)).elim o.pkt.retry (·.retries)

/-- Number of the queue of packets outside the sending spaces. -/
def looseSpace : Nat := 3

/-- Packets of a space, or outside the spaces. -/
def Conn.outsOf (c : Conn) (sp : Nat) : List OutPkt := if sp = looseSpace then c.loose else (c.send sp).outs

/-- Window and credit permit a packet; outside the spaces neither counts. -/
def Conn.permits (c : Conn) (sp psn : Nat) : Bool := sp == looseSpace || c.maySend sp psn

/-- A packet has left: one of a space stays until it is acknowledged. -/
def Conn.left (c : Conn) (sp : Nat) (o y : OutPkt) : Conn :=
  if sp = looseSpace then { c with loose := c.loose.erase o }
  else c.setSend sp { c.send sp with outs := modWhere (·.psn == o.psn) (fun _ => y) (c.send sp).outs }

/-- Send a packet of a space, for the first time or again (R249), where window, credit, a path and the bucket permit. -/
def State.sendOut (s : State) (c : Conn) (sp : Nat) (o : OutPkt) : Option State :=
  if !c.permits sp o.psn then none
  else match s.choosePath c (if o.sent then some o.path else none) with
    | none => none
    | some i =>
      if !s.leaves c i then none
      else
        let (x, s) := if o.sent then let r := s.rebuildEnd c o; (r.1, r.2.count 0x6300 3) else (o, s)
        let p := { x.pkt with retx := o.sent, retry := s.retriesOf o, age := s.ageFor o.req }
        let s := s.sendOn c i p
        let s := match o.req with | some r => s.modRemote r fun x => { x with path := i } | none => s
        some (s.modConn c.num fun c => c.left sp o { x with sent := true, again := false, path := i, pkt := p })

/-- Is the first unsent REQ packet held by LIMIT alone? -/
def Conn.creditHeld (c : Conn) : Bool :=
  match c.sreq.outs.find? fun o => !o.sent with
  | some o => decide (seqDist c.sreq.cum o.psn < sendWindow) && !psnBelow o.psn c.limit
  | none => false

/-- A connection that LIMIT holds asks for credit. -/
def State.askCredit (s : State) (n : Nat) : State :=
  match s.conn n with
  | none => s
  | some c =>
    if c.creditHeld then (if c.asking then s else (s.creditAsk c).modConn n fun c => { c with asking := true })
    else s.modConn n fun c => { c with asking := false }

/-- The packet of a space that leaves next, in PSN order, and the path that it would take. -/
def State.nextOut (s : State) (c : Conn) (sp : Nat) : Option (OutPkt × Nat) :=
  match (c.outsOf sp).find? (·.waits) with
  | none => none
  | some o => if c.permits sp o.psn then (s.choosePath c (if o.sent then some o.path else none)).map fun i => (o, i) else none

/-- A packet that waits for a port's scheduler (R314): its connection, space, path and start tag. -/
structure Waiter where
  conn : Conn
  space : Nat
  pkt : OutPkt
  path : Nat
  port : Nat
  loan : Bool
  start : Rat
  deriving DecidableEq, Repr

/-- The packets that wait for the ports' schedulers, one for each space of each connection. -/
def State.waiters (s : State) : List Waiter :=
  s.fab.conns.flatMap fun c => [0, 1, 2, looseSpace].filterMap fun sp => (s.nextOut c sp).map fun x =>
    let port := (c.paths[x.2]?).elim 0 (·.port)
    let loan := s.connLoan c
    { conn := c, space := sp, pkt := x.1, path := x.2, port := port, loan := loan, start := s.startTag port c.tenant loan }

/-- Tag the flows that have begun to wait at a port, and drop those that no longer do (R315). -/
def State.noteHeads (s : State) : State :=
  { s with fab := { s.fab with heads := (s.waiters.map fun w => (w.port, w.conn.tenant, w.loan, w.start)).dedup } }

/-- First in the lexical order of pairs of a test and its equality. -/
def lexBefore : List (Bool × Bool) → Bool
  | [] => false
  | (less, same) :: xs => less || (same && lexBefore xs)

/-- The order of the choice at a port: start tag, then tenant, then class (R316); within a flow the greatest AGE, then arrival order (R257,
R315). Ports, which are points of their own, are taken in order (DESIGN CHOICE, log 78). -/
def Waiter.before (a b : Waiter) : Bool :=
  lexBefore [(decide (a.port < b.port), a.port == b.port), (decide (a.start < b.start), decide (a.start = b.start)),
    (decide (a.conn.tenant < b.conn.tenant), a.conn.tenant == b.conn.tenant), (!a.loan && b.loan, a.loan == b.loan),
    (decide (b.pkt.age < a.pkt.age), a.pkt.age == b.pkt.age), (decide (a.pkt.arr < b.pkt.arr), a.pkt.arr == b.pkt.arr)]

def bestWaiter : List Waiter → Option Waiter
  | [] => none
  | x :: xs => some (xs.foldl (fun a w => if w.before a then w else a) x)

/-- The ports' schedulers choose (R316): flows whose committed bucket is at least 0 first, then the smallest start tag. -/
def State.chooseWaiter (s : State) : Option Waiter :=
  let elig := s.waiters.filter fun w => s.leaves w.conn w.path
  match bestWaiter (elig.filter fun w => s.committedOk w.conn.tenant 0) with
  | some w => some w
  | none => bestWaiter elig

/-- Send what the schedulers permit, at most `k` packets. -/
def State.drainEgress : Nat → State → State
  | 0, s => s.noteHeads
  | k + 1, s =>
    match s.chooseWaiter with
    | none => s.noteHeads
    | some w =>
      match s.sendOut w.conn w.space w.pkt with
      | none => s
      | some s => State.drainEgress k (if w.space = 0 then s.askCredit w.conn.num else s).noteHeads

/-- Packets that wait to leave. -/
def State.waitingOut (s : State) : Nat :=
  sumOf (fun c : Conn => ((c.sreq.outs ++ c.srsp.outs ++ c.smerge.outs ++ c.loose).filter (·.waits)).length) s.fab.conns

/-- Held packets leave as paths and buckets come to permit (R252, R316). -/
def State.egress (s : State) : State :=
  if s.waitingOut = 0 then { s with fab := { s.fab with heads := [] } } else State.drainEgress s.waitingOut s

/-- The ports' schedulers send what they may; a REQ space that LIMIT holds asks for credit. -/
def State.flush (s : State) (n sp : Nat) : State :=
  let s := s.egress
  if sp ≠ 0 then s else s.askCredit n

/-- Queue a message on a connection and send what may be sent; gives the PSNs of its first and last packet. -/
def State.sendMsg (s : State) (n : Nat) (m : Msg) : Nat × Nat × State :=
  match s.conn n with
  | none => (0, 0, s)
  | some c =>
    let sp := spaceOf m.cls m.type
    let first := (c.send sp).next
    let ps := s.msgPackets c m first
    let s := s.arrive.modConn n fun c => c.setSend sp { c.send sp with
      next := (first + ps.length) % seqMod, outs := (c.send sp).outs ++ ps }
    (first, (first + ps.length + seqMod - 1) % seqMod, s.flush n sp)

/-- A peer that is banked takes no new request (R260). -/
def State.peerBanked (s : State) (c : Conn) : Bool := s.fab.bankedPeers.contains c.peer

/-- Begin the fetch of a context. -/
def State.startFetch (s : State) (n : Nat) : State :=
  match s.conn n with
  | some c => if c.cached ∨ c.fetching then s else (s.modConn n fun c => { c with fetching := true }).count 0x6400 3
  | none => s

/-- Send the message of a request as a new message under the current map, with the same REQ_ID (R253). -/
def State.launch (s : State) (r : Nat) : State :=
  match (s.req r).bind (·.remote) with
  | none => s
  | some o =>
    let ep := match s.conn o.conn with | some c => s.compEpoch c.comp | none => 0
    let (som, last, s) := s.sendMsg o.conn
      { cls := .req, type := if o.merge then 2 else 1, bytes := o.msg, reqId := o.reqId, req := some r, epoch := ep, retry := o.retries,
        hoplim := o.hop }
    s.modRemote r fun x => { x with
      som := som, last := last, got := 0, rspEnd := none, failed := none, held := false, backoff := false, resends := [], epoch := ep }

/-- Send a request's message to the peer of a connection; one whose context is not cached is fetched first (R280). -/
def State.sendRemote (s : State) (c : Conn) (r : Nat) (o : RemoteOp) : State :=
  let s := (s.modReq r fun q => { q with remote := some { o with conn := c.num, held := true, firstIssue := s.now } }).waitReq r .remote
  if c.cached then (s.count 0x6400 2).launch r else s.startFetch c.num

/-- REQ_IDs in use on a connection: of requests that have been sent, and of entries that name it. -/
def State.usedIds (s : State) (n : Nat) : List Nat :=
  s.reqs.filterMap fun q => match q.remote with
    | some o => if o.conn = n then some o.reqId else none
    | none => match q.origin with
      | .queue _ => if usesQp q.entry ∧ hdrQp q.entry = n then some (hdrReqId q.entry) else none
      | .stream _ => if hdrQp q.entry = n then some (hdrReqId q.entry) else none
      | _ => none

/-- A REQ_ID that the node chooses: the highest that is not in use on the connection (R32). -/
def State.freshReqId (s : State) (n : Nat) : Nat :=
  let used := s.usedIds n
  2 ^ 32 - 1 - ((List.range (used.length + 1)).find? fun i => !used.contains (2 ^ 32 - 1 - i)).getD 0

/-- Send an unacknowledged packet again, at once or when its port's scheduler, path and bucket permit (R249). -/
def State.resend (s : State) (n sp psn : Nat) : State :=
  let again := fun o : OutPkt => { o with again := true, since := s.now, age := if o.req.isSome then s.ageFor o.req else o.age, arr := s.fab.nextArr }
  (s.arrive.modConn n fun c => c.setSend sp { c.send sp with
    outs := modWhere (fun o => o.psn == psn && o.sent) again (c.send sp).outs }).egress

/-- Queue a packet outside the sending spaces. -/
def State.sendLoose (s : State) (n : Nat) (o : OutPkt) : State :=
  (s.arrive.modConn n fun c => { c with loose := c.loose ++ [{ o with since := s.now, arr := s.fab.nextArr }] }).egress

/-! ### Receiving (R246) -/

/-- Advance CUM past what has been received. -/
def advanceCum : Nat → Nat → List Nat → Nat × List Nat
  | 0, c, g => (c, g)
  | k + 1, c, g => if c ∈ g then advanceCum k (psnNext c) (g.erase c) else (c, g)

/-- A duplicate of a space. -/
def RecvSpace.isDup (x : RecvSpace) (psn : Nat) : Bool := psnBelow psn x.cum || x.got.contains psn

/-- At or beyond CUM + 512 (DEDUCED, log 27). -/
def RecvSpace.beyond (x : RecvSpace) (psn : Nat) : Bool := decide (sendWindow ≤ seqDist x.cum psn)

/-- Take a packet's PSN into the space. -/
def RecvSpace.take (x : RecvSpace) (p : Packet) (now : Nat) : RecvSpace :=
  let a := advanceCum (x.got.length + 1) x.cum (p.psn :: x.got)
  let fresh := x.unsacked == 0
  { x with cum := a.1, got := a.2, rxPkts := (x.rxPkts + 1) % seqMod, rxCe := (x.rxCe + b2n p.ce) % seqMod, unsacked := x.unsacked + 1,
           echo := if fresh then p.tstamp else x.echo, echoAt := if fresh then now else x.echoAt,
           echoPort := if fresh then p.port else x.echoPort, echoMac := if fresh then p.srcMac else x.echoMac,
           echoIp := if fresh then p.srcIp else x.echoIp, echoUdp := if fresh then p.udp else x.echoUdp }

/-- The packets of the next message, once all are in. -/
def collectMsg (held : List Packet) : Nat → Nat → Option (List Packet)
  | 0, _ => none
  | k + 1, psn =>
    match held.find? (·.psn == psn) with
    | none => none
    | some p => if p.eom then some [p] else (collectMsg held k (psnNext psn)).map (p :: ·)

/-- Place bytes in a buffer. -/
def placeAt (buf : List Byte) (off : Nat) (bs : List Byte) : List Byte :=
  buf.take off ++ bs.take (buf.length - off) ++ buf.drop (off + bs.length)

/-- The payload of a message, each packet's part placed by OFFSET. -/
def assemble (ps : List Packet) : List Byte :=
  ps.foldl (fun buf p => placeAt buf p.offset p.payload) (List.replicate ((ps.head?.map (·.mlen)).getD 0) 0)

/-! ### SACK (R247, R248) -/

/-- LIMIT of the REQ space (R242). -/
def Conn.grant (c : Conn) : Nat := (c.rreq.cum + min sendWindow c.slots) % seqMod

/-- The 64 bitmap bytes. -/
def sackBitmap (x : RecvSpace) : List Byte :=
  (List.range 64).map fun b => BitVec.ofNat 8 (sumOf (fun i =>
    if x.got.contains ((x.cum + 8 * b + i) % seqMod) then 2 ^ (7 - i) else 0) (List.range 8))

def sackPayload (c : Conn) (sp now : Nat) : List Byte :=
  let x := c.recv sp
  [BitVec.ofNat 8 sp, 0, 0, 0] ++ beBytes 4 x.cum ++ sackBitmap x ++ beBytes 4 x.echo ++ beBytes 4 ((now - x.echoAt) % seqMod) ++
  beBytes 4 x.rxPkts ++ beBytes 4 x.rxCe ++ beBytes 4 (if sp = 0 then c.grant else 0) ++ [0, 0, 0, 0]

/-- Remember the LIMIT reported. -/
def Conn.told (c : Conn) (sp : Nat) : Conn := if sp = 0 then { c with limitTold := c.grant } else c

/-- The path by which the packet that prompts a SACK arrived: its port and the sender's port. -/
def Conn.echoPath (c : Conn) (sp : Nat) : Option Nat :=
  let x := c.recv sp
  (c.paths.zipIdx.find? fun y => y.1.port == x.echoPort && if x.echoUdp then y.1.ip == x.echoIp else y.1.mac == x.echoMac).map (·.2)

/-- Send a SACK of a space on the path by which the prompting packet arrived; on another where that is no live path of the set (log 84). -/
def State.sendSack (s : State) (n sp : Nat) : State :=
  match s.conn n with
  | none => s
  | some c =>
    let p := { s.connPacket c .ack 1 with payload := sackPayload c sp s.now }
    let s := match (c.echoPath sp).filter fun i => (c.paths[i]?).any fun x => s.portLive x.port with
      | some i => s.sendOn c i p
      | none => s.sendAck c p
    s.modConn n fun c => (c.setRecv sp { c.recv sp with unsacked := 0 }).told sp

/-- Send a SACK of a space that a packet prompts: TSECHO and DWELL are of that packet, which has just arrived (R247). -/
def State.promptSack (s : State) (n sp : Nat) (p : Packet) : State :=
  (s.modConn n fun c => c.setRecv sp { c.recv sp with
    echo := p.tstamp, echoAt := s.now, echoPort := p.port, echoMac := p.srcMac, echoIp := p.srcIp, echoUdp := p.udp }).sendSack n sp

/-- SACK at once when R248 says so: out of order, ACKNOW, EOM, 8 packets, or a LIMIT risen by 8. -/
def State.maybeSack (s : State) (n sp : Nat) (p : Packet) (inOrder : Bool) : State :=
  match s.conn n with
  | none => s
  | some c =>
    if !inOrder ∨ p.acknow ∨ p.eom ∨ (c.recv sp).unsacked ≥ 8 ∨
       (sp = 0 ∧ psnBelow c.limitTold c.grant ∧ 8 ≤ seqDist c.limitTold c.grant) then s.promptSack n sp p
    else s

/-! ### Completion entries (R270) -/

/-- A completion entry as a number. -/
def cqEntry (time phase : Nat) (notify : Bool) (op st qp user reqId result : Nat) : Nat :=
  time * 2 ^ 192 + b2n notify * 2 ^ 169 + phase * 2 ^ 168 + op * 2 ^ 160 + st * 2 ^ 152 + qp * 2 ^ 128 + user * 2 ^ 96 +
  reqId * 2 ^ 64 + result % 2 ^ 64

end Sys2Proof.Machine
end

