-- ==== Sys2Proof/Machine/Attend.lean ====
section
/-! DEFINITION. Sys2Proof/Machine/Attend.lean: ATTEND: its checks in order (R103, R106), work generation (R107-R112), dispatch
by skip mode (R141-R145), and its end (R113-R117, R120, R123, R127). -/

namespace Sys2Proof.Machine

open Sys2Proof

/-! ### Table and query block -/

def Req.isRemote (q : Req) : Bool := match q.origin with | .remote _ _ => true | _ => false

/-- Bytes of the payload or of tenant memory: `off` in the payload that follows the descriptor, `a` in memory (R102). A payload that is too
short ends the request with RANGE_FAULT (DESIGN CHOICE, log 82). -/
def State.attInput (s : State) (q : Req) (off a len : Nat) : Except Status (List Byte × State) :=
  if q.isRemote && atInline q.entry then
    if off + len ≤ q.inlineData.length then .ok ((q.inlineData.drop off).take len, s) else .error .rangeFault
  else if len = 0 then .ok ([], s)
  else s.loadTenant q.payer a len

/-- Bytes of the query block (R108). -/
def queryBytes (e : BitVec 512) (g : Geom) (rows : List AttRow) : Nat := queryPositions rows * atHq e * vecBytes (atQfmt e) g.d

/-- 8 MiB and 1 MiB limits, and the records of a request (R103). -/
def maxQuery : Nat := 8388608
def maxInline : Nat := 1048576
def maxRecords : Nat := 1048576

/-- The checks of R103 step 1 that need the table. -/
def tableChecks (q : Req) (rows : List AttRow) : List (Bool × Status) :=
  [(decide (maxRecords < positions rows * atHq q.entry), .rangeFault),
   (q.isRemote && atInline q.entry && decide (maxInline < q.inlineData.length), .rangeFault)]

/-- The checks of R103 step 3. -/
def geomChecks (e : BitVec 512) (g : Geom) (rows : List AttRow) : List (Bool × Status) :=
  [(atHq e == 0 || decide (1024 < atHq e) || (!g.latent && decide (atHq e % max 1 g.hkv ≠ 0)), .rangeFault), (decide (g.layers ≤ atLayer e), .rangeFault),
   (decide (maxQuery < queryBytes e g rows), .rangeFault)]

/-! ### Row checks (R106) -/

/-- A row is at fault. -/
def State.rowFault (s : State) (r i : Nat) (st : Status) : State := (s.modReq r fun q => { q with row := some i }).endReq r st

/-- Checks 3 to 5 of a row; an NQ above 65,536 is judged with check 5 (DESIGN CHOICE, log 88). -/
def rowChecks (e : BitVec 512) (g : Geom) (x : Seq) (r : AttRow) : List (Bool × Status) :=
  let fill := x.fill (atLayer e)
  let c := (r.resolve fill).ctx
  [(x.geom != g.id, .rangeFault), (r.ctx != ctxFill && decide (fill < r.ctx), .rangeFault),
   (decide (2 ^ 32 < r.q0 + r.nq) || decide (2 ^ 32 < r.cpos + c) || (atPb e && decide (r.pbEnd < r.pbStart)) || decide (65536 < r.nq),
    .rangeFault)]

/-- The state that R68 leaves when a row's sequence does not let in the ATTEND, the row noted for R127. -/
def State.notAdmitted (s : State) (r i : Nat) : State := s.modReq r fun q => { q with row := some i }

/-- Pages of LAYER that hold slots below CTX. -/
def ctxPages (layer ctx : Nat) : List (Nat × Nat) := (List.range (ceilDiv ctx 256)).map fun p => (layer, p)

/-- Check the rows in order; the plans of all rows, or the state in which the request ends or waits. -/
def State.checkRows (s : State) (q : Req) (g : Geom) (i base : Nat) : List AttRow → Except State (List RowPlan)
  | [] => .ok []
  | r :: rs =>
    let e := q.entry
    match s.findSeq q.tenant r.handle q.accepted with
    | none => .error (s.rowFault q.id i .keyFault)
    | some x =>
      if s.descLost x then .error (s.rowFault q.id i .internal)
      else match s.letIn q x (atWait e) with
        | some s => .error (s.notAdmitted q.id i)
        | none =>
          match firstFail (rowChecks e g x r) with
          | some st => .error (s.rowFault q.id i st)
          | none =>
            let row := r.resolve (x.fill (atLayer e))
            let ps := ctxPages (atLayer e) row.ctx
            if (s.pagesFail x ps).isSome then .error (((s.pagesFail x ps).elim s (s.countWalk x.tenant)).rowFault q.id i .internal)
            else if s.swappedNeeded x ps then .error ((s.waitReq q.id (.restore x.idx)).notAdmitted q.id i)
            else
              let frames := ps.filterMap fun lp => (s.pageFrame x lp.1 lp.2).map (·.num)
              (s.checkRows q g (i + 1) (base + r.nq) rs).map ({ row := row, seq := x, base := base, frames := frames } :: ·)

/-! ### Work generation -/

/-- Walk and heat the pages that a request's blocks read (R95, R196). -/
def State.walkBlocks (s : State) (q : Req) (bs : List Block) : State :=
  let fs := (bs.map (·.frame)).dedup
  let s := fs.foldl (fun s n => s.heatFrame q.tenant n) s
  s.modMem fun m => { m with walks := m.walks ++ fs.map fun n => ⟨q.id, q.tenant, n, m.walkEpoch⟩ }

/-- Generate work and dispatch it: all blocks at once, but the follow blocks of bounded mode (R143). -/
def State.generate (s : State) (q : Req) (g : Geom) (ps : List RowPlan) (blk : List Byte) : State :=
  let e := q.entry
  let (recs, s) := s.allRecs e g blk (recordKeys (atHq e) ps)
  let recs := if atSkip e = 2 then recs.map fun r => r.cut (atBudget e) else recs
  let bs := planBlocks e recs (allBlocks s.placeOf e g 0 ps)
  let now := bs.filter fun b => !b.follow
  let a : AttWork := { geom := g, seqs := (ps.map (·.seq.idx)).dedup, recs := recs, held := bs.filter (·.follow), busy := now,
                       leadLeft := (now.filter (·.lead)).map (·.id), nextId := bs.length,
                       tables := ps.flatMap fun p => (rowGroups e g p).map (tableOf e g p blk) }
  let s := s.modReq q.id fun q => { q with att := some a, row := none, phase := .waiting .work, accepted := true, handles := ps.map (·.row.handle), finalDue := atDest e == 1 }
  (s.walkBlocks q bs).dispatchBlocks q now

def execAttend (r : Nat) (s : State) : Host.Outcome State Fault Refusal :=
  .next <| s.runReq r [opATTEND] fun q s =>
    if q.att.isSome then s else
    let e := q.entry
    let s := s.modReq r fun q => { q with row := none }
    s.checked r (attendChecks e q.isRemote) fun s =>
    match s.attInput q 0 (atTable e) (32 * atRows e) with
    | .error st => s.endRead q (atTable e) (32 * atRows e) st
    | .ok (tb, s) =>
      let rows := rowsOf (atRows e) tb
      s.checked r (tableChecks q rows) fun s =>
      match (rows.head?).bind fun x => s.findSeq q.tenant x.handle q.accepted with
      | none => s.rowFault r 0 .keyFault
      | some x =>
        if s.descLost x then s.rowFault r 0 .internal else
        match s.geom x.tenant x.geom with
        | none => s.rowFault r 0 .internal
        | some g =>
          s.checked r (geomChecks e g rows) fun s =>
          match s.attInput q (32 * atRows e) (atQuery e) (queryBytes e g rows) with
          | .error st => s.endRead q (atQuery e) (queryBytes e g rows) st
          | .ok (blk, s) =>
            match s.checkRows q g 0 0 rows with
            | .error s => s.modReq r fun q => { q with handles := rows.map (·.handle) }
            | .ok ps => s.generate q g ps blk

/-! ### The end of an ATTEND (R113-R117, R120) -/

/-- Does a record report skipped pages? -/
def Record.skipped (x : Record) : Bool := decide (0 < x.pagesSkipped)

/-- Fields of RESULT_ADDR when DEST is 01 (R104). -/
def atMnode (e : BitVec 512) : Nat := bits (atResult e) 63 52
def atMergeId (e : BitVec 512) : Nat := bits (atResult e) 51 36
def atContrib (e : BitVec 512) : Nat := bits (atResult e) 35 20
def atRbase (e : BitVec 512) : Nat := bits (atResult e) 19 0

/-- A connection of a tenant and composition to a node (R123, DESIGN CHOICE, log 23). -/
def State.connTo (s : State) (tenant comp node : Nat) : Option Conn :=
  s.fab.conns.find? fun c => c.tenant == tenant && c.comp == comp && c.peer == node && c.state == .opened

/-- Send a contribution's message to the merging node; the request waits until it is answered (R123). With no open connection to that node
it ends with KEY_FAULT (DESIGN CHOICE, log 82); to a banked one it ends with BUSY_RETRY (R260). -/
def State.sendContribution (s : State) (q : Req) (node : Nat) (m : ContribMsg) (own : Status × Nat) : State :=
  match s.connTo q.tenant q.comp node with
  | none => s.endReq q.id (if own.1 = .ok ∨ own.1 = .partialSkipped then .keyFault else own.1) own.2
  | some c =>
    if s.peerBanked c then s.endReq q.id (if own.1 = .ok ∨ own.1 = .partialSkipped then .busyRetry else own.1) own.2
    else s.sendRemote c q.id { conn := c.num, reqId := s.freshReqId c.num, msg := m.bytes, merge := true, own := own }

/-- Deliver a contribution: to this node's context, or to the merging node. -/
def State.deliverContribution (s : State) (q : Req) (m : ContribMsg) (own : Status × Nat) : State :=
  let s := s.modReq q.id fun q => { q with finalDue := false }
  if atMnode q.entry = s.nodeId then
    match s.contribute q.tenant (none, q.id) m with
    | .ok s => s.endReq q.id own.1 own.2
    | .error st => s.endReq q.id (if own.1 = .ok ∨ own.1 = .partialSkipped then st else own.1) own.2
  else s.sendContribution q (atMnode q.entry) m own

/-- A contribution whose request has failed: its final message alone (R123). -/
def State.failContribution (s : State) (q : Req) (st : Status) (result dv : Nat) : State :=
  s.deliverContribution q
    { id := atMergeId q.entry, contrib := atContrib q.entry, rbase := atRbase q.entry, dv := dv, recs := [], final := true, status := st,
      blocks := match q.att with | some a => a.readIds.length | none => 0 }
    (st, result)

/-- Write, return or contribute the records of a request. -/
def State.attendDone (s : State) (q : Req) (a : AttWork) : State :=
  let e := q.entry
  let dv := a.geom.dvOut
  let (ps, s) := s.sendPartials dv a.recs a.partials
  let bf := decide (atDest e = 0 ∧ atOfmt e = 1 ∧ !atNormalise e)
  let recs := a.recs.map fun r => r.finish dv bf (mergePartials dv r.k ps)
  let skipped := (recs.filter Record.skipped).length
  let st : Status := if skipped = 0 then .ok else .partialSkipped
  let result := a.readIds.length + skipped * 2 ^ 32
  let s := s.countNanRec q.tenant (recs.filter fun x => F32.isNan x.m).length
  let s := a.seqs.foldl (fun s i => s.modSeq i fun x => { x with lastAtt := s.clk.ltime }) s
  let s := s.endWalks q.id
  if atDest e = 1 then
    s.deliverContribution q
      { id := atMergeId e, contrib := atContrib e, rbase := atRbase e, dv := dv, recs := recs, final := true, status := st,
        blocks := a.readIds.length } (st, result)
  else
    let bs := recs.flatMap fun x => x.bytes (atOfmt e) (atCounts e) (atNormalise e)
    if q.isRemote then (s.modReq q.id fun q => { q with reply := bs }).endReq q.id st result
    else match s.writeTenant q.payer (atResult e) bs with
      | .done s => s.endReq q.id st result
      | .bad x s => (if blurs x then s.mix q.payer (atResult e) bs else s.blur q.payer (atResult e) bs.length).endReq q.id x
      | .noSectors =>
        match s.reqRoom q 7 none false with
        | some s => s
        | none => s.abandon q.id .capacity

def execCrucibleMergeDone (r : Nat) (s : State) : Host.Outcome State Fault Refusal :=
  .next <|
    match s.req r with
    | none => s
    | some q =>
      match q.att with
      | none => s
      | some a =>
        if a.busy.isEmpty && a.held.isEmpty && q.phase == .waiting .work && s.coreRuns then s.attendDone q a else s

end Sys2Proof.Machine
end

