-- ==== Sys2Proof/Machine/Touchstones.lean ====
section
/-! DEFINITION. Sys2Proof/Machine/Touchstones.lean: TS_REBUILD, TS_READ and the rebuild after an error (R136-R138, R150). -/

namespace Sys2Proof.Machine

open Sys2Proof

/-! ### TS_REBUILD (R137) -/

/-- Rebuild the unshared pages of a list; counts (rebuilt, left unchanged). A page whose slots cannot be read is left and counted (DESIGN CHOICE,
log 88). -/
def State.rebuildPages (s : State) (j : Job) (x : Seq) (g : Geom) : List (Nat × Nat) → Nat → Nat → State × Nat × Nat
  | [], a, b => (s, a, b)
  | (l, p) :: rest, a, b =>
    match s.pageFrame x l p with
    | none => s.rebuildPages j x g rest a b
    | some f =>
      if s.sharers f.num > 1 ∨ f.place.isSwap then s.rebuildPages j x g rest a (b + 1)
      else
        let (ok, s) := s.rebuildFor j g l f.num (min 256 (x.fill l - 256 * p))
        s.rebuildPages j x g rest (a + b2n ok) (b + b2n (!ok))

def execTsRebuild (r : Nat) (s : State) : Host.Outcome State Fault Refusal :=
  .next <| s.runReq r [opTS_REBUILD] fun q s =>
    s.onSeq q (opHandle q.entry) fun x =>
    match s.geom x.tenant x.geom with
    | none => s.endReq r .internal
    | some g =>
      s.checked r [(layersBad (apLfirst q.entry) (apLcount q.entry) g.layers, .rangeFault)] fun s =>
      match s.letIn q x false with
      | some s => s
      | none =>
        s.turn q x.handle fun s =>
        let ps := (layerRun (apLfirst q.entry) (apLcount q.entry) g.layers).flatMap x.pagesOf
        s.withPages q x ps fun s =>
        if s.swappedNeeded x ps then s.waitReq r (.restore x.idx)
        else
          let (s, a, b) := s.rebuildPages q.job x g ps 0 0
          s.okReq q (a + b * 2 ^ 32)

/-! ### TS_READ (R138) -/

def execTsRead (r : Nat) (s : State) : Host.Outcome State Fault Refusal :=
  .next <| s.runReq r [opTS_READ] fun q s =>
    let n := trCount q.entry
    s.checked r [(decide (trDest q.entry % 64 ≠ 0) || n == 0 || decide (65536 < n), .rangeFault)] fun s =>
    s.onSeq q (opHandle q.entry) fun x =>
    match s.geom x.tenant x.geom with
    | none => s.endReq r .internal
    | some g =>
      s.checked r [(decide (g.layers ≤ trLayer q.entry) || decide (x.pmax < trFirst q.entry + n), .rangeFault)] fun s =>
      match s.letIn q x false with
      | some s => s
      | none =>
        s.withPages q x ((List.range n).map fun i => (trLayer q.entry, trFirst q.entry + i)) fun s =>
        let out := (List.range n).flatMap fun i => s.touchOut x g (trLayer q.entry) (trFirst q.entry + i)
        s.store q (trDest q.entry) out fun s => s.okReq q n

/-! ### The rebuild after an error (R150) -/

/-- The geometry and layer under which a frame's slots are read: those of its first mapping (DESIGN CHOICE, log 88). -/
def State.pageGeom (s : State) (n : Nat) : Option (Geom × Nat) :=
  match s.frameUsers n with
  | [] => none
  | (q, l, _) :: _ => (s.geom q.tenant q.geom).map fun g => (g, l)

/-- Move another block out of a granule (R150): a new place, the old one quarantined, the word switched. -/
def State.moveBlock (s : State) (n : Nat) : State :=
  match s.frame n with
  | none => s
  | some f =>
    match f.touch with
    | none => s
    | some t =>
      match s.placeBlock f.tenant f.home t.block.size with
      | none => s
      | some (b, s) => (s.quarantine f.tenant (.block t.block)).modFrame n fun f => { f with touch := some { t with block := b } }

/-- Does a frame's block lie in a granule of a channel? -/
def Frame.blockAt (f : Frame) (ch gr : Nat) : Bool :=
  match f.touch with
  | some t => t.block.channel == ch && decide (t.block.granule ≤ gr) &&
      decide (gr < t.block.granule + (if t.block.size ≤ granule then 1 else blockSpan t.block.size / granule))
  | none => false

/-- Rebuild a frame's block in a new location after an error in it or in its word. -/
def State.errorRebuild (s : State) (n : Nat) : State :=
  match s.pageGeom n with
  | some (g, l) => (s.rebuildFor (nodeJob (((s.frame n).map (·.tenant)).getD 0)) g l n (s.coverOf n)).2
  | none => s

/-- The rebuild of R150. Of a word the failed copy's storage is retired, as R428 gives for metadata; which granule of a block above 16 KiB
failed is a free value. -/
def execTouchstoneErrorRebuild (frame : Nat) (inWord : Bool) (s : State) : Host.Outcome State Fault Refusal :=
  .next <|
    match s.frame frame with
    | none => s
    | some f =>
      match f.touch with
      | none => s
      | some t =>
        let s := if t.bad then s else s.count 0x6000 0x21
        let s := s.modFrame frame fun f => { f with touch := f.touch.map fun t => { t with bad := true } }
        if inWord then
          let (ps, s) := (s.errorRebuild frame).drawMirrors
          ps.take 1 |>.foldl (fun s p => s.retireFree p.1 p.2.1 p.2.2 0) s
        else
          let ch := t.block.channel
          let (i, s) := if t.block.size ≤ granule then (0, s) else s.draw (blockSpan t.block.size / granule)
          let gr := t.block.granule + i
          let others := s.mem.frames.filter fun f => f.num != frame && f.blockAt ch gr
          let s := (s.retireGranule ch gr)
          let s := others.foldl (fun s f => s.moveBlock f.num) (s.errorRebuild frame)
          s.retireRecord { time := s.clk.ltime, cause := 0, tier := 0, tenant := f.tenant, unit := ch, lines := 0, location := gr,
                           frame := frame, address := 0 }

end Sys2Proof.Machine
end

