-- ==== Sys2Proof/Machine/Connections.lean ====
section
/-! DEFINITION. Sys2Proof/Machine/Connections.lean: completion queues and notifications (R267, R270-R272), receiving a packet up
to its connection (R239, R260), and the connection state machine (R243, R244, R276, R277, R298). -/

namespace Sys2Proof.Machine

open Sys2Proof

/-! ### Queues -/

def State.wq (s : State) (n : Nat) : Option Wq := s.wqs.find? (·.num == n)
def State.modWq (s : State) (n : Nat) (f : Wq → Wq) : State := { s with wqs := modWhere (·.num == n) f s.wqs }
def State.cq (s : State) (n : Nat) : Option Cq := s.cqs.find? (·.num == n)
def State.modCq (s : State) (n : Nat) (f : Cq → Cq) : State := { s with cqs := modWhere (·.num == n) f s.cqs }

/-- Slots that the host has not freed. -/
def Cq.used (c : Cq) : Nat := (c.written + seqMod - c.ci.toNat) % seqMod

/-- The queue has `k` free slots beside those reserved (R267, R272). -/
def Cq.hasFree (c : Cq) (k : Nat) : Bool := decide (c.used + c.reserved + k ≤ 2 ^ c.log2)

def State.cqHasFree (s : State) (n k : Nat) : Bool := match s.cq n with | some c => c.hasFree k | none => false

def State.reserveCq (s : State) (n k : Nat) : State := s.modCq n fun c => { c with reserved := c.reserved + k }
def State.releaseCq (s : State) (n k : Nat) : State := s.modCq n fun c => { c with reserved := c.reserved - k }

/-- Write a completion entry: TIME is this node's reading, PHASE is 1 on the first pass of the ring (R270). -/
def State.writeCqe (s : State) (n : Nat) (notify : Bool) (op st qp user reqId result : Nat) : State :=
  match s.cq n with
  | none => s
  | some c =>
    let e := cqEntry s.now (1 - c.written / 2 ^ c.log2 % 2) notify op st qp user reqId result
    (s.emit (.completion n (c.written % 2 ^ c.log2) (BitVec.ofNat 256 e))).modCq n fun c => { c with written := c.written + 1 }

/-- Raise the event of a completion queue (R363). -/
def State.raiseCq (s : State) (n : Nat) : State := match s.cq n with | some c => s.raise c.event | none => s

/-- Write a notification into a slot that was reserved for it (R271, R272). -/
def State.notifyReserved (s : State) (n op : Nat) (st : Status) (qp user reqId result : Nat) : State :=
  ((s.writeCqe n true op st.code qp user reqId result).releaseCq n 1).raiseCq n

/-- DMA of a logical device is permitted (R454) (DEDUCED, log 32). -/
def State.dmaOk (s : State) (ld : Nat) : Bool := (s.ld ld).busMaster

/-! ### Maps and paths (R251, R321) -/

def CompMap.node (m : CompMap) (n : Nat) : Option MapNode := m.nodes.find? (·.node == n)

/-- The directly reached member through which a member is reached: within 8 relays (R322). -/
def CompMap.via (m : CompMap) : Nat → Nat → Option MapNode
  | 0, _ => none
  | k + 1, n =>
    match m.node n with
    | none => none
    | some e => if e.nextHop = 0xFFFF then some e else m.via k e.nextHop

def maxRelays : Nat := 8

/-- Does a composition grant its tenant a route to a node (R244, R276)? -/
def Comp.routeTo (c : Comp) (n : Nat) : Bool :=
  match c.map with
  | some m => match m.via (maxRelays + 1) n with | some e => !e.paths.isEmpty | none => false
  | none => false

/-- Mbit/s of a port's lanes in use (R229) (DEDUCED, log 31). -/
def State.portRate (s : State) (p : Nat) : Nat := 200000 * (s.port p).width

/-- Path set of a connection: the paths to the peer over the ports of its home die (R251, R275). -/
def State.buildPaths (s : State) (slot num peer : Nat) : List Path :=
  match ((s.comp slot).bind (·.map)).bind fun m => m.via (maxRelays + 1) peer with
  | some e => (e.paths.filter fun p => p.port / 4 == s.homeDie num).map fun p =>
      { port := p.port, mac := p.mac, ip := p.ip, rate := s.ccInit }
  | none => []

/-- Mbit/s of the slower port of a path (R251); the peer's is not told (DESIGN CHOICE, log 83). -/
def State.pathTop (s : State) (x : Path) : Nat := min (s.portRate x.port) (Config.peerRate x.mac)

/-- The maps of a composition hold the packet's source address for its source node. -/
def Comp.holdsSource (c : Comp) (p : Packet) : Bool :=
  (c.map.toList ++ c.oldMap.toList).any fun m =>
    match m.node p.src with
    | some e => e.paths.any fun x => if p.udp then x.ip == p.srcIp else x.mac == p.srcMac
    | none => false

/-- Source addresses that the maps of this node hold for a node (R239 step 5). -/
def State.sourceOk (s : State) (p : Packet) : Bool := s.comps.any (·.holdsSource p)

/-- The source check of a VOP frame: a managing node is a member of a composition of tenant 0 (R382). -/
def State.managerOk (s : State) (p : Packet) : Bool := s.comps.any fun c => c.tenant == 0 && c.holdsSource p

/-! ### Receiving (R239) -/

/-- Payload bytes that no packet exceeds (R236). -/
def maxPayload : Nat := 4096

/-- EtherType and, in UDP framing, the UDP port are those of Pyvas (R239 step 2). -/
def State.forPyvas (s : State) (p : Packet) : Bool :=
  if p.udp then p.etherType == 0x86DD && p.dport == s.scalar 0x3210 3 else p.etherType == 0x88B6

/-- Steps 1 to 3 of R239 fail. -/
def State.badFormat (s : State) (p : Packet) : Bool :=
  !p.frameOk || p.fecLost != 0 || !s.forPyvas p || p.ver != 1 || !p.typeOk || decide (maxPayload < p.len) || !p.lenOk || p.icrc != p.crc ||
  (p.udp && (p.extHdr || (s.octets (0x3200 + p.port) 4 0 16).all (· == 0)))

/-- Note what a packet says of its sender (R260). -/
def State.hear (s : State) (p : Packet) : State :=
  let l := s.fab.bankedPeers
  { s with fab := { s.fab with bankedPeers := if p.banked then insertNew p.src l else l.erase p.src } }

/-- What the port counts of a frame that arrives (R232), and of CE (R262). -/
def State.arrived (s : State) (p : Packet) : State :=
  let s := if p.fecFixed = 0 then s else s.count (0x3200 + p.port) 5 p.fecFixed
  let s := if p.fecLost = 0 then s else s.count (0x3200 + p.port) 6 p.fecLost
  if p.ce then s.count 0x6300 0xB else s

/-- What the node notes of a packet that passes steps 1 to 5 of R239. -/
def State.heard (s : State) (p : Packet) : State := (s.arrived p).hear p

/-- Steps 1 to 5 of R239 for a packet of one class and type; a packet of another listed type is not this row's (DESIGN CHOICE, log 5).
An ACK or MGT packet that finds its pool full is dropped (R240; after step 5: DESIGN CHOICE, log 84). -/
def State.receive (s : State) (p : Packet) (cls : PClass) (type : Nat) (go : State → State) : State :=
  if !s.node.powered then s
  else if s.rehearses rehPeer p.src then s.count 0x6000 0x32
  else if s.badFormat p then (s.arrived p).count 0x6300 6
  else if p.cls ≠ cls ∨ p.type ≠ type then s
  else if p.dst ≠ s.nodeId ∨ !s.sourceOk p then (s.arrived p).count 0x6300 7
  else if p.crowded ∧ !p.carries then (s.heard p).count 0x6300 9
  else go (s.heard p)

/-- A packet was taken. -/
def State.accepted (s : State) : State := s.count 0x6300 2

/-- Put a packet on the wire to where another came from. -/
def State.replyTo (s : State) (p r : Packet) (m : Marks := s.marks) : State := s.transmit r p.port p.srcMac p.srcIp m

/-- CONN_RESET names the connection by the number under which this node receives (R238); this one answers for no connection of this node. -/
def connReset (peer tenant num : Nat) : Packet := { cls := .mgt, type := 5, dst := peer, tenant := tenant, conn := num }

/-- CONN_RESET of a connection. -/
def State.resetPacket (s : State) (c : Conn) : Packet := { s.connPacket c .mgt 5 with conn := c.num }

/-- One answer in this time (R239). -/
def resetSpan : Nat := 1000000

/-- Step 6 for a connection that does not exist here (DEDUCED, log 25). -/
def State.unknownConn (s : State) (p : Packet) : State :=
  let s := s.count 0x6300 8
  let mine := fun x : Nat × Nat × Nat => x.1 == p.src && x.2.1 == p.conn
  if s.fab.resetsSent.any fun x => mine x && decide (s.now < x.2.2 + resetSpan) then s
  else
    let l := (p.src, p.conn, s.now) :: dropWhere mine s.fab.resetsSent
    ({ s with fab := { s.fab with resetsSent := l } }).replyTo p (connReset p.src p.tenant p.conn)

/-- Step 6 for a connection in RESET. -/
def State.inReset (s : State) (c : Conn) (p : Packet) : State :=
  let s := s.count 0x6300 8
  if c.resetAt.any fun t => decide (s.now < t + resetSpan) then s
  else (s.modConn c.num fun c => { c with resetAt := some s.now }).replyTo p (s.resetPacket c) c.marks

/-- A path by which the maps reach a node over a port that is live or banked: port, address, composition. -/
def State.pathTo (s : State) (n : Nat) : Option (Nat × BitVec 48 × BitVec 128 × Nat) :=
  s.comps.findSome? fun c => c.map.bind fun m => (m.via (maxRelays + 1) n).bind fun e =>
    (e.paths.find? fun x => s.portLive x.port || s.portStatus x.port == .banked).map fun x => (x.port, x.mac, x.ip, c.slot)

/-- Send an MGT datagram to a node; one that no path reaches is not sent (DESIGN CHOICE, log 84). -/
def State.sendMgt (s : State) (n type : Nat) (bs : List Byte) : State :=
  match s.pathTo n with
  | some x =>
    s.transmit { cls := .mgt, type := type, dst := n, comp := s.compId x.2.2.2, epoch := s.compEpoch x.2.2.2, payload := bs }
      x.1 x.2.1 x.2.2.1 s.marks
  | none => s

/-! ### Context cache (R278-R281) -/

/-- Contexts cached by one die. -/
def dieContexts : Nat := 32768

def State.cachedOn (s : State) (die : Nat) : Nat := (s.fab.conns.filter fun c => c.cached && s.homeDie c.num == die).length

/-- The connection whose engine a request occupies: a request of a queue from its start on. -/
def Req.onConn (q : Req) : Option Nat :=
  match q.remote with
  | some o => some o.conn
  | none => match q.origin with
    | .queue _ => if !q.isLocal then some (hdrQp q.entry) else none
    | .window _ => some (hdrQp q.entry)
    | _ => none

/-- Requests outstanding on a connection, in either direction. -/
def State.outstandingOn (s : State) (n : Nat) : List Req :=
  s.reqs.filter fun q => (q.live && q.onConn == some n) || (match q.origin with | .remote c _ => c == n | _ => false)

/-- A window access has its engine slot on a connection and no request yet. -/
def State.windowOn (s : State) (n : Nat) : Bool := s.fab.winOps.any fun o => o.taken && o.req.isNone && o.qp == n

/-- A busy context (R279). -/
def State.busyContext (s : State) (c : Conn) : Bool :=
  !(c.sreq.outs.isEmpty && c.srsp.outs.isEmpty && c.smerge.outs.isEmpty) || !(s.outstandingOn c.num).isEmpty ||
  s.windowOn c.num || s.fab.missBuf.any (fun p => p.conn == c.num) || c.fetching

/-- The least recently used context of a die that is not busy. -/
def State.evictable (s : State) (die : Nat) : Option Conn :=
  (s.fab.conns.filter fun c => c.cached && s.homeDie c.num == die && !s.busyContext c).foldl (fun best c => match best with
    | none => some c
    | some b => if c.lastUse < b.lastUse then some c else some b) none

/-- Write a context back to the area. -/
def State.writeBack (s : State) (c : Conn) : State :=
  (s.modConn c.num fun c => { c with cached := false }).count 0x6400 4

/-- Room for one more context on a die: the state with room made, or none when every context is busy. -/
def State.contextRoom (s : State) (die : Nat) : Option State :=
  if s.cachedOn die < dieContexts then some s else (s.evictable die).map s.writeBack

/-- Entries of a port's miss buffer. -/
def missEntries : Nat := 256

/-- A miss reply (R281); it leaves as the path and the bucket permit. -/
def State.missReply (s : State) (c : Conn) (p : Packet) : State :=
  let e := leBytes 32 (cqEntry 0 0 false 0 Status.busyRetry.code 0 0 p.reqId 0)
  let r := { s.connPacket c .rsp 2 with reqId := p.reqId, psn := p.psn, offset := 0xFFFFFFFF, payload := e, mlen := 32, epoch := p.epoch }
  (s.sendLoose c.num { psn := p.psn, req := none, path := 0, age := p.age, pkt := r }).count 0x6400 5

/-- A packet whose context is not cached (R280, R281). -/
def State.miss (s : State) (c : Conn) (p : Packet) : State :=
  if (s.fab.missBuf.filter (·.port == p.port)).length < missEntries then
    ({ s with fab := { s.fab with missBuf := s.fab.missBuf ++ [p] } }).startFetch c.num
  else if p.cls = .req then s.missReply c p
  else s.count 0x6300 8

/-- Is the node taking requests (R450, R451)? -/
def State.takesReq (s : State) : Bool := s.node.phase == .running

/-- Does it take responses and acknowledgements? -/
def State.takesRsp (s : State) : Bool := s.coreRuns

/-- Does it take a packet of a connection's class? A banked node drops them before any answer (R231, R260). -/
def State.takes (s : State) (p : Packet) : Bool := if p.cls == .req then s.takesReq else s.takesRsp

/-- Step 6 of R239, then the rules of the class (DESIGN CHOICE, log 26). -/
def State.onConn (s : State) (p : Packet) (go : Conn → State → State) : State :=
  if !s.takes p then s else
  match s.conn p.conn with
  | none => s.unknownConn p
  | some c =>
    if c.peer ≠ p.src ∨ c.tenant ≠ p.tenant then s.unknownConn p
    else match c.state with
      | .reset => s.inReset c p
      | .setupSent => s.count 0x6300 8
      | _ =>
        if !c.cached then s.miss c p
        else go c ((s.count 0x6400 2).modConn c.num fun c => { c with lastUse := s.now })

/-! ### Ending requests that went to a peer -/

/-- What a request that went to a peer ends with: a contribution keeps its own status unless that was good (R123), and a byte
that could not be placed decides a good one (R91). -/
def RemoteOp.outcome (o : RemoteOp) (st : Status) (result : Nat) : Status × Nat :=
  let good := fun x : Status => x == .ok || x == .partialSkipped
  if o.merge then (if good st || !good o.own.1 then o.own else (st, o.own.2))
  else match o.failed with
    | some f => if good st then (f, 0) else (st, result)
    | none => (st, result)

/-- End a request that went to a peer (DEDUCED, log 28). -/
def State.remoteEnd (s : State) (q : Req) (st : Status) (result : Nat := 0) : State :=
  match q.remote with
  | some o => let x := o.outcome st result; s.endReq q.id x.1 x.2
  | none => s.endReq q.id st result

/-- Was any packet of a request sent? -/
def Conn.anySent (c : Conn) (q : Req) : Bool :=
  let o := q.remote
  let mine := (c.sreq.outs ++ c.smerge.outs).filter fun x => x.req == some q.id
  match o with
  | some r => !r.held && (mine.any (·.sent) || decide (mine.length < seqDist r.som r.last + 1))
  | none => false

/-- End a request at the RESET of its connection (R255, R298) (DEDUCED, log 29). -/
def State.resetReq (s : State) (c : Conn) (q : Req) : State :=
  if isAtomic q.op then
    if c.anySent q then (s.count 0x6400 9).remoteEnd q .indeterminate else s.remoteEnd q .timeout
  else s.remoteEnd q .timeout

/-- Requests of this node outstanding on a connection, their packets sent or not. -/
def State.sentOn (s : State) (n : Nat) : List Req := s.reqs.filter fun q => q.live && q.onConn == some n

/-! ### Credit (R242) -/

/-- REQ slots of a die's pool. -/
def dieSlots : Nat := 4096

/-- Slots that a connection has been assigned or occupies: a packet at or beyond CUM lies in a slot that was assigned for it. -/
def Conn.slotsUsed (c : Conn) : Nat := c.slots + (c.rreq.held.filter fun p => psnBelow p.psn c.rreq.cum).length

/-- Slots of a die that are assigned or occupied. -/
def State.usedSlots (s : State) (die : Nat) : Nat :=
  sumOf Conn.slotsUsed
    (s.fab.conns.filter fun c => s.homeDie c.num == die && (c.state == .opened || c.state == .draining || c.state == .setupSent))

/-- Slots of a die that are neither assigned nor occupied. -/
def State.freeSlots (s : State) (die : Nat) : Nat := dieSlots - s.usedSlots die

/-- No more slots stay assigned than the pool has free (R242): what a connection's waiting packets occupy comes off its assignment. -/
def State.trimSlots (s : State) (n : Nat) : State :=
  s.modConn n fun c => { c with slots := c.slots - (s.usedSlots (s.homeDie n) - dieSlots) }

/-- Assign slots to the asking connections of a die, oldest AGE first; each learns its new LIMIT by a SACK. -/
def State.serveAsks (s : State) : List (Nat × Nat × Nat) → State
  | [] => s
  | (n, want, age) :: as =>
    let s := s.serveAsks as
    match s.conn n with
    | none => { s with fab := { s.fab with asks := dropWhere (·.1 == n) s.fab.asks } }
    | some c =>
      let k := min (min want (sendWindow - c.slots)) (s.freeSlots (s.homeDie n))
      if k = 0 then s
      else
        let rest := want - k
        let l := dropWhere (·.1 == n) s.fab.asks
        let s := { s with fab := { s.fab with asks := if rest = 0 then l else (n, rest, age) :: l } }
        (s.modConn n fun c => { c with slots := c.slots + k }).sendSack n 0

/-- Serve the asking connections; `serveAsks` takes the last of its list first. -/
def State.assignSlots (s : State) : State :=
  s.serveAsks (s.fab.asks.mergeSort fun a b => decide (a.2.2 ≤ b.2.2))

/-! ### Leaving OPEN (R243) -/

/-- A connection's ledger frame is freed (R296). -/
def State.freeLedger (s : State) (c : Conn) : State :=
  match c.ledger with
  | some l => (s.releaseFrame l.frame).modConn c.num fun c => { c with ledger := none }
  | none => s

/-- DISCONNECT requests that wait for a connection end (R277). -/
def State.endDisconnects (s : State) (n : Nat) (st : Status) : State :=
  { s with reqs := modWhere (fun q => q.phase == .waiting (.disconnect n)) (fun q => { q with phase := .ended st 0 }) s.reqs }

/-- Remove a connection; its number rests for 100 ms (R243). -/
def State.removeConn (s : State) (c : Conn) : State :=
  { s with fab := { s.fab with conns := dropWhere (·.num == c.num) s.fab.conns, resting := ⟨c.num, c.peer, s.connPacket c .mgt 4, c.marks⟩ :: s.fab.resting,
                               asks := dropWhere (·.1 == c.num) s.fab.asks, missBuf := dropWhere (·.conn == c.num) s.fab.missBuf,
                               compAcks := dropWhere (·.1 == c.num) s.fab.compAcks } }

/-- The queue pair reaches CLOSED: its notification is written into the slot reserved for it (R271). -/
def State.closeConn (s : State) (c : Conn) (st : Status) : State :=
  ((((s.freeLedger c).notifyReserved c.rcq opDISCONNECT st c.num 0 0 0).endDisconnects c.num st).removeConn c).assignSlots

/-- Nothing of the connection is outstanding on this node. -/
def State.idleConn (s : State) (c : Conn) : Bool :=
  c.sreq.outs.isEmpty && c.srsp.outs.isEmpty && c.smerge.outs.isEmpty && (s.outstandingOn c.num).isEmpty && c.rreq.held.isEmpty &&
  !s.windowOn c.num

/-- CONN_CLOSE. -/
def State.connClose (s : State) (c : Conn) : State := s.sendAck c { s.connPacket c .mgt 4 with conn := c.peerConn }

/-- A DRAINING connection that is idle here sends CONN_CLOSE; when the peer's has come, that is the answer and it is CLOSED. -/
def State.closeIfIdle (s : State) (n : Nat) : State :=
  match s.conn n with
  | none => s
  | some c =>
    if c.state ≠ .draining ∨ !s.idleConn c then s
    else if c.peerClosed then (s.connClose c).closeConn c .ok
    else if c.sends = 0 then (s.connClose c).modConn n fun c => { c with sends := 1 }
    else s

/-- Move an OPEN connection to DRAINING. -/
def State.drainConn (s : State) (n : Nat) : State :=
  (s.modConn n fun c => if c.state = .opened then { c with state := .draining, sends := 0 } else c).closeIfIdle n

/-! ### Numbers and contexts of new connections (R276, R278) -/

/-- Connection numbers that the context area gives. -/
def State.connTop (s : State) : Nat := match s.fab.ctxArea with | some (_, _, len) => min (len / 256) 16777216 | none => 0

/-- The lowest run of `k` free numbers. -/
def State.freeRun (s : State) (k : Nat) : Option Nat :=
  lowestGap ((s.fab.conns.map (·.num) ++ s.fab.resting.map (·.num)).map fun n => (n, 1)) k 1 s.connTop

/-- Queue pairs of a composition. -/
def State.qpCount (s : State) (slot : Nat) : Nat := (s.fab.conns.filter (·.comp == slot)).length

def State.qpLimit (s : State) (slot : Nat) : Nat := s.scalar (0x5000 + slot) 0xD

/-- Slots assigned at setup. -/
def State.initSlots (s : State) (num : Nat) : Nat := min (s.scalar 0x3210 0xF) (s.freeSlots (s.homeDie num))

/-- A new connection with random first PSNs; its context is cached while its die has room, else it lies in the area. -/
def State.newConn (s : State) (num peer tenant slot rcq : Nat) (st : ConnState) : Conn × State :=
  let (a, s) := s.drawBits 32
  let (b, s) := s.drawBits 32
  let (m, s) := s.drawBits 32
  let room := s.contextRoom (s.homeDie num)
  let s := room.getD s
  let sp := fun x : BitVec 32 => ({ next := x.toNat, cum := x.toNat } : SendSpace)
  let c : Conn := {
    num := num, peer := peer, tenant := tenant, comp := slot, state := st, rcq := rcq, epoch := s.compEpoch slot,
    mtu := mtuBytes (s.scalar 0x3210 4), marks := s.marks, sreq := sp a, srsp := sp b, smerge := sp m, slots := s.initSlots num, lastUse := s.now,
    paths := s.buildPaths slot num peer, cached := room.isSome, sends := 1 }
  (c, { s with fab := { s.fab with conns := s.fab.conns ++ [c] } })

/-! ### CONN_SETUP and CONN_ACCEPT (R244) -/

/-- The fields of the 32-byte payload. -/
structure SetupMsg where
  setupId : Nat
  initConn : Nat
  accConn : Nat
  isnReq : Nat
  isnRsp : Nat
  isnMerge : Nat
  slots : Nat
  mtu : Nat
  status : Nat
  deriving DecidableEq, Repr

def SetupMsg.bytes (m : SetupMsg) : List Byte :=
  beBytes 4 m.setupId ++ beBytes 4 m.initConn ++ beBytes 4 m.accConn ++ beBytes 4 m.isnReq ++ beBytes 4 m.isnRsp ++ beBytes 4 m.isnMerge ++
  beBytes 2 m.slots ++ [BitVec.ofNat 8 m.mtu, BitVec.ofNat 8 m.status, 0, 0, 0, 0]

def setupOf (bs : List Byte) : SetupMsg :=
  let f := fun i n => beVal ((bs.drop i).take n)
  { setupId := f 0 4, initConn := f 4 4 % 2 ^ 24, accConn := f 8 4 % 2 ^ 24, isnReq := f 12 4, isnRsp := f 16 4, isnMerge := f 20 4,
    slots := min 512 (f 24 2), mtu := f 26 1, status := f 27 1 }

/-- MTU code of this node. -/
def State.mtuCode (s : State) : Nat := s.scalar 0x3210 4

/-- MTU code of a connection, as it was set up (R261). -/
def Conn.mtuCode (c : Conn) : Nat := if c.mtu = 4096 then 2 else if c.mtu = 2048 then 1 else 0

def Conn.setupMsg (c : Conn) (accepting : Bool) (code : Nat) (st : Status) : SetupMsg :=
  { setupId := c.setupId, initConn := if accepting then c.peerConn else c.num, accConn := if accepting then c.num else 0,
    isnReq := c.sreq.next, isnRsp := c.srsp.next, isnMerge := c.smerge.next, slots := c.slots, mtu := code, status := st.code }

/-- Send the CONN_SETUP of a connection. -/
def State.connSetup (s : State) (c : Conn) : State :=
  s.sendAck c { s.connPacket c .mgt 2 with conn := 0, payload := (c.setupMsg false c.mtuCode .ok).bytes }

/-- What the peer's payload sets on a connection. -/
def Conn.join (c : Conn) (m : SetupMsg) (peerConn : Nat) : Conn :=
  { c with
    state := .opened, peerConn := peerConn, mtu := min c.mtu (mtuBytes m.mtu), limit := (c.sreq.next + m.slots) % seqMod, sends := 0,
    rreq := { cum := m.isnReq, deliver := m.isnReq }, rrsp := { cum := m.isnRsp, deliver := m.isnRsp },
    rmerge := { cum := m.isnMerge, deliver := m.isnMerge }, fenceLow := m.isnReq, limitTold := (m.isnReq + c.slots) % seqMod }

/-- Epoch a is newer than b (R34). -/
def epochNewer (a b : Nat) : Bool := let d := (a + 65536 - b % 65536) % 65536; decide (1 ≤ d) && decide (d ≤ 32767)

/-- The epoch test (R253). -/
def epochVerdict (mine theirs : Nat) : Option Status :=
  if mine = theirs then none else if epochNewer theirs mine then some .busyRetry else some .staleEpoch

/-- The acceptor's checks of a CONN_SETUP (R244), the composition known. -/
def State.setupChecks (s : State) (p : Packet) (c : Comp) (rcq : Nat) : List (Bool × Status) :=
  let v := epochVerdict (s.compEpoch c.slot) p.epoch
  [(c.tenant != p.tenant || (s.tenant p.tenant).isNone || !c.routeTo p.src, .keyFault),
   (c.state != .active, .revoked),
   (v == some .staleEpoch, .staleEpoch), (v == some .busyRetry, .busyRetry),
   ((s.freeRun 1).isNone || decide (s.qpLimit c.slot ≤ s.qpCount c.slot) || rcq == 0xFFFF, .capacity),
   (!s.cqHasFree rcq 2, .busyRetry)]

/-- Answer a CONN_SETUP. -/
def State.connAccept (s : State) (p : Packet) (bs : List Byte) (m : Marks := s.marks) : State :=
  s.replyTo p { cls := .mgt, type := 3, dst := p.src, tenant := p.tenant, comp := p.comp, epoch := p.epoch, payload := bs } m

/-- Refuse a CONN_SETUP; no state is kept. -/
def State.connRefuse (s : State) (p : Packet) (m : SetupMsg) (st : Status) : State :=
  s.connAccept p ({ m with accConn := 0, status := st.code }).bytes

/-- Accept a CONN_SETUP: the queue pair, its two slots, and the CONNECT notification (R271, R272). -/
def State.acceptConn (s : State) (p : Packet) (c : Comp) (rcq : Nat) (m : SetupMsg) : State :=
  match s.freeRun 1 with
  | none => s
  | some n =>
    let (x, s) := s.newConn n p.src p.tenant c.slot rcq .opened
    let x := { x.join m m.initConn with setupId := m.setupId }
    let bs := (x.setupMsg true s.mtuCode .ok).bytes
    let s := s.modConn n fun _ => { x with setupPkt := bs }
    let s := (s.reserveCq rcq 2).notifyReserved rcq opCONNECT .ok n 0 0 (p.src + c.id * 2 ^ 12)
    s.connAccept p bs x.marks

def execConnSetupRx (p : Packet) (s : State) : Host.Outcome State Fault Refusal :=
  .next <| s.receive p .mgt 2 fun s =>
    let s := s.accepted
    let m := setupOf p.payload
    match s.fab.conns.find? fun c => c.peer == p.src && c.setupId == m.setupId && !c.setupPkt.isEmpty with
    | some c => s.connAccept p c.setupPkt c.marks
    | none =>
      match s.compById p.comp with
      | none => s.connRefuse p m .keyFault
      | some c =>
        let rcq := s.tenantObj p.tenant 0xE
        match firstFail (s.setupChecks p c rcq) with
        | some st => s.connRefuse p m st
        | none => s.acceptConn p c rcq m

/-! ### CONNECT (R276) -/

def cnRun (e : BitVec 512) : Nat := let n := fld e 191 176; if n = 0 then 1 else n
def cnRcq (e : BitVec 512) : Nat := fld e 173 160
def cnComp (e : BitVec 512) : Nat := fld e 159 144
def cnPeer (e : BitVec 512) : Nat := fld e 139 128

/-- The checks of CONNECT, in operand order. -/
def State.connectChecks (s : State) (q : Req) : List (Bool × Status) :=
  let e := q.entry
  let run := cnRun e
  let own := match s.cq (cnRcq e) with | some c => c.tenant == q.tenant | none => false
  let c := s.compById (cnComp e)
  let comp := match c with | some c => c.tenant == q.tenant && c.state == .active | none => false
  let route := match c with | some c => c.routeTo (cnPeer e) | none => false
  [(decide (16 < run), .rangeFault), (!own, .keyFault), (!comp, .keyFault), (cnPeer e == s.nodeId, .rangeFault), (!route, .keyFault),
   ((match c with | some c => decide (s.qpLimit c.slot < s.qpCount c.slot + run) | none => true), .capacity),
   ((s.freeRun run).isNone, .capacity), (!s.cqHasFree (cnRcq e) run, .capacity)]

/-- Set up the connections of a run, one per number. -/
def State.setupRun (s : State) (q : Req) (slot num : Nat) : Nat → State
  | 0 => s
  | k + 1 =>
    let s := s.setupRun q slot num k
    let n := num + k
    let (id, s) := s.drawBits 32
    let (c, s) := s.newConn n (cnPeer q.entry) q.tenant slot (cnRcq q.entry) .setupSent
    let c := { c with setupId := id.toNat, req := some q.id }
    ((s.modConn n fun _ => c).reserveCq (cnRcq q.entry) 1).connSetup c

def execConnect (r : Nat) (s : State) : Host.Outcome State Fault Refusal :=
  .next <| s.runReq r [opCONNECT] fun q s =>
    s.checked r (s.connectChecks q) fun s =>
      match s.compById (cnComp q.entry), s.freeRun (cnRun q.entry) with
      | some c, some n =>
        ((s.setupRun q c.slot n (cnRun q.entry)).modReq r fun q => { q with count := n }).waitReq r .connect
      | _, _ => s

/-- The lowest-numbered failure of a run. -/
def lowestFail (l : List (Nat × Status)) : Option Status := (leastBy (fun x : Nat × Status => x.1) l).map (·.2)

/-- A connection of a run has been decided: once all are, CONNECT ends. Each that failed, before or after it had opened, is in `fails`; OK needs
every one OPEN (R276). -/
def State.connectDecided (s : State) (r : Nat) : State :=
  let run := s.fab.conns.filter fun c => c.req == some r
  match s.req r with
  | none => s
  | some q =>
    if q.phase ≠ .waiting .connect ∨ run.any (fun c => c.state == .setupSent) then s
    else
      let s := run.foldl (fun s c => s.modConn c.num fun c => { c with req := none }) s
      match lowestFail q.fails with
      | none => s.endReq r .ok q.count
      | some st => (run.foldl (fun s c => s.drainConn c.num) s).endReq r st

/-- A connection of a CONNECT's run has opened and left OPEN before the others were decided: it counts as a failure. -/
def State.lostFromRun (s : State) (c : Conn) (st : Status) : State :=
  match c.req with
  | some r => s.modReq r fun q => { q with fails := (c.num, st) :: q.fails }
  | none => s

/-- A connection of a run did not open: it is CLOSED with the status given. -/
def State.setupFailed (s : State) (c : Conn) (st : Status) : State :=
  let s := (s.releaseCq c.rcq 1).removeConn c
  match c.req with
  | some r => (s.modReq r fun q => { q with fails := (c.num, st) :: q.fails }).connectDecided r
  | none => s

/-- Move a connection to RESET: its outstanding requests end and CONN_RESET is sent; one in SETUP_SENT does not open. -/
def State.resetConn (s : State) (n : Nat) (st : Status) : State :=
  match s.conn n with
  | none => s
  | some c =>
    if c.state = .reset then s
    else if c.state = .setupSent then s.setupFailed c st
    else
      let s := (s.sentOn n).foldl (fun s q => s.resetReq c q) ((s.lostFromRun c st).count 0x6300 0xC)
      let s := s.freeLedger c
      let s := { s with fab := { s.fab with
        asks := dropWhere (·.1 == n) s.fab.asks, missBuf := dropWhere (·.conn == n) s.fab.missBuf,
        compAcks := dropWhere (·.1 == n) s.fab.compAcks } }
      let s := s.sendAck c (s.resetPacket c)
      let s := (s.modConn n fun c => { c with
        state := .reset, endStatus := st, sends := 1, sreq := { c.sreq with outs := [] }, srsp := { c.srsp with outs := [] },
        smerge := { c.smerge with outs := [] }, loose := [], rreq := { c.rreq with held := [], verdicts := [] }, slots := 0, fetching := false })
      (s.endDisconnects n st).assignSlots

def execConnAcceptRx (p : Packet) (s : State) : Host.Outcome State Fault Refusal :=
  .next <| s.receive p .mgt 3 fun s =>
    let s := s.accepted
    let m := setupOf p.payload
    match s.conn m.initConn with
    | none => s
    | some c =>
      if c.state ≠ .setupSent ∨ c.peer ≠ p.src ∨ c.setupId ≠ m.setupId then s
      else if m.status = Status.ok.code then
        let s := s.modConn c.num fun c => c.join m m.accConn
        match c.req with
        | some r => s.connectDecided r
        | none => s
      else s.setupFailed c (Status.ofCode m.status)

/-- Sends of CONN_SETUP and of CONN_CLOSE. -/
def maxSends : Nat := 16

def execConnSetupResend (conn : Nat) (s : State) : Host.Outcome State Fault Refusal :=
  .next <|
    match s.conn conn with
    | none => s
    | some c =>
      if c.state ≠ .setupSent then s
      else if c.sends ≥ maxSends then s.setupFailed c .timeout
      else (s.connSetup c).modConn conn fun c => { c with sends := c.sends + 1 }

/-! ### DISCONNECT and CONN_CLOSE (R243, R277) -/

def execDisconnect (r : Nat) (s : State) : Host.Outcome State Fault Refusal :=
  .next <| s.runReq r [opDISCONNECT] fun q s =>
    match s.conn (hdrQp q.entry) with
    | none => s.endReq r .keyFault
    | some c =>
      if c.tenant ≠ q.tenant ∨ c.state ≠ .opened then s.endReq r .keyFault
      else ((s.lostFromRun c .timeout).waitReq r (.disconnect c.num)).drainConn c.num

def execConnCloseRx (p : Packet) (s : State) : Host.Outcome State Fault Refusal :=
  .next <| s.receive p .mgt 4 fun s =>
    let s := s.accepted
    match s.conn p.conn with
    | none =>
      match s.fab.resting.find? fun x => x.num == p.conn && x.peer == p.src with
      | some x => s.replyTo p x.close x.marks
      | none => s
    | some c =>
      if c.peer ≠ p.src ∨ c.tenant ≠ p.tenant then s
      else match c.state with
        | .opened =>
          let s := s.lostFromRun c .timeout
          (s.modConn c.num fun c => { c with state := .draining, sends := 0, peerClosed := true }).closeIfIdle c.num
        | .draining =>
          if c.sends > 0 then s.closeConn c .ok
          else (s.modConn c.num fun c => { c with peerClosed := true }).closeIfIdle c.num
        | _ => s

def execConnCloseResend (conn : Nat) (s : State) : Host.Outcome State Fault Refusal :=
  .next <|
    match s.conn conn with
    | none => s
    | some c =>
      if c.state ≠ .draining ∨ c.sends = 0 then s
      else if c.sends ≥ maxSends then s.resetConn conn .timeout
      else (s.connClose c).modConn conn fun c => { c with sends := c.sends + 1 }

/-! ### RESET (R243) -/

def execConnResetRx (p : Packet) (s : State) : Host.Outcome State Fault Refusal :=
  .next <| s.receive p .mgt 5 fun s =>
    let s := s.accepted
    match s.fab.conns.find? fun c => c.peer == p.src && c.tenant == p.tenant && c.peerConn == p.conn && (c.state == .opened || c.state == .draining) with
    | some c => s.resetConn c.num .timeout
    | none => s

/-- Sends of CONN_RESET. -/
def resetSends : Nat := 3

def execConnResetResend (conn : Nat) (s : State) : Host.Outcome State Fault Refusal :=
  .next <|
    match s.conn conn with
    | none => s
    | some c =>
      if c.state ≠ .reset ∨ c.sends ≥ resetSends then s
      else (s.sendAck c (s.resetPacket c)).modConn conn fun c => { c with sends := c.sends + 1 }

def execConnResetQuietEnd (conn : Nat) (s : State) : Host.Outcome State Fault Refusal :=
  .next <|
    match s.conn conn with
    | none => s
    | some c => if c.state = .reset then s.closeConn c c.endStatus else s

def execConnNumberRelease (conn : Nat) (s : State) : Host.Outcome State Fault Refusal :=
  .next { s with fab := { s.fab with resting := dropWhere (·.num == conn) s.fab.resting } }

/-! ### Contexts (R279, R280) -/

def execContextWriteback (die : Nat) (s : State) : Host.Outcome State Fault Refusal :=
  .next <|
    match s.evictable die with
    | none => s
    | some c =>
      if s.cachedOn die ≥ dieContexts ∧ s.fab.conns.any (fun c => c.fetching && s.homeDie c.num == die) then s.writeBack c
      else if s.rehearses rehEvict die then (s.writeBack c).count 0x6000 0x33
      else s

end Sys2Proof.Machine
end

