-- ==== Sys2Proof/Machine/Transport.lean ====
section
/-! DEFINITION. Sys2Proof/Machine/Transport.lean: requests sent to a peer and their answers, messages received and handed over,
acknowledgement, retries and relays (R238-R258, R287-R293). -/

namespace Sys2Proof.Machine

open Sys2Proof

/-! ### Issuing (R241, R242) -/

/-- Issue over a connection, the space for the response reserved: at once BUSY_RETRY to a banked peer (R260). -/
def State.issueOn (s : State) (q : Req) (n reqId : Nat) (bytes : List Byte) (space : Nat) (hop : Nat := 8) : State :=
  match s.conn n with
  | none => s.endReq q.id .keyFault
  | some c =>
    if c.state ≠ .opened ∧ c.state ≠ .draining then s.endReq q.id .keyFault
    else if s.peerBanked c then s.endReq q.id .busyRetry
    else s.sendRemote c q.id { conn := n, reqId := reqId, msg := bytes, space := space, hop := hop }

/-- Retries that a request has (R255). -/
def retryBudget : Nat := 16

/-- Use one retry of the timer kind; past the budget the connection resets and its requests end (R255). -/
def State.timerRetry (s : State) (q : Req) (o : RemoteOp) (go : State → State) : State :=
  if o.retries ≥ retryBudget then s.resetConn o.conn .timeout
  else go (s.modRemote q.id fun x => { x with retries := x.retries + 1 })

/-- The requester's part of an RSP_END whose bytes are all in. -/
def State.answered (s : State) (q : Req) (o : RemoteOp) (e : List Byte) : State :=
  let st := Status.ofCode (cqeStatus e)
  if st = .busyRetry ∨ st = .staleEpoch then
    if o.retries ≥ retryBudget then s.remoteEnd q st
    else
      let s := s.modRemote q.id fun x => { x with retries := x.retries + 1 }
      if st = .staleEpoch then s.launch q.id else s.modRemote q.id fun x => { x with backoff := true }
  else (s.modRemote q.id fun o => { o with ended := true }).remoteEnd q st (leVal e % 2 ^ 64)

/-! ### Answering at the target (R254, R291-R293) -/

/-- Send an RSP_END; OFFSET counts the bytes of the RSP_DATA, `age` is the AGE of the request. -/
def State.sendEnd (s : State) (n reqId epoch total : Nat) (entry : List Byte) (age : Nat) (hop : Nat := 8) : State :=
  match s.conn n with
  | none => s
  | some c =>
    let p := { s.connPacket c .rsp 2 with
      psn := c.srsp.next, mlen := entry.length, reqId := reqId, epoch := epoch, offset := total, payload := entry, hoplim := hop }
    (s.arrive.modConn n fun c => { c with srsp := { c.srsp with
      next := psnNext c.srsp.next,
      outs := c.srsp.outs ++ [{ psn := p.psn, req := none, path := 0, since := s.now, age := age, arr := s.fab.nextArr, pkt := p }] } }).flush n 1

/-- The completion entry that a target sends. -/
def endEntry (op user reqId : Nat) (st : Status) (result : Nat) : List Byte := leBytes 32 (cqEntry 0 0 false op st.code 0 user reqId result)

/-- Answer a request with its RSP_DATA, if any, and its RSP_END. -/
def State.answer (s : State) (n reqId epoch : Nat) (data entry : List Byte) (age : Nat) (hop : Nat := 8) : State :=
  let s := if data.isEmpty then s
    else (s.sendMsg n { cls := .rsp, type := 1, bytes := data, reqId := reqId, req := none, epoch := epoch, hoplim := hop, age := age }).2.2
  s.sendEnd n reqId epoch data.length entry age hop

/-- HOPLIM of a request's answer: a relay's is one lower than that of the response that it received (R258). -/
def Req.answerHop (q : Req) : Nat := match q.remote with | some o => o.rspHop - 1 | none => 8

/-- COMP_ACK (R292). -/
def State.compAck (s : State) (n som reqId : Nat) : State :=
  match s.conn n with
  | some c => s.sendAck c { s.connPacket c .ack 4 with reqId := reqId, offset := som }
  | none => s

/-- FENCE_ACK (R293). REQ_ID is that of the duplicate that it answers, else of the request whose end advanced C (DESIGN CHOICE, log 84). -/
def State.fenceAck (s : State) (n : Nat) (dup : Option Nat := none) : State :=
  match s.conn n with
  | some c => (s.sendAck c { s.connPacket c .ack 3 with reqId := dup.getD c.fenceId, offset := c.fenceLow }).modConn n fun c => { c with fenceAt := some s.now, fenceDue := false }
  | none => s

/-- The lowest SOM PSN of a request that has not been answered; else that of the next message. -/
def State.fenceOf (s : State) (c : Conn) : Nat :=
  let soms := s.reqs.filterMap fun q => match q.origin with | .remote n som => if n = c.num then some som else none | _ => none
  soms.foldl (fun a x => if seqDist c.fenceLow x < seqDist c.fenceLow a then x else a) c.rreq.deliver

def State.sackDelay (s : State) : Nat := s.scalar 0x3210 0x12

/-- Advance C, the request `id` having been answered; a FENCE_ACK follows, at most once per SACK_DELAY. -/
def State.advanceFence (s : State) (n id : Nat) : State :=
  match s.conn n with
  | none => s
  | some c =>
    let low := s.fenceOf c
    if low = c.fenceLow then s
    else
      let s := (s.modConn n fun c => { c with fenceLow := low, fenceDue := true, fenceId := id })
      let s := { s with fab := { s.fab with compAcks := dropWhere (fun x => x.1 == n && psnBelow x.2.1 low) s.fab.compAcks } }
      if c.fenceAt.all fun t => decide (t + s.sackDelay ≤ s.now) then s.fenceAck n else s

/-- A duplicate of a REQ packet: whatever answer the peer has not acknowledged is sent again (R291, R293); of several
RSP_ENDs of a request that was reissued, the last. -/
def State.answerAgain (s : State) (c : Conn) (p : Packet) : State :=
  let s := match c.srsp.outs.reverse.find? fun o => o.sent && o.pkt.type == 2 && o.pkt.reqId == p.reqId with
    | some o => s.resend c.num 1 o.psn
    | none => match s.fab.compAcks.find? fun x => x.1 == c.num && x.2.2 == p.reqId with
      | some x => s.compAck c.num x.2.1 x.2.2
      | none => s
  if psnBelow p.psn c.fenceLow then s.fenceAck c.num (some p.reqId) else s

/-! ### Messages handed over at the target (R246, R253, R258) -/

/-- Opcodes that run at a peer (R273, R274). -/
def opcodeAtPeer (op : Nat) : Bool := opcodeRemoteOnly op || (decide (0x40 ≤ op) && decide (op ≤ 0x73) && opcodeDefined op)

/-- The members of a connection's map to which a relay could pass a message on (DESIGN CHOICE, log 30). -/
def State.onward (s : State) (c : Conn) : List Nat :=
  match (s.comp c.comp).bind (·.map) with
  | some m => (m.nodes.map (·.node)).filter fun n => n != s.nodeId && n != c.peer
  | none => []

/-- The member for which a message is meant, when this node is only a relay for it. -/
def State.relayFor (s : State) (c : Conn) (bs : List Byte) : Option Nat :=
  let l := s.onward c
  if l.isEmpty then none else match Config.relayPick c.num bs % (l.length + 1) with | 0 => none | k + 1 => l[k]?

/-- The member to which a relay sends a message for `n`. -/
def State.nextHop (s : State) (c : Conn) (n : Nat) : Nat :=
  match ((s.comp c.comp).bind (·.map)).bind fun m => m.via (maxRelays + 1) n with
  | some e => e.node
  | none => n

/-! ### Requests that touch a common byte (R290) -/

/-- Bytes `[off, off + len)` of a remote region that opcode 0x01 to 0x08 touches. -/
def touched (e : BitVec 512) : Nat × Nat × Nat :=
  let op := hdrOpcode e
  (remRkey e, remRoff e,
    if op = opWRITE ∨ op = opREAD ∨ op = opWRITE_IMM ∨ op = opLEDGER_QUERY then remLen e else if op = opCAS128 then 16 else 8)

/-- Bytes of memory: of the host or of a tenant, from an address on. -/
structure Extents where
  host : Bool
  tenant : Nat
  base : Nat
  len : Nat
  deriving DecidableEq, Repr

def Extents.meets (x y : Extents) : Bool :=
  x.host == y.host && x.tenant == y.tenant && decide (x.base < y.base + y.len) && decide (y.base < x.base + x.len)

/-- Tenant memory that an NB_EXEC touches: its descriptor, its lists and the span of its operands (R158-R161). -/
def State.nbTouches (s : State) (q : Req) : List (Nat × Nat) :=
  match s.readTenant q.tenant (nbDesc q.entry) 128 with
  | .error _ => [(nbDesc q.entry, 128)]
  | .ok d =>
    let op := nbOp q.entry
    let span := fun i rows => let o := ldOpnd d i; if o.valid then [(o.addr, (rows - 1) * o.stride + opndBytes op d i)] else []
    let lists :=
      if op = nbGATHER then
        let n := ldRows d
        let last := match s.readTenant q.tenant ((ldOpnd d 2).addr + 4 * n) 4 with | .ok bs => min (leVal bs) (2 ^ 28) | .error _ => 0
        span 1 (grTable d) ++ [((ldOpnd d 2).addr, 4 * (n + 1)), ((ldOpnd d 3).addr, 4 * last)]
      else [1, 2, 3].flatMap fun i => span i (ldRows d)
    [(nbDesc q.entry, 128), (ldRowlist d, 4 * ldListcount d)] ++ span 0 (ldRows d) ++ lists

/-- What a request of a peer that runs here touches: opcode 0x01 to 0x08 by its region, any other by its tenant's addresses. -/
def State.touches (s : State) (q : Req) : List Extents :=
  let mem := fun l : List (Nat × Nat) => l.map fun x => (⟨false, q.tenant, x.1, x.2⟩ : Extents)
  let viaKey := fun key off len => match s.region (key / 256) with | some g => [(⟨g.host, g.tenant, g.base + off, len⟩ : Extents)] | none => []
  if !q.isLocal then []
  else if opcodeRemoteOnly q.op then let x := touched q.entry; viaKey x.1 x.2.1 x.2.2
  else if q.op = opNB_EXEC then mem (s.nbTouches q)
  else if q.op = opPS_SEARCH then
    let n := min 65536 (pqCount q.entry)
    mem [(pqQaddr q.entry, 64 * n), (pqRaddr q.entry, 32 * n)]
  else if q.op = opMERGE_CLOSE then
    match s.findMerge q.tenant (msId q.entry) with | some x => mem [(x.result, x.resultBytes)] | none => []
  else if q.op = opMERGE_SUBMIT then
    match s.findMerge q.tenant (msId q.entry) with
    | some x => viaKey (msSrcKey q.entry) (msSrcOffset q.entry) (msCount q.entry * accRecord x.dv)
    | none => []
  else match s.answerOf q with | some x => mem [(x.1, x.2.length)] | none => []

/-- Two requests touch a common byte. -/
def State.overlaps (s : State) (a b : Req) : Bool := (s.touches a).any fun x => (s.touches b).any x.meets

/-- May a request of a peer begin (R290, R299)? Requests that touch a common byte, and atomic operations, take effect in SOM
PSN order. -/
def State.turnOf (s : State) (q : Req) : Bool :=
  s.orderOk q && !s.reqs.any fun x => x.live && x.before q && x.isLocal &&
    (s.overlaps x q || (isAtomic x.op && (isAtomic q.op || q.op == opLEDGER_QUERY)))

/-- A request of another opcode than 0x01 to 0x08 whose turn has not come waits for it. -/
def State.seat (s : State) (r : Nat) : State :=
  match s.req r with
  | some q => if q.isLocal ∧ !opcodeRemoteOnly q.op ∧ q.phase = .started ∧ !s.turnOf { q with accepted := true } then
      s.modReq r fun q => { q with phase := .waiting .turn } else s
  | none => s

/-- Requests whose turn has come begin. -/
def State.turns (s : State) : State :=
  s.reqs.foldl (fun s q => if q.phase = .waiting .turn ∧ s.turnOf { q with accepted := true } then
    s.modReq q.id fun q => { q with phase := .started } else s) s

/-! ### Taking a message -/

/-- The request that a message makes. -/
def State.enterRemote (s : State) (c : Conn) (h : Packet) (bs : List Byte) : Nat × State :=
  let q : Req := { id := s.nextReq, origin := .remote c.num h.psn, tenant := c.tenant, comp := c.comp,
                   loan := match s.comp c.comp with | some x => x.loan | none => false,
                   entry := BitVec.ofNat 512 (leVal (bs.take 64)), inlineData := bs.drop 64, epoch := h.epoch, age := h.age, wireId := h.reqId }
  (q.id, { s with reqs := s.reqs ++ [q], nextReq := s.nextReq + 1 })

/-- Refuse a message: RSP_END with a status, no side effect. -/
def State.refuse (s : State) (c : Conn) (h : Packet) (bs : List Byte) (st : Status) : State :=
  let e := leVal (bs.take 64)
  s.sendEnd c.num h.reqId h.epoch 0 (endEntry (bits e 7 0) (bits e 127 96) h.reqId st (if bits e 7 0 = opATTEND then 0xFFFF else 0)) h.age

/-- The request by which a relay passes a contribution on; it has no work entry. -/
def State.relayMerge (s : State) (d : Conn) (r : Nat) (h : Packet) (bs : List Byte) : State :=
  (s.modReq r fun q => { q with entry := BitVec.ofNat 512 (h.reqId * 2 ^ 32), inlineData := [] }).sendRemote d r
    { conn := d.num, reqId := s.freshReqId d.num, msg := bs, merge := true, hop := h.hoplim - 1 }

/-- Pass a message on (R258). -/
def State.relay (s : State) (c : Conn) (h : Packet) (bs : List Byte) (node : Nat) : State :=
  if h.hoplim = 0 then (s.count 0x6300 0xD).refuse c h bs .rangeFault
  else
    match s.connTo c.tenant c.comp (s.nextHop c node) with
    | none => s.refuse c h bs .keyFault
    | some d =>
      if s.peerBanked d then s.refuse c h bs .busyRetry else
      let (r, s) := s.enterRemote c h bs
      match s.req r with
      | some q => if h.type = 2 then s.relayMerge d r h bs else s.issueOn q d.num (s.freshReqId d.num) bs 0 (h.hoplim - 1)
      | none => s

/-- The composition and tenant of a connection take new requests (R327, R332). -/
def State.connServes (s : State) (c : Conn) : Bool :=
  s.tenantActive c.tenant && (match s.comp c.comp with | some x => x.state == .active | none => false)

/-- A whole REQ_DATA message. -/
def State.takeRequest (s : State) (c : Conn) (h : Packet) (bs : List Byte) (v : Status) : State :=
  if v ≠ .ok then s.refuse c h bs v
  else if !s.connServes c then s.refuse c h bs .revoked
  else match s.relayFor c bs with
    | some n => s.relay c h bs n
    | none =>
      if bs.length < 64 ∨ !opcodeAtPeer (bits (leVal (bs.take 64)) 7 0) then s.refuse c h bs .rangeFault
      else let x := s.enterRemote c h bs; x.2.seat x.1

/-- Bytes that a merge message's header announces (R474). -/
def contribLen (bs : List Byte) : Nat := let h := leVal (bs.take 32); 32 + bits h 127 96 * accRecord (bits h 143 128)

/-- A whole REQ_MERGE message: judged, merged and answered (R123). -/
def State.takeContribution (s : State) (c : Conn) (h : Packet) (bs : List Byte) (v : Status) : State :=
  let reply := fun st (s : State) => s.sendEnd c.num h.reqId h.epoch 0 (endEntry 0 0 h.reqId st 0) h.age
  if v ≠ .ok then reply v s
  else if !s.connServes c then reply .revoked s
  else if let some n := s.relayFor c bs then s.relay c h bs n
  else if bs.length < 32 ∨ bs.length < contribLen bs then reply .rangeFault s
  else match s.contribute c.tenant (some c.num, h.reqId) (contribMsgOf bs) with
    | .error st => reply st s
    | .ok s => reply .ok s

/-- The verdict that a message's first packet found (R253). -/
def RecvSpace.verdictOf (x : RecvSpace) (reqId : Nat) : Status := (x.verdicts.lookup reqId).getD .ok

/-- Hand over the messages of a REQ or MERGE space that are complete, in SOM PSN order (R246). -/
def State.handOver (sp n : Nat) : Nat → State → State
  | 0, s => s
  | k + 1, s =>
    match s.conn n with
    | none => s
    | some c =>
      let x := c.recv sp
      match collectMsg x.held x.held.length x.deliver with
      | none => s
      | some ps =>
        match ps.head? with
        | none => s
        | some h =>
          let v := x.verdictOf h.reqId
          let gone := fun p : Packet => ps.any fun y => y.psn == p.psn
          let x' := { x with deliver := (x.deliver + ps.length) % seqMod, held := dropWhere gone x.held, verdicts := dropWhere (·.1 == h.reqId) x.verdicts }
          let s := s.modConn n fun c => c.setRecv sp x'
          let s := if sp = 0 then s.takeRequest c h (assemble ps) v else s.takeContribution c h (assemble ps) v
          State.handOver sp n k s

/-- Take a REQ packet into its space: the verdict of its message is found on the first packet to arrive. -/
def State.placeReq (s : State) (c : Conn) (sp : Nat) (p : Packet) : State :=
  let x := c.recv sp
  let mine := ((s.compById p.comp).bind (·.map)).map (·.epoch)
  let v : Status := match mine with | some e => (epochVerdict e p.epoch).getD .ok | none => .staleEpoch
  let vs := if x.verdicts.any (·.1 == p.reqId) then x.verdicts else (p.reqId, v) :: x.verdicts
  let s := (s.modConn c.num fun c => c.setRecv sp { x.take p s.now with held := x.held ++ [p], verdicts := vs }).accepted
  let s := State.handOver sp c.num (x.held.length + 1) s
  let s := if sp = 0 then ((s.trimSlots c.num).advanceFence c.num p.reqId).assignSlots else s
  s.maybeSack c.num sp p (p.psn == x.cum)

/-- A duplicate (R246). -/
def State.dupRx (s : State) (n sp : Nat) (p : Packet) : State := (s.count 0x6300 5).promptSack n sp p

def State.rxReqData (c : Conn) (p : Packet) (s : State) : State :=
  if !s.takesReq then s
  else if c.rreq.isDup p.psn then (s.dupRx c.num 0 p).answerAgain c p
  else if !psnBelow p.psn c.grant then s.count 0x6300 0xA
  else s.placeReq c 0 p

/-- Slots of a die's merge pool. -/
def mergeSlots : Nat := 1024

/-- A packet of a contribution has drained into the accumulator once its message's first packet, which names the context, is in (DEDUCED,
log 84). -/
def Conn.drained (c : Conn) (p : Packet) : Bool :=
  c.rmerge.held.any fun h => h.som && h.psn == (p.psn + seqMod - p.offset / max 1 c.mtu % seqMod) % seqMod

/-- Slots of a die's merge pool that are taken. -/
def State.mergeHeld (s : State) (die : Nat) : Nat :=
  sumOf (fun c : Conn => if s.homeDie c.num = die then (c.rmerge.held.filter fun p => !c.drained p).length else 0) s.fab.conns

def State.rxReqMerge (c : Conn) (p : Packet) (s : State) : State :=
  if !s.takesReq then s
  else if c.rmerge.isDup p.psn then (s.dupRx c.num 2 p).answerAgain c p
  else if c.rmerge.beyond p.psn ∨ (mergeSlots ≤ s.mergeHeld (s.homeDie c.num) ∧ !p.som ∧ !c.drained p) then s.count 0x6300 9
  else s.placeReq c 2 p

/-! ### Responses at the requester (R241, R246, R291) -/

/-- The request that a response answers. -/
def State.awaiting (s : State) (n reqId : Nat) : Option (Req × RemoteOp) :=
  match s.reqs.find? fun q => q.live && (match q.remote with | some o => o.conn == n && o.reqId == reqId && !o.held | none => false) with
  | some q => q.remote.map fun o => (q, o)
  | none => none

/-- Write bytes of a response into a local region, or onto the host (R287). -/
def State.putLocal (s : State) (y : Payer) (g : Region) (off : Nat) (bs : List Byte) : Wrote :=
  if g.host then .done (s.emit (.dma (g.base + off) bs)) else s.writeTenant y (g.base + off) bs

/-- Where the bytes of a response go. -/
def State.placeRsp (s : State) (q : Req) (off : Nat) (bs : List Byte) : Wrote :=
  match q.origin with
  | .queue _ =>
    if q.op = opATTEND then s.writeTenant q.payer (atResult q.entry + off) bs
    else match s.region (remLkey q.entry / 256) with
      | some g => s.putLocal q.payer g (remLoff q.entry + off) bs
      | none => .bad .keyFault s
  | _ => .done (s.modReq q.id fun q => { q with reply := placeAt (q.reply ++ List.replicate (off + bs.length - q.reply.length) 0) off bs })

/-- An RSP_END reaches its request; it is held until the bytes that it counts have arrived. -/
def State.endArrived (s : State) (n : Nat) (p : Packet) : State :=
  match s.awaiting n p.reqId with
  | none => s.count 0x6300 8
  | some (q, o) =>
    if p.offset ≤ o.got then s.answered q o p.payload
    else s.modRemote q.id fun x => { x with rspEnd := some (p.offset, BitVec.ofNat 256 (leVal p.payload)) }

/-- Hand over the RSP messages that are complete, in SOM PSN order. -/
def State.handRsp (n : Nat) : Nat → State → State
  | 0, s => s
  | k + 1, s =>
    match s.conn n with
    | none => s
    | some c =>
      let x := c.rrsp
      match collectMsg x.held x.held.length x.deliver with
      | none => s
      | some ps =>
        let gone := fun p : Packet => ps.any fun y => y.psn == p.psn
        let s := s.modConn n fun c => { c with rrsp := { x with deliver := (x.deliver + ps.length) % seqMod, held := dropWhere gone x.held } }
        let s := match ps with
          | [p] => if p.type = 2 then s.endArrived n p else s
          | _ => s
        State.handRsp n k s

/-- Take an RSP packet's PSN and hand over what is complete; an RSP_END that is dropped keeps its place only. -/
def State.takePsn (s : State) (c : Conn) (p : Packet) (dropped : Bool) : State :=
  let x := c.rrsp
  let kept := if p.type = 1 ∨ dropped then { p with payload := [], type := 1 } else p
  let s := s.modConn c.num fun c => { c with rrsp := { x.take p s.now with held := x.held ++ [kept] } }
  let s := State.handRsp c.num (x.held.length + 1) s
  (s.maybeSack c.num 1 p (p.psn == x.cum)).closeIfIdle c.num

/-- An RSP packet is accepted. -/
def State.takeRsp (s : State) (c : Conn) (p : Packet) : State := s.accepted.takePsn c p false

/-- An RSP packet for a request that is not tracked, or of a map that is not held, is dropped, its PSN taken (R241, R254), and counted with
the drops of R239 step 6 (DESIGN CHOICE, log 84). -/
def State.dropRsp (s : State) (c : Conn) (p : Packet) : State := (s.count 0x6300 8).takePsn c p true

/-- The bytes of an RSP_DATA have been placed. -/
def State.placedRsp (s : State) (q : Req) (n : Nat) : State :=
  let s := s.modRemote q.id fun o => { o with got := o.got + n }
  match (s.req q.id).bind (·.remote) with
  | some o => match o.rspEnd with
    | some (total, e) => if total ≤ o.got then s.answered q o (leBytes 32 e.toNat) else s
    | none => s
  | none => s

/-- Does this node still hold the map of a response's epoch (R254)? -/
def State.holdsEpoch (s : State) (slot e : Nat) : Bool :=
  match s.comp slot with
  | some c => (c.map.toList ++ c.oldMap.toList).any (·.epoch == e)
  | none => false

def State.rxRspData (c : Conn) (p : Packet) (s : State) : State :=
  if !s.takesRsp then s
  else if c.rrsp.isDup p.psn then s.dupRx c.num 1 p
  else if c.rrsp.beyond p.psn then s.count 0x6300 9
  else match s.awaiting c.num p.reqId with
    | none => s.dropRsp c p
    | some (q, o) =>
      let s := s.modRemote q.id fun o => { o with rspHop := min o.rspHop p.hoplim }
      if !s.holdsEpoch c.comp p.epoch then s.dropRsp c p
      else if (match q.origin with | .remote _ _ => false | _ => decide (o.space < p.offset + p.payload.length)) then s.dropRsp c p
      else match s.placeRsp q p.offset p.payload with
        | .done s => (s.placedRsp q p.payload.length).takeRsp c p
        | .bad st s => ((s.modRemote q.id fun o => { o with failed := some st }).placedRsp q p.payload.length).takeRsp c p
        | .noSectors => (s.reqRoom q 7 none false).getD ((s.modRemote q.id fun o => { o with failed := some .capacity }).takeRsp c p)

/-- OFFSET of a miss reply (R281). -/
def missOffset : Nat := 0xFFFFFFFF

def State.rxRspEnd (c : Conn) (p : Packet) (s : State) : State :=
  if !s.takesRsp ∨ p.offset = missOffset then s
  else if c.rrsp.isDup p.psn then s.dupRx c.num 1 p
  else if c.rrsp.beyond p.psn then s.count 0x6300 9
  else match s.awaiting c.num p.reqId with
    | none => s.dropRsp c p
    | some (q, _) =>
      let s := s.modRemote q.id fun o => { o with rspHop := min o.rspHop p.hoplim }
      if s.holdsEpoch c.comp p.epoch then s.takeRsp c p else s.dropRsp c p

def State.rxMissReply (c : Conn) (p : Packet) (s : State) : State :=
  if !s.takesRsp ∨ p.offset ≠ missOffset then s
  else match s.awaiting c.num p.reqId with
    | none => s.count 0x6300 8
    | some (q, _) =>
      if (c.sreq.outs ++ c.smerge.outs).any fun o => o.psn == p.psn && o.req == some q.id && o.sent then
        s.accepted.modRemote q.id fun x => { x with resends := x.resends.filter (· != p.psn) ++ [p.psn] }
      else s

/-! ### SACK (R247-R250) -/

structure SackMsg where
  space : Nat
  cum : Nat
  bitmap : List Byte
  echo : Nat
  dwell : Nat
  rxPkts : Nat
  rxCe : Nat
  limit : Nat
  deriving DecidableEq, Repr

def sackOf (bs : List Byte) : SackMsg :=
  let f := fun i n => beVal ((bs.drop i).take n)
  { space := f 0 1, cum := f 4 4, bitmap := (bs.drop 8).take 64, echo := f 72 4, dwell := f 76 4, rxPkts := f 80 4, rxCe := f 84 4,
    limit := f 88 4 }

/-- The SACK shows a PSN received. -/
def SackMsg.shows (m : SackMsg) (psn : Nat) : Bool :=
  psnBelow psn m.cum || (let i := seqDist m.cum psn; decide (i < 512) && (m.bitmap.getD (i / 8) 0).getLsbD (7 - i % 8))

/-- Received PSNs above one. -/
def SackMsg.above (m : SackMsg) (psn : Nat) : Nat :=
  ((List.range 512).filter fun i => psnBelow psn ((m.cum + i) % seqMod) && (m.bitmap.getD (i / 8) 0).getLsbD (7 - i % 8)).length

/-- PSN of the EOM packet of a packet's message. -/
def eomOf (mtu : Nat) (o : OutPkt) : Nat :=
  if o.pkt.cls = .rsp ∧ o.pkt.type = 2 then o.psn
  else (o.psn + (max 1 (ceilDiv o.pkt.mlen mtu) - 1 - o.pkt.offset / mtu)) % seqMod

/-- A missing packet is to be sent again (R249). -/
def SackMsg.missing (m : SackMsg) (mtu : Nat) (o : OutPkt) : Bool :=
  o.sent && !m.shows o.psn && (decide (2 ≤ m.above o.psn) || (eomOf mtu o != o.psn && m.shows (eomOf mtu o)))

/-- Round-trip estimates with gains 1/8 and 1/4; the first sample sets both (R250). -/
def Conn.sample (c : Conn) (rtoMin x : Nat) : Conn :=
  let srtt := if c.sampled then (7 * c.srtt + x) / 8 else x
  let var := if c.sampled then (3 * c.rttvar + (max c.srtt x - min c.srtt x)) / 4 else x / 2
  { c with srtt := srtt, rttvar := var, sampled := true, rto := max rtoMin (srtt + 4 * var) }

/-- Time that delay samples are kept: 10 ms (R252). -/
def sampleSpan : Nat := 10000000

/-- A path learns from a SACK that came by it: a delay sample, and the receiver's counts of a space (R250, R252). -/
def Path.learn (x : Path) (now rtt sp ce pkts : Nat) : Path :=
  { x with samples := (now, rtt) :: x.samples.filter (fun y => decide (now ≤ y.1 + sampleSpan)),
           seen := (sp, ce, pkts) :: dropWhere (·.1 == sp) x.seen }

/-- A packet came by a path: over its port, from its target's port. -/
def Path.carried (x : Path) (p : Packet) : Bool := x.port == p.port && if p.udp then x.ip == p.srcIp else x.mac == p.srcMac

def State.rxSack (c : Conn) (p : Packet) (s : State) : State :=
  let m := sackOf p.payload
  let sp := m.space
  let x := c.send sp
  if !s.takesRsp ∨ p.payload.length < 96 ∨ sp > 2 ∨ psnBelow m.cum x.cum ∨ seqDist x.cum x.next < seqDist x.cum m.cum then s
  else
    let s := s.accepted
    let acked := x.outs.filter fun o => o.sent && m.shows o.psn
    let left := x.outs.filter fun o => !(o.sent && m.shows o.psn)
    let rtt := (s.now % seqMod + 2 * seqMod - m.echo - m.dwell) % seqMod
    let paths := c.paths.zipIdx.map fun y =>
      let x := if acked.any (·.path == y.2) then { y.1 with expiries := 0 } else y.1
      if x.carried p then x.learn s.now rtt sp m.rxCe m.rxPkts else x
    let s := s.modConn c.num fun c =>
      let c := { c.setSend sp { x with cum := m.cum, outs := left } with paths := paths }
      let c := if acked.isEmpty then c else c.sample s.rtoMin rtt
      if sp = 0 ∧ psnBelow c.limit m.limit then { c with limit := m.limit } else c
    let s := (left.filter (m.missing c.mtu)).foldl (fun s o => s.resend c.num sp o.psn) s
    (s.flush c.num sp).closeIfIdle c.num

def State.rxCreditAsk (c : Conn) (p : Packet) (s : State) : State :=
  if !s.takesRsp then s
  else
    let want := beVal (p.payload.take 4)
    let l := dropWhere (·.1 == c.num) s.fab.asks
    (({ s with fab := { s.fab with asks := if want = 0 then l else (c.num, want, p.age) :: l } }).accepted).assignSlots

/-- End the SILENT requests of a connection that `p` covers (R292, R293). -/
def State.silentDone (s : State) (n : Nat) (p : Req → RemoteOp → Bool) : State :=
  let mine := fun q : Req => hdrSilent q.entry && (match q.remote with | some o => o.conn == n && !o.held && p q o | none => false)
  ((s.reqs.filter fun q => q.live && mine q).foldl (fun s q => s.remoteEnd q .ok (remLen q.entry)) s).closeIfIdle n

def State.rxFenceAck (c : Conn) (p : Packet) (s : State) : State :=
  if !s.takesRsp then s else (s.accepted).silentDone c.num fun _ o => psnBelow o.som p.offset

def State.rxCompAck (c : Conn) (p : Packet) (s : State) : State :=
  if !s.takesRsp then s else (s.accepted).silentDone c.num fun _ o => o.reqId == p.reqId && o.som == p.offset

/-! ### The receiving rows -/

def execReqDataRx (p : Packet) (s : State) : Host.Outcome State Fault Refusal :=
  .next <| s.receive p .req 1 fun s => s.onConn p fun c s => s.rxReqData c p

def execReqMergeRx (p : Packet) (s : State) : Host.Outcome State Fault Refusal :=
  .next <| s.receive p .req 2 fun s => s.onConn p fun c s => s.rxReqMerge c p

def execRspDataRx (p : Packet) (s : State) : Host.Outcome State Fault Refusal :=
  .next <| s.receive p .rsp 1 fun s => s.onConn p fun c s => s.rxRspData c p

def execRspEndRx (p : Packet) (s : State) : Host.Outcome State Fault Refusal :=
  .next <| if p.offset = missOffset then s else s.receive p .rsp 2 fun s => s.onConn p fun c s => s.rxRspEnd c p

def execMissReplyRx (p : Packet) (s : State) : Host.Outcome State Fault Refusal :=
  .next <| if p.offset ≠ missOffset then s else s.receive p .rsp 2 fun s => s.onConn p fun c s => s.rxMissReply c p

def execSackRx (p : Packet) (s : State) : Host.Outcome State Fault Refusal :=
  .next <| s.receive p .ack 1 fun s => s.onConn p fun c s => s.rxSack c p

def execCreditAskRx (p : Packet) (s : State) : Host.Outcome State Fault Refusal :=
  .next <| s.receive p .ack 2 fun s => s.onConn p fun c s => s.rxCreditAsk c p

def execFenceAckRx (p : Packet) (s : State) : Host.Outcome State Fault Refusal :=
  .next <| s.receive p .ack 3 fun s => s.onConn p fun c s => s.rxFenceAck c p

def execCompAckRx (p : Packet) (s : State) : Host.Outcome State Fault Refusal :=
  .next <| s.receive p .ack 4 fun s => s.onConn p fun c s => s.rxCompAck c p

/-- The rules of a waiting packet's class, once its context is present (R280). -/
def State.rxWaiting (s : State) (p : Packet) : State :=
  match s.conn p.conn with
  | none => s
  | some c => match p.cls, p.type with
    | .req, 1 => s.rxReqData c p
    | .req, _ => s.rxReqMerge c p
    | .rsp, 1 => s.rxRspData c p
    | .rsp, _ => if p.offset = missOffset then s.rxMissReply c p else s.rxRspEnd c p
    | .ack, 1 => s.rxSack c p
    | .ack, 2 => s.rxCreditAsk c p
    | .ack, 3 => s.rxFenceAck c p
    | .ack, _ => s.rxCompAck c p
    | .mgt, _ => s

/-- DMA to the context area is permitted (R454). -/
def State.ctxDmaOk (s : State) : Bool := match s.fab.ctxArea with | some (ld, _, _) => s.dmaOk ld | none => false

/-- A context has arrived: it is cached, with room made; messages that wait for it leave, and packets are taken in order (R279,
R280). -/
def execContextFetchDone (conn : Nat) (s : State) : Host.Outcome State Fault Refusal :=
  .next <|
    match s.conn conn with
    | none => s
    | some c =>
      if !c.fetching ∨ !s.ctxDmaOk then s
      else match s.contextRoom (s.homeDie conn) with
        | none => s
        | some s =>
          let s := s.modConn conn fun c => { c with cached := true, fetching := false, lastUse := s.now }
          let s := (s.reqs.filter fun q => q.live && q.remote.any fun o => o.held && o.conn == conn).foldl (fun s q => s.launch q.id) s
          let ps := s.fab.missBuf.filter (·.conn == conn)
          ps.foldl State.rxWaiting { s with fab := { s.fab with missBuf := dropWhere (·.conn == conn) s.fab.missBuf } }

/-! ### Timers (R249, R250, R256, R291) -/

/-- A timer expiry on a path: the third in a row takes it out, and every expiry halves its rate (R251, R252). -/
def Path.expire (p : Path) (now ccMin : Nat) : Path :=
  { p with rate := max ccMin (p.rate / 2), rises := 0, expiries := p.expiries + 1, out := p.out || decide (3 ≤ p.expiries + 1), failedAt := now }

def execRetransmitTimerExpiry (conn space psn : Nat) (s : State) : Host.Outcome State Fault Refusal :=
  .next <|
    match s.conn conn with
    | none => s
    | some c =>
      match (c.send space).outs.find? fun o => o.psn == psn && o.sent with
      | none => s
      | some o =>
        if !s.coreRuns then s
        else
          let s := (s.count 0x6300 4).modConn conn fun c =>
            { (c.setSend space { c.send space with
                outs := modWhere (·.psn == psn) (fun x => { x with expiries := x.expiries + 1 }) (c.send space).outs }) with
              rto := min s.rtoMax (2 * c.rto), paths := c.paths.modify o.path fun p => p.expire s.now s.ccMin }
          match o.req.bind s.req with
          | some q => match q.remote with
            | some x => s.timerRetry q x (·.resend conn space psn)
            | none => s.resend conn space psn
          | none => if o.expiries ≥ retryBudget then s.resetConn conn .timeout else s.resend conn space psn

/-- Send a request's last packet again, all of its packets having been acknowledged (R291). -/
def State.resendLast (s : State) (n : Nat) (q : Req) (o : RemoteOp) : State :=
  match s.conn n with
  | none => s
  | some c =>
    let m : Msg := { cls := .req, type := if o.merge then 2 else 1, bytes := o.msg, reqId := o.reqId, req := some q.id, epoch := o.epoch,
                     hoplim := o.hop }
    match (s.msgPackets c m o.som).getLast? with
    | some x => s.sendLoose n { x with sent := true, again := true, path := o.path }
    | none => s

def execResponseTimerExpiry (r : Nat) (s : State) : Host.Outcome State Fault Refusal :=
  .next <|
    match s.req r with
    | none => s
    | some q =>
      match q.remote with
      | none => s
      | some o =>
        match s.conn o.conn with
        | none => s
        | some c =>
          if !q.live ∨ !s.coreRuns ∨ o.held ∨ o.backoff ∨ (c.sreq.outs ++ c.smerge.outs ++ c.loose).any (fun x => x.req == some r) then s
          else ((s.count 0x6300 4).modConn o.conn fun c => { c with paths := c.paths.modify o.path fun p => p.expire s.now s.ccMin }).timerRetry q o
            (·.resendLast o.conn q o)

def execSackDelayExpiry (conn space : Nat) (s : State) : Host.Outcome State Fault Refusal :=
  .next <|
    match s.conn conn with
    | none => s
    | some c =>
      if !s.coreRuns ∨ (c.state ≠ .opened ∧ c.state ≠ .draining) then s
      else
        let s := if (c.recv space).unsacked > 0 then s.sendSack conn space else s
        if space = 0 ∧ c.fenceDue then s.fenceAck conn else s

/-- After a backoff (R256, R281): the message is reissued, or a dropped packet, the first of those that wait, resent under its old PSN. -/
def execBackoffExpiry (r : Nat) (s : State) : Host.Outcome State Fault Refusal :=
  .next <|
    match s.req r with
    | none => s
    | some q =>
      match q.remote with
      | none => s
      | some o =>
        if !q.live ∨ !s.coreRuns then s
        else if o.backoff then s.launch r
        else match o.resends with
          | [] => s
          | psn :: rest => s.timerRetry q o fun s =>
              (s.modRemote r fun x => { x with resends := rest }).resend o.conn (if o.merge then 2 else 0) psn

def execCreditAskRepeat (conn : Nat) (s : State) : Host.Outcome State Fault Refusal :=
  .next <|
    match s.conn conn with
    | none => s
    | some c => if c.asking ∧ c.creditHeld ∧ s.coreRuns then s.creditAsk c else s

/-! ### Rate control (R251, R252) -/

/-- The largest of max(0.5, 1 - 0.8 (qd - target) / qd) and 1, and 1 - F / 2, as a fraction of 10^6. -/
def rateFactor (dce drx qd target : Nat) : Rat :=
  let d : Rat := if target < qd then max (1/2) (1 - (4/5) * ((qd - target : Nat) : Rat) / (qd : Rat)) else 1
  let e : Rat := if drx = 0 then 1 else 1 - ((dce : Rat) / (drx : Rat)) / 2
  min d e

/-- Intervals without a decrease after which R_p rises faster. -/
def fastRises : Nat := 5

def Path.update (p : Path) (f : Rat) (ai lo hi : Nat) : Path :=
  if f < 1 then { p with rate := max lo (min hi ((p.rate : Rat) * f).floor.toNat), rises := 0 }
  else { p with rate := max lo (min hi (p.rate + (if p.rises ≥ fastRises then 8 * ai else ai))), rises := p.rises + 1 }

/-- Increase of RXCE and of RXPKTS over an interval, over the spaces whose SACKs came by a path. -/
def Path.increase (x : Path) : Nat × Nat :=
  x.seen.foldl (fun t a =>
    let b := ((x.base.find? (·.1 == a.1)).map (·.2)).getD (0, 0)
    (t.1 + (a.2.1 + seqMod - b.1 % seqMod) % seqMod, t.2 + (a.2.2 + seqMod - b.2 % seqMod) % seqMod)) (0, 0)

/-- Queueing delay of a path: the latest sample less the smallest of the last 10 ms; 0 with no sample. -/
def Path.queueing (x : Path) (now : Nat) : Nat :=
  match x.samples.filter fun y => decide (now ≤ y.1 + sampleSpan) with
  | [] => 0
  | y :: ys => y.2 - ys.foldl (fun a z => min a z.2) y.2

/-- The update of R252: a native frame carries no ECN, so there F is 0. -/
def State.newRate (s : State) (p : Path) : Path :=
  let n := p.increase
  let f := rateFactor (if s.udpFraming then min n.1 n.2 else 0) n.2 (p.queueing s.now) (s.scalar 0x3210 0xC)
  { p.update f (s.scalar 0x3210 0xD) s.ccMin (s.pathTop p) with base := p.seen }

/-- Once per SRTT of the path `port` to `mac`, `ip` of the connection `conn` to `peer` (R252). -/
def execRateUpdate (conn peer port : Nat) (mac : BitVec 48) (ip : BitVec 128) (s : State) : Host.Outcome State Fault Refusal :=
  .next <| s.modConn conn fun c =>
    if c.peer = peer then { c with paths := modWhere (·.joins port mac ip) s.newRate c.paths } else c

def execPathReadmit (conn path : Nat) (s : State) : Host.Outcome State Fault Refusal :=
  .next <| s.modConn conn fun c =>
    { c with paths := c.paths.modify path fun p => if p.out then { p with out := false, expiries := 0, rises := 0, rate := s.ccInit } else p }

/-! ### Keepalive (R259, R260) -/

def PortStatus.code : PortStatus → Nat
  | .absent => 0 | .down => 1 | .training => 2 | .up => 3 | .degraded => 4 | .banked => 5

def State.keepalivePayload (s : State) : List Byte :=
  ((List.range 8).map fun p => BitVec.ofNat 8 (s.portStatus p).code) ++ beBytes 4 s.flt.paceNode.toNat ++ [0, 0, 0, 0]

/-- The places to which a port sends KEEPALIVE: node, address of its port, and the composition that names them. While banked, every member that
the maps reach over the port (DESIGN CHOICE, log 83); else those of the paths with an open connection that have carried no other packet for
KA_PERIOD. -/
def State.keepaliveTo (s : State) (port : Nat) : List (Nat × BitVec 48 × BitVec 128 × Nat) :=
  let all := if s.portStatus port = .banked then
      s.comps.flatMap fun c => match c.map with
        | some m => m.nodes.flatMap fun e =>
            if e.node = s.nodeId then [] else (e.paths.filter (·.port == port)).map fun x => (e.node, x.mac, x.ip, c.slot)
        | none => []
    else if s.portLive port then
      let idle := fun (mac : BitVec 48) (ip : BitVec 128) => s.fab.conns.all fun c => c.paths.all fun x =>
        !x.joins port mac ip || decide (x.used + s.scalar 0x3210 0xE ≤ s.now)
      (s.fab.conns.filter (·.state == .opened)).flatMap fun c =>
        (c.paths.filter fun x => x.port == port && idle x.mac x.ip).map fun x => (c.peer, x.mac, x.ip, c.comp)
    else []
  all.foldl (fun l x => if l.any fun y => y.1 == x.1 && y.2.1 == x.2.1 && y.2.2.1 == x.2.2.1 then l else l ++ [x]) []

/-- KA_PERIOD passes on the paths from `port` to `node`. -/
def execKeepalivePeriod (port node : Nat) (s : State) : Host.Outcome State Fault Refusal :=
  .next <| ((s.keepaliveTo port).filter (·.1 == node)).foldl (fun s x =>
    s.transmit { cls := .mgt, type := 1, dst := x.1, comp := s.compId x.2.2.2, epoch := s.compEpoch x.2.2.2, payload := s.keepalivePayload }
      port x.2.1 x.2.2.1 s.marks) s

def execKeepaliveRx (p : Packet) (s : State) : Host.Outcome State Fault Refusal :=
  .next <| s.receive p .mgt 1 fun s =>
    let x := (p.src, p.payload.take 8, BitVec.ofNat 32 (beVal ((p.payload.drop 8).take 4)))
    ({ s with fab := { s.fab with peers := x :: dropWhere (·.1 == p.src) s.fab.peers } }).accepted

def execPeerBankedTimeout (node : Nat) (s : State) : Host.Outcome State Fault Refusal :=
  .next { s with fab := { s.fab with bankedPeers := s.fab.bankedPeers.erase node } }

/-! ### Ports (R229-R232, R251) -/

/-- PAUSE and PFC frames are discarded and counted (R230). -/
def execPauseFrameRx (port : Nat) (s : State) : Host.Outcome State Fault Refusal :=
  .next (if port < s.variant.ports ∧ s.node.powered then s.count (0x3200 + port) 7 else s)

def State.setPort (s : State) (x : Port) : State :=
  { s with fab := { s.fab with ports := modWhere (·.p == x.p) (fun _ => x) s.fab.ports } }

/-- Physical lanes of a port that are out: failed ones, and those that a rehearsal treats as failed (R440). -/
def State.lanesOut (s : State) (p : Nat) : BitVec 9 :=
  (List.range 8).foldl (fun b l => if s.rehearses rehLane (8 * p + l) then putBit b l true else b) (s.port p).bad

/-- The logical lane that the spare, physical lane 8, serves: the one it serves already while that is out, else the lowest. -/
def spareLane (out : BitVec 9) (now : Option Nat) : Option Nat :=
  if out.getLsbD 8 then none
  else match now.filter fun l => out.getLsbD l with
    | some l => some l
    | none => (List.range 8).find? fun l => out.getLsbD l

/-- Logical lanes that are out of service (R229). -/
def badLanes (out : BitVec 9) (spare : Option Nat) : List Nat := (List.range 8).filter fun l => out.getLsbD l && spare != some l

/-- Lanes of the widest mode whose lanes are all in service. -/
def widestMode (bad : List Nat) : Nat :=
  let ok := fun l : List Nat => l.all fun i => !bad.contains i
  if ok [0, 1, 2, 3, 4, 5, 6, 7] then 8
  else if ok [0, 1, 2, 3] || ok [4, 5, 6, 7] then 4
  else if ok [0, 1] || ok [2, 3] || ok [4, 5] || ok [6, 7] then 2
  else if [0, 1, 2, 3, 4, 5, 6, 7].any fun i => !bad.contains i then 1
  else 0

/-- Training begins: the values in use become the flash's for the objects of `p` (R401, R408). -/
def State.trainWith (s : State) (p : Nat → Bool) : State :=
  { s with node := { s.node with calUse := dropWhere (fun x => p x.1) s.node.calUse } }

/-- SERDES_EQ objects of a port: its eight lanes and its spare (R401). -/
def serdesOf (p k : Nat) : Bool := k / 256 == 0x2000 && ((decide (8 * p + 1 ≤ k % 256) && decide (k % 256 ≤ 8 * p + 8)) || k % 256 == 0x41 + p)

/-- Report a port's status, raising PORT_STATUS when it changes (R361). While FABREF is lost a port that would train reports DOWN (R463). -/
def State.reportPort (s : State) (p : Nat) (st : PortStatus) (width : Nat) : State :=
  let x := s.port p
  let st := if st = .training ∧ !s.clk.fabref then PortStatus.down else st
  let s := s.setPort { x with status := st, width := width }
  let s := if st = .training then s.trainWith (serdesOf p) else s
  if x.status = st then s else s.raise srcPortStatus

/-- No rate of a path exceeds what its ports have come to give (R251). -/
def State.capRates (s : State) (port : Nat) : State :=
  { s with fab := { s.fab with conns := s.fab.conns.map fun c =>
      { c with paths := modWhere (·.port == port) (fun x => { x with rate := min x.rate (max s.ccMin (s.pathTop x)) }) c.paths } } }

/-- Send what the paths of every connection now permit. -/
def State.flushAll (s : State) : State := (s.fab.conns.map (·.num)).foldl State.askCredit s.egress

/-- Does a port train in the banked mode (R231, R447 steps 7 and 8, R452)? At start-up every port does so first, and stays there
while a bank cause is present. -/
def State.bankedPorts (s : State) (p : Nat) : Bool :=
  s.node.phase == .banked || (s.node.phase == .starting && (s.banking || s.portStatus p != .banked))

/-- The port trains with its spare under a failed lane's logical number (R438); a rehearsed loss is no take-over of the fault
list's (R440), but the event tells of both. -/
def State.takeSpareLane (s : State) (p : Nat) (spare : Option Nat) : State :=
  let x := s.port p
  let s := s.setPort { x with spareFor := spare }
  match spare with
  | some l => if x.spareFor = some l then s
      else (if s.rehearses rehLane (8 * p + l) then s else s.count 0x6000 0x28).raise srcSpareSwitched
  | none => s

def execPortTrainingDone (port : Nat) (partnerBanked : Bool) (s : State) : Host.Outcome State Fault Refusal :=
  .next <|
    if !s.node.powered ∨ s.variant.ports ≤ port ∨ !s.inService .port port ∨ !s.clk.fabref then s
    else
      let out := s.lanesOut port
      let spare := spareLane out (s.port port).spareFor
      let s := s.takeSpareLane port spare
      let w := widestMode (badLanes out spare)
      if s.bankedPorts port then (if partnerBanked ∧ w > 0 then s.reportPort port .banked 1 else s.reportPort port .down 0)
      else if w = 0 then s.reportPort port .down 0
      else ((s.reportPort port (if w = 8 then .up else .degraded) w).capRates port).flushAll

/-- Send the unacknowledged packets of a port's paths again, on other paths under their old PSNs (R265). -/
def State.rerouteConn (s : State) (port : Nat) (c : Conn) : State :=
  [0, 1, 2].foldl (fun s sp =>
    ((c.send sp).outs.filter fun o => o.sent && (c.paths[o.path]?).any (·.port == port)).foldl
      (fun s o => s.resend c.num sp o.psn) s) s

def State.reroute (s : State) (port : Nat) : State := s.fab.conns.foldl (fun s c => s.rerouteConn port c) s

/-- A port loses its link, or lanes of it (R438). It leaves the path sets until it has trained again. -/
def execPortLinkDown (port : Nat) (lost : BitVec 9) (s : State) : Host.Outcome State Fault Refusal :=
  .next <|
    if !s.node.powered ∨ s.variant.ports ≤ port then s
    else
      let x := s.port port
      let s := s.setPort { x with bad := x.bad ||| lost }
      (s.reportPort port (if lost = 0 then .down else .training) 0).reroute port

end Sys2Proof.Machine
end

