-- ==== Sys2Proof/Machine/Remote.lean ====
section
/-! DEFINITION. Sys2Proof/Machine/Remote.lean: the remote operations at both ends (R274, R286-R290, R296, R299), and regions
(R282-R285). -/

namespace Sys2Proof.Machine

open Sys2Proof

/-! ### Issue (R286) -/

/-- Largest LEN. -/
def maxRemoteLen : Nat := 2 ^ 30

/-- LEN and alignment of an opcode lie within the table of R286. -/
def remoteShapeOk (e : BitVec 512) : Bool :=
  let op := hdrOpcode e
  let len := remLen e
  if op = opWRITE ∨ op = opREAD then decide (1 ≤ len) && decide (len ≤ maxRemoteLen)
  else if op = opWRITE_IMM then decide (len ≤ maxRemoteLen)
  else if op = opCAS128 then decide (remRoff e % 16 = 0) && decide (remLoff e % 16 = 0)
  else if op = opLEDGER_QUERY then (len == 8 || len == 16) && decide (remRoff e % max 1 len = 0)
  else decide (remRoff e % 8 = 0)

/-- The local buffer of an opcode: the right it needs and its bytes; none where there is no buffer. -/
def localBuffer (e : BitVec 512) : Option (KeyRight × Nat) :=
  let op := hdrOpcode e
  if op = opWRITE then some (.localR, remLen e)
  else if op = opREAD then some (.localW, remLen e)
  else if op = opWRITE_IMM then (if remLen e = 0 then none else some (.localR, remLen e))
  else if op = opCAS128 then some (.localRW, 32)
  else if op = opLEDGER_QUERY then (if remLen e = 16 then some (.localW, 16) else none)
  else none

/-- Bytes that a message carries after its work entry. -/
def sentBytes (e : BitVec 512) : Nat :=
  let op := hdrOpcode e
  if op = opWRITE ∨ op = opWRITE_IMM then remLen e else if op = opCAS128 then 32 else 0

/-- Bytes of the response (R241). -/
def responseBytes (e : BitVec 512) : Nat :=
  let op := hdrOpcode e
  if op = opREAD then remLen e else if op = opCAS128 then 16 else if op = opLEDGER_QUERY ∧ remLen e = 16 then 16 else 0

/-- The 64 bytes of a work entry. -/
def entryBytes (e : BitVec 512) : List Byte := leBytes 64 e.toNat

/-- Read bytes through a held region: of tenant memory, or those that the DMA brings (DESIGN CHOICE, log 16). -/
def State.takeFrom (s : State) (y : Payer) (g : Region) (off len : Nat) (dma : List Byte) : Except Status (Option (List Byte × State)) :=
  if g.host then .ok (if dma.length = len then some (dma, s) else none)
  else match s.loadTenant y (g.base + off) len with
    | .ok p => .ok (some p)
    | .error e => .error e

/-- The requester's part of opcodes 0x01 to 0x08. -/
def State.issueRemote (s : State) (q : Req) (dma : List Byte) : State :=
  let e := q.entry
  if !remoteShapeOk e then s.endReq q.id .rangeFault
  else
    let go := fun (bs : List Byte) (s : State) => s.issueOn q (hdrQp e) (hdrReqId e) (entryBytes e ++ bs) (responseBytes e)
    match localBuffer e with
    | none => go [] s
    | some (need, len) =>
      match s.holdKey q (remLkey e) need (remLoff e) len with
      | .error st => s.endReq q.id st
      | .ok (g, s) =>
        match s.takeFrom q.payer g (remLoff e) (sentBytes e) dma with
        | .error st => s.endRead q (g.base + remLoff e) (sentBytes e) st
        | .ok none => s
        | .ok (some (bs, s)) => go bs s

/-! ### At the target (R287-R290) -/

/-- Channels whose lines a request of a peer touches (R174). -/
def State.remoteChannels (s : State) (q : Req) : List Nat :=
  let x := touched q.entry
  match s.region (x.1 / 256) with
  | none => []
  | some g =>
    if g.host || !s.variant.nearBank then []
    else
      let a := g.base + x.2.1
      (s.mem.maps.filter fun m => m.tenant == q.tenant && decide (m.addr < a + x.2.2) && decide (a < m.addr + s.frameSize m.frame)).filterMap fun m =>
        match s.placeOf m.frame with | .upper c _ => some c | _ => none

/-- The first of these channels whose unit is in a step, or has accesses queued before this one. -/
def State.blockedBy (s : State) (q : Req) : Option Nat :=
  (s.remoteChannels q).find? fun c =>
    let u := s.nbUnit c
    u.step.isSome || (!u.lines.isEmpty && u.lines.head? != some (.remote q.id))

/-- A request leaves the bank queue that it waits in. -/
def State.leaveLines (s : State) (r : Nat) : State :=
  { s with eng := { s.eng with units := modWhere (fun u => u.lines.contains (.remote r)) (fun u => { u with lines := u.lines.erase (.remote r) }) s.eng.units } }

/-- A request waits in a channel's bank queue (R176; one channel at a time: DESIGN CHOICE, log 40). -/
def State.joinLines (s : State) (r c : Nat) : State :=
  if (s.nbUnit c).lines.contains (.remote r) then s
  else
    let s := s.leaveLines r
    (s.setNb { s.nbUnit c with lines := (s.nbUnit c).lines ++ [.remote r] }).pump

/-- The state in which a request touches the banks: its place in their queues left. -/
def State.unlined (s : State) (q : Req) : State := if (s.remoteChannels q).isEmpty then s else s.leaveLines q.id

/-- What follows the access: units that waited for it go on. -/
def State.relined (s : State) (q : Req) (t : State) : State := if (s.remoteChannels q).isEmpty then t else t.pump

/-- A request of a peer whose turn it is touches the banks between the steps of their units (R174, R177). -/
def State.atBoundaries (s : State) (q : Req) (go : Req → State → State) : State :=
  match s.blockedBy q with
  | some c => s.joinLines q.id c
  | none => s.relined q (go q (s.unlined q))

/-- Run opcode 0x01 to 0x08 at the end where the request is. -/
def State.remoteRow (s : State) (r op : Nat) (dma : List Byte) (target : Req → State → State) : State :=
  match s.req r with
  | none => s
  | some q =>
    if q.op ≠ op ∨ q.phase ≠ .started ∨ q.remote.isSome ∨ !s.coreRuns ∨ s.stalled r then s
    else match q.origin with
      | .remote _ _ => if s.turnOf q then s.gated q fun s => s.atBoundaries q target else if (s.remoteChannels q).isEmpty then s else (s.leaveLines r).pump
      | .queue _ => s.gated q fun s => s.issueRemote q dma
      | _ => s

/-- The remote region of a request, checked at acceptance (R284). -/
def State.onRegion (s : State) (q : Req) (need : KeyRight) (len : Nat) (go : Region → State → State) : State :=
  match s.holdKey q (remRkey q.entry) need (remRoff q.entry) len with
  | .error st => s.endReq q.id st
  | .ok (g, s) => go g s

/-- Place the bytes of a WRITE, then go on; it waits for sectors where they lack (R185). -/
def State.placeWrite (s : State) (q : Req) (g : Region) (go : State → State) (fail : State → State) : State :=
  match s.putLocal q.payer g (remRoff q.entry) q.inlineData with
  | .done s => go s
  | .bad st s => (fail s).endReq q.id st
  | .noSectors =>
    match s.reqRoom q 7 none false with
    | some s => s.accept q.id []
    | none => (fail s).endReq q.id .capacity

/-- A message whose data has another length than LEN. -/
def dataShort (q : Req) : Bool := decide (q.inlineData.length ≠ remLen q.entry)

def execWrite (r : Nat) (dma : List Byte) (s : State) : Host.Outcome State Fault Refusal :=
  .next <| s.remoteRow r opWRITE dma fun q s =>
    s.checked r [(dataShort q, .rangeFault)] fun s =>
    s.onRegion q .remoteW (remLen q.entry) fun g s => s.placeWrite q g (·.endReq r .ok (remLen q.entry)) id

def execRead (r : Nat) (dma : List Byte) (s : State) : Host.Outcome State Fault Refusal :=
  .next <| s.remoteRow r opREAD dma fun q s =>
    s.onRegion q .remoteR (remLen q.entry) fun g s =>
    match s.takeFrom q.payer g (remRoff q.entry) (remLen q.entry) dma with
    | .error st => s.endRead q (g.base + remRoff q.entry) (remLen q.entry) st
    | .ok none => s
    | .ok (some (bs, s)) => (s.modReq r fun q => { q with reply := bs }).endReq r .ok (remLen q.entry)

/-- Receive completion queue of the connection that a request came by. -/
def State.rcqOf (s : State) (q : Req) : Nat × Nat × Nat :=
  match q.origin with
  | .remote n _ => match s.conn n with | some c => (n, c.rcq, c.peer) | none => (n, 0, 0)
  | _ => (0, 0, 0)

/-- WRITE_IMM (R288): a slot is reserved before any byte is placed, and the notification follows the last. -/
def execWriteImm (r : Nat) (dma : List Byte) (s : State) : Host.Outcome State Fault Refusal :=
  .next <| s.remoteRow r opWRITE_IMM dma fun q s =>
    let len := remLen q.entry
    let x := s.rcqOf q
    s.checked r [(dataShort q, .rangeFault)] fun s =>
    let run := fun (go : State → State) (s : State) =>
      if len = 0 then go s else s.onRegion q .remoteW len fun g s => s.placeWrite q g go (·.releaseCq x.2.1 1)
    let first := fun s : State => if q.accepted then s else s.reserveCq x.2.1 1
    let done := fun s : State =>
      (s.notifyReserved x.2.1 opWRITE_IMM .ok x.1 x.2.2 q.wireId (remImm q.entry + len * 2 ^ 32)).endReq r .ok len
    let bad := if len = 0 ∨ q.accepted then none else match s.holdKey q (remRkey q.entry) .remoteW (remRoff q.entry) len with
      | .error st => some st
      | .ok _ => none
    s.checked r [(bad.isSome, bad.getD .ok)] fun s =>
    if !q.accepted ∧ !s.cqHasFree x.2.1 1 then s.endReq r .busyRetry
    else run done (first s)

/-! ### Atomic operations (R289, R296, R297) -/

/-- Entries of a ledger, and its bytes. -/
def ledgerEntries : Nat := 1024
def ledgerBytes : Nat := 32768

/-- The connection's ledger, allocated at the first atomic. -/
def State.withLedger (s : State) (n : Nat) : Alloc Unit :=
  match s.conn n with
  | none => .limit
  | some c =>
    if c.ledger.isSome then .got () s
    else match s.allocPlain c.tenant c.comp ledgerBytes .ledger with
      | .got f s => .got () (s.modConn n fun c => { c with ledger := some { frame := f } })
      | .full => .full
      | .limit => .limit

/-- Write a ledger entry; one ages out when the ring is full. -/
def Ledger.add (l : Ledger) (x : LedgerEntry) : Ledger :=
  let es := l.entries ++ [x]
  { l with entries := es.drop (es.length - ledgerEntries) }

/-- An atomic operation at the target: applied (a ledger that finds no room takes a victim, R82, R296), entered in the ledger and answered in one step. `f` gives the new bytes from
the old ones, none for no change, and the result; `data` is the response data. -/
def State.atomicRow (s : State) (q : Req) (width : Nat) (f : List Byte → Option (List Byte) × Nat × List Byte) : State :=
  s.onRegion q .remoteA width fun g s =>
  let n := (s.rcqOf q).1
  match s.withLedger n with
  | .limit => s.endReq q.id .capacity
  | .full => s.needSectors q 7 none
  | .got () s =>
    match s.loadTenant q.payer (g.base + remRoff q.entry) width with
    | .error st => s.endRead q (g.base + remRoff q.entry) width st
    | .ok (old, s) =>
      let x := f old
      let write := match x.1 with
        | some bs => s.writeTenant q.payer (g.base + remRoff q.entry) bs
        | none => match s.xlateStatus q.tenant (g.base + remRoff q.entry) width .write with | .ok => .done s | st => .bad st (s.noteFailed q.tenant (g.base + remRoff q.entry) width .write)
      match write with
      | .bad st s => s.endReq q.id st
      | .noSectors => s.needSectors q 7 none
      | .done s =>
        let dataPkts := if x.2.2.isEmpty then 0 else 1
        let psn := match s.conn n with | some c => (c.srsp.next + dataPkts) % seqMod | none => 0
        let e : LedgerEntry := { reqId := q.wireId, psn := psn, status := .ok, width := width, old := leVal old }
        let s := s.modConn n fun c => { c with ledger := c.ledger.map fun l => l.add e }
        let s := s.answer n q.wireId q.epoch x.2.2 (endEntry q.op (hdrUser q.entry) (hdrReqId q.entry) .ok x.2.1) q.age
        (s.modReq q.id fun q => { q with answered := true }).endReq q.id .ok x.2.1

def execFadd (r : Nat) (s : State) : Host.Outcome State Fault Refusal :=
  .next <| s.remoteRow r opFADD [] fun q s =>
    s.atomicRow q 8 fun old => (some (leBytes 8 ((leVal old + remOpa q.entry) % 2 ^ 64)), leVal old, [])

def execSwap (r : Nat) (s : State) : Host.Outcome State Fault Refusal :=
  .next <| s.remoteRow r opSWAP [] fun q s => s.atomicRow q 8 fun old => (some (leBytes 8 (remOpa q.entry)), leVal old, [])

def execCas (r : Nat) (s : State) : Host.Outcome State Fault Refusal :=
  .next <| s.remoteRow r opCAS [] fun q s =>
    s.atomicRow q 8 fun old => (if leVal old = remOpb q.entry then some (leBytes 8 (remOpa q.entry)) else none, leVal old, [])

def execCas128 (r : Nat) (dma : List Byte) (s : State) : Host.Outcome State Fault Refusal :=
  .next <| s.remoteRow r opCAS128 dma fun q s =>
    s.checked r [(decide (q.inlineData.length ≠ 32), .rangeFault)] fun s =>
    s.atomicRow q 16 fun old =>
      let same := old == q.inlineData.take 16
      (if same then some (q.inlineData.drop 16) else none, b2n same, old)

/-- LEDGER_QUERY (R299): the word, read atomically. -/
def execLedgerQuery (r : Nat) (s : State) : Host.Outcome State Fault Refusal :=
  .next <| s.remoteRow r opLEDGER_QUERY [] fun q s =>
    let w := remLen q.entry
    s.checked r [(w != 8 && w != 16, .rangeFault)] fun s =>
    s.onRegion q .remoteA w fun g s =>
    match s.loadTenant q.payer (g.base + remRoff q.entry) w with
    | .error st => s.endRead q (g.base + remRoff q.entry) w st
    | .ok (bs, s) =>
      if w = 8 then s.endReq r .ok (leVal bs) else (s.modReq r fun q => { q with reply := bs }).endReq r .ok 0

/-! ### REMOTE 1 (R274) -/

/-- The entry of an ATTEND as sent: INLINE 1. -/
def inlineEntry (e : BitVec 512) : BitVec 512 := e ||| BitVec.ofNat 512 (2 ^ 138)

/-- The entry of an APPEND as sent: SRC_KEY 0, SRC_OFFSET 0. -/
def appendEntry (e : BitVec 512) : BitVec 512 := BitVec.ofNat 512 (e.toNat - apSrcKey e * 2 ^ 320 - apSrcOffset e * 2 ^ 384)

/-- Convert and send an ATTEND. -/
def State.sendAttend (s : State) (q : Req) (peer : Nat) : State :=
  let e := q.entry
  let recs := if atDest e = 1 then 0 else Config.peerBytes 1 peer e
  let w := if recs = 0 then .ok else s.xlateStatus q.tenant (atResult e) recs .write
  if w ≠ .ok then (s.noteFailed q.tenant (atResult e) recs .write).endReq q.id w
  else match s.loadTenant q.payer (atTable e) (32 * atRows e) with
    | .error st => s.endRead q (atTable e) (32 * atRows e) st
    | .ok (tb, s) =>
      match s.loadTenant q.payer (atQuery e) (Config.peerBytes 0 peer e) with
      | .error st => s.endRead q (atQuery e) (Config.peerBytes 0 peer e) st
      | .ok (qb, s) => s.issueOn q (hdrQp e) (hdrReqId e) (entryBytes (inlineEntry e) ++ tb ++ qb) recs

/-- Convert and send an APPEND. -/
def State.sendAppend (s : State) (q : Req) (peer : Nat) (dma : List Byte) : State :=
  let e := q.entry
  let len := Config.peerBytes 2 peer e
  match s.holdKey q (apSrcKey e) .localR (apSrcOffset e) len with
  | .error st => s.endReq q.id st
  | .ok (g, s) =>
    match s.takeFrom q.payer g (apSrcOffset e) len dma with
    | .error st => s.endRead q (g.base + apSrcOffset e) len st
    | .ok none => s
    | .ok (some (bs, s)) => s.issueOn q (hdrQp e) (hdrReqId e) (entryBytes (appendEntry e) ++ bs) 0

def execRemoteRequest (r : Nat) (dma : List Byte) (s : State) : Host.Outcome State Fault Refusal :=
  .next <|
    match s.req r with
    | none => s
    | some q =>
      match q.origin with
      | .queue _ =>
        if q.phase ≠ .started ∨ q.isLocal ∨ opcodeRemoteOnly q.op ∨ q.remote.isSome ∨ !s.coreRuns ∨ s.stalled r then s
        else
          let peer := match s.conn (hdrQp q.entry) with | some c => c.peer | none => 0
          if q.op = opATTEND then s.gated q fun s => s.sendAttend q peer
          else if q.op = opAPPEND then s.gated q fun s => s.sendAppend q peer dma
          else s.issueOn q (hdrQp q.entry) (hdrReqId q.entry) (entryBytes q.entry) 0
      | _ => s

/-! ### Regions (R282, R283, R285) -/

def rgBase (e : BitVec 512) : Nat := fld e 511 448
def rgLength (e : BitVec 512) : Nat := fld e 447 384
def rgComp (e : BitVec 512) : Nat := fld e 383 368

/-- Region slots of a node. -/
def maxRegions : Nat := 1048576

/-- The region that an entry describes. -/
def regionOf (t : Nat) (e : BitVec 512) (slot gen : Nat) : Region :=
  { slot := slot, gen := gen, tenant := t, base := rgBase e, length := rgLength e, comp := rgComp e, anyComp := flag e 367, host := flag e 360,
    remoteA := flag e 356, remoteW := flag e 355, remoteR := flag e 354, localW := flag e 353, localR := flag e 352 }

/-- Host ranges that a tenant may register: its LD's DMA range, and the adapters of the composition named (R321). -/
def State.hostRanges (s : State) (t : Nat) (g : Region) : List (Nat × Nat) :=
  let ld := s.tenantLd t
  let dma := if ld < 16 then [(s.scalar (0x3230 + ld) 3, s.scalar (0x3230 + ld) 4)] else []
  let ads := if g.anyComp then [] else match s.compById g.comp with
    | some c => if c.tenant = t then ((c.map.map (·.adapters)).getD []).filterMap fun a => if a.via = 0 then some (a.base, a.length) else none else []
    | none => []
  dma ++ ads

/-- The range lies in SEQ-0 entries with R, and W where it is needed (R283). -/
def State.granulesOk (s : State) (t : Nat) (g : Region) : Bool :=
  let ms := s.mem.maps.filter fun m => m.tenant == t && decide (m.addr < g.base + g.length) && decide (g.base < m.addr + s.frameSize m.frame)
  let w := g.remoteA || g.remoteW || g.localW
  let inSwap := fun n => match s.frame n with | some f => f.place.isSwap | none => true
  let part := fun m : Mapping => min (g.base + g.length) (m.addr + s.frameSize m.frame) - max g.base m.addr
  ms.all (fun m => !m.seq && m.r && (m.w || !w) && !inSwap m.frame) && sumOf part ms == g.length

/-- The checks of R283. -/
def State.regChecks (s : State) (q : Req) : List (Bool × Status) :=
  let g := regionOf q.tenant q.entry 0 0
  let rights := g.remoteA || g.remoteW || g.remoteR || g.localW || g.localR
  [(decide (g.base % 64 ≠ 0) || decide (g.length % 64 ≠ 0) || decide (g.length < 64) || decide (addrEnd < g.length) ||
    (!g.host && decide (addrEnd < g.base + g.length)) ||
    (g.host && !(s.hostRanges q.tenant g).any fun x => decide (x.1 ≤ g.base) && decide (g.base + g.length ≤ x.1 + x.2)) ||
    (g.remoteA && g.host) || !rights, .rangeFault),
   (!g.host && !s.granulesOk q.tenant g, .rangeFault),
   (decide (s.tenantObj q.tenant 0xB ≤ (s.fab.regions.filter (·.tenant == q.tenant)).length), .capacity)]

/-- Generation and former tenant of a region slot. -/
def State.regionGen (s : State) (slot : Nat) : RegionGen :=
  (s.gens.regions.find? (·.slot == slot)).getD { slot := slot, gen := 1, prevTenant := noTenant }

def State.setRegionGen (s : State) (x : RegionGen) : State :=
  { s with gens := { s.gens with regions := x :: dropWhere (·.slot == x.slot) s.gens.regions } }

def execReg (r : Nat) (s : State) : Host.Outcome State Fault Refusal :=
  .next <| s.runReq r [opREG] fun q s =>
    s.checked r (s.regChecks q) fun s =>
      match lowestFree (s.fab.regions.map (·.slot)) maxRegions with
      | none => s.endReq r .capacity
      | some slot =>
        let x := s.regionGen slot
        let g := regionOf q.tenant q.entry slot x.gen
        (({ s with fab := { s.fab with regions := s.fab.regions ++ [g] } }).setRegionGen x).okReq q (slot * 256 + x.gen)

def rvKey (e : BitVec 512) : Nat := fld e 159 128

/-- The generation before another; 0 is skipped. -/
def genBefore (g : Nat) : Nat := if g ≤ 1 then 255 else g - 1

/-- R285 step 1: the slot's generation advances, and the region, its uses draining, answers to no key. -/
def State.advanceRegion (s : State) (g : Region) : State :=
  (s.modRegion g.slot fun g => { g with gen := 0 }).setRegionGen { slot := g.slot, gen := g.gen % 255 + 1, prevTenant := g.tenant }

/-- R285 step 3. -/
def State.freeRegion (s : State) (slot : Nat) : State :=
  ({ s with fab := { s.fab with regions := dropWhere (·.slot == slot) s.fab.regions } }).count 0x6400 7

/-- Draining regions that no request holds any more are freed, but for those that a REVOKE under way frees. -/
def State.sweepRegions (s : State) : State :=
  (s.fab.regions.filter fun g => g.gen == 0 && s.regionUses g.slot == 0 &&
    !s.reqs.any fun q => q.live && q.accepted && q.op == opREVOKE && q.count != 0 && rvKey q.entry / 256 == g.slot).foldl (fun s g => s.freeRegion g.slot) s

/-- A key of the generation before: its former tenant learns that the revocation has taken effect. -/
def State.oldKey (s : State) (q : Req) (slot gen : Nat) : State :=
  let x := s.regionGen slot
  if gen ≠ 0 ∧ gen = genBefore x.gen ∧ x.prevTenant = q.tenant then
    if (s.region slot).any (·.gen == 0) then s.accept q.id [] else s.endReq q.id .revoked
  else s.endReq q.id .keyFault

def execRevoke (r : Nat) (s : State) : Host.Outcome State Fault Refusal :=
  .next <| s.runReq r [opREVOKE] fun q s =>
    let key := rvKey q.entry
    let slot := key / 256
    if q.accepted then
      if q.count = 0 then (if (s.region slot).any (·.gen == 0) then s else s.endReq r .revoked)
      else if s.regionUses slot = 0 then (s.freeRegion slot).okReq q (q.count - 1)
      else s
    else match s.region slot with
      | some g =>
        if key % 256 ≠ 0 ∧ g.gen = key % 256 ∧ g.tenant = q.tenant then
          let n := s.regionUses slot
          let s := s.advanceRegion g
          if n = 0 then (s.freeRegion slot).okReq q 0
          else (s.modReq r fun q => { q with count := n + 1 }).accept r []
        else s.oldKey q slot (key % 256)
      | none => s.oldKey q slot (key % 256)
end Sys2Proof.Machine
end

