-- ==== Sys2Proof/Machine/Window.lean ====
section
/-! DEFINITION. Sys2Proof/Machine/Window.lean: apertures (R339, R340), the rack window (R300-R304, R347) and its accesses. -/

namespace Sys2Proof.Machine

open Sys2Proof

/-! ### Apertures (R339) -/

structure Aperture where
  taddr : Nat
  length : Nat
  base : Nat
  tenant : Nat
  kind : Nat
  deriving DecidableEq, Repr

def apertureOf (bs : List Byte) : Aperture :=
  let x := leVal bs
  { taddr := bits x 255 192, length := bits x 191 128, base := bits x 127 64, tenant := bits x 63 52, kind := bits x 51 50 }

/-- The 64 entries in a value. -/
def aperturesIn (bs : List Byte) : List Aperture := (chunks 32 64 bs).map apertureOf

/-- Entry `i` of an LD. -/
def State.aperture (s : State) (ld i : Nat) : Aperture := apertureOf (s.octets (0x3230 + ld) 2 (32 * i) 32)

/-- Entries whose bytes are not all default. -/
def State.usedApertures (s : State) (ld : Nat) : List Aperture :=
  ((s.octs.filterMap fun c => if c.1 / octSpan = objKey (0x3230 + ld) 2 then some (c.1 % octSpan / 32) else none).dedup.map
    (s.aperture ld)).filter fun a => a.kind != 0

/-- The window aperture of a tenant on an LD. -/
def State.windowAperture (s : State) (ld t : Nat) : Option Aperture :=
  (s.usedApertures ld).find? fun a => a.kind == 2 && a.tenant == t

/-! ### Engines (R275, R304, R320) -/

/-- Requests that hold an engine slot, as (connection, composition): queued ones, and window accesses not yet issued. -/
def State.engineHolds (s : State) : List (Nat × Nat) :=
  (s.reqs.filterMap fun q => q.onConn.map fun n => (n, q.comp)) ++
  (s.fab.winOps.filter fun o => o.taken && o.req.isNone).map fun o => (o.qp, match s.conn o.qp with | some c => c.comp | none => noComp)

/-- Most requests of an engine and of a queue pair. -/
def engineMost : Nat := 512

/-- Unit number of a connection's remote-access engine: the one that R275 gives, or the next of its die in service
(R399). -/
def State.engineUnit (s : State) (n : Nat) : Nat :=
  let us := (List.range 8).map fun i => 8 * s.homeDie n + (s.engineOf n + i) % 8
  (us.find? fun u => s.inService .remoteEngine u).getD (8 * s.homeDie n + s.engineOf n)

/-- An engine slot is free for one more request on a connection of a composition. -/
def State.engineRoom (s : State) (n slot : Nat) : Bool :=
  let l := s.engineHolds
  decide ((l.filter (·.1 == n)).length < engineMost) &&
  decide ((l.filter fun x => s.engineUnit x.1 == s.engineUnit n).length < engineMost) &&
  decide ((l.filter fun x => x.2 == slot && s.homeDie x.1 == s.homeDie n).length < s.scalar (0x5000 + slot) 0xC) &&
  s.inService .remoteEngine (s.engineUnit n)

/-! ### Window accesses (R302, R303) -/

/-- The queue pair of an entry exists, is the tenant's and OPEN. -/
def State.qpOpen (s : State) (t n : Nat) : Bool :=
  match s.conn n with
  | some c => c.tenant == t && c.state == .opened
  | none => false

def winSlot (a : Nat) : Nat := bits a 47 42
def winOff (a : Nat) : Nat := a % 2 ^ 42

def State.window (s : State) (t slot : Nat) : Option Window := s.fab.windows.find? fun w => w.tenant == t && w.slot == slot

/-- Queue pair of an access. -/
def Window.qpFor (w : Window) (off : Nat) : Nat := w.qp0 + off / 64 % max 1 w.nqp

def State.modWinOp (s : State) (id : Nat) (f : WinOp → WinOp) : State :=
  { s with fab := { s.fab with winOps := modWhere (·.id == id) f s.fab.winOps } }

/-- A failed access: counted, and reported (R302, R303, R357). -/
def State.winFault (s : State) (ld t dpa addr : Nat) (write : Bool) : State :=
  ((s.count 0x6400 0xC).vendorRecord ld vcWindow write t dpa addr).raiseTenant t kindWindow

/-- An earlier access to the same line must end first: one of the two is a write. -/
def WinOp.blocks (x o : WinOp) : Bool :=
  decide (x.id < o.id) && x.tenant == o.tenant && x.addr == o.addr && (x.write.isSome || o.write.isSome)

/-- The work entry of a window access. -/
def winEntry (o : WinOp) (reqId : Nat) : BitVec 512 :=
  BitVec.ofNat 512 ((o.rbase + winOff o.addr) * 2 ^ 448 + o.rkey * 2 ^ 416 + 64 * 2 ^ 288 + o.qp * 2 ^ 64 + reqId * 2 ^ 32 + o.tenant * 2 ^ 16 +
    (if o.write.isSome then opWRITE else opREAD))

/-- Make the request of a window access and issue it; it fails where its queue pair is gone. -/
def State.winIssue (s : State) (o : WinOp) : State :=
  let slot := match s.conn o.qp with | some c => c.comp | none => noComp
  let id := s.freshReqId o.qp
  let e := winEntry o id
  let q : Req := { id := s.nextReq, origin := .window o.id, tenant := o.tenant, comp := slot,
                   loan := match s.comp slot with | some c => c.loan | none => false, entry := e }
  let s := { s with reqs := s.reqs ++ [q], nextReq := s.nextReq + 1 }
  let data := match o.write with | some x => lineBytes x | none => []
  (s.modWinOp o.id fun o => { o with req := some q.id }).issueOn q o.qp id (entryBytes e ++ data) (if o.write.isSome then 0 else 64)

/-- Give an access an engine slot; a write then completes to the host. -/
def State.winTake (s : State) (o : WinOp) : State :=
  let s := s.modWinOp o.id fun o => { o with taken := true }
  if o.write.isSome then s.emit (.hostDone o.ld) else s

/-- An access that meets no queue pair that takes new requests fails at once, as one to an unbound slot does (R243, R302, R303). -/
def State.winLose (s : State) (o : WinOp) : State :=
  let s := { s with fab := { s.fab with winOps := dropWhere (·.id == o.id) s.fab.winOps } }
  let s := if o.late then s else s.winFault o.ld o.tenant o.dpa o.addr o.write.isSome
  if o.write.isSome then s.emit (.hostDone o.ld) else if o.late then s else s.undefLine o.ld

/-- One access, in acceptance order: it takes a slot, and is issued once no earlier access to its line is outstanding. -/
def State.winStep (s : State) (id : Nat) : State :=
  match s.fab.winOps.find? (·.id == id) with
  | none => s
  | some o =>
    if !o.taken ∧ !s.qpOpen o.tenant o.qp then s.winLose o
    else
      let slot := match s.conn o.qp with | some c => c.comp | none => noComp
      let s := if !o.taken ∧ s.engineRoom o.qp slot then s.winTake o else s
      match s.fab.winOps.find? (·.id == id) with
      | none => s
      | some o => if o.req.isNone ∧ o.taken ∧ !s.fab.winOps.any (fun x => x.blocks o) then s.winIssue o else s

/-- Let every waiting access go as far as it can. -/
def State.winPump (s : State) : State := (s.fab.winOps.map (·.id)).foldl State.winStep s

/-- A host access to a window aperture. -/
def State.winAccess (s : State) (ld t addr : Nat) (write : Option (BitVec 512)) : State :=
  match s.windowAperture ld t with
  | none => s
  | some a =>
    if !s.node.powered ∨ a.length ≤ addr then s
    else
      let dpa := a.base + addr
      if !s.coreRuns then
        let s := s.vendorRecord ld vcBanked write.isSome t dpa addr
        if write.isSome then s.emit (.hostDone ld) else s.undefLine ld
      else
        let s := s.count 0x6400 (if write.isSome then 0xB else 0xA)
        match s.window t (winSlot addr) with
        | none =>
          let s := s.winFault ld t dpa addr write.isSome
          if write.isSome then s.emit (.hostDone ld) else s.undefLine ld
        | some w =>
          let o : WinOp := { id := s.fab.nextWin, ld := ld, tenant := t, qp := w.qpFor (winOff addr), dpa := dpa, addr := addr, slot := w.slot,
                             rbase := w.rbase, rkey := w.rkey, write := write }
          ({ s with fab := { s.fab with winOps := s.fab.winOps ++ [o], nextWin := s.fab.nextWin + 1 } }).winPump

def execWindowRead (ld tenant addr : Nat) (s : State) : Host.Outcome State Fault Refusal := .next (s.winAccess ld tenant addr none)

def execWindowWrite (ld tenant addr : Nat) (line : BitVec 512) (s : State) : Host.Outcome State Fault Refusal :=
  .next (s.winAccess ld tenant addr (some line))

/-! ### WINSYNC (R347) -/

/-- Answer the WINSYNC reads that wait for nothing more. -/
def State.winSyncs (s : State) : State :=
  let done := s.fab.winSyncs.filter (·.waitFor.isEmpty)
  let s := { s with fab := { s.fab with winSyncs := dropWhere (·.waitFor.isEmpty) s.fab.winSyncs } }
  done.foldl (fun s x => s.emit (.winsync x.ld x.tenant x.failed)) s

/-- A window write has ended: the reads that wait for it wait no more, and a failure counts with the first of them. -/
def creditSyncs (id : Nat) (failed : Bool) : List WinSync → List WinSync
  | [] => []
  | x :: xs =>
    if x.waitFor.contains id then
      { x with waitFor := x.waitFor.erase id, failed := x.failed + b2n failed } :: creditSyncs id false xs
    else x :: creditSyncs id failed xs

def State.winWriteEnded (s : State) (o : WinOp) (failed : Bool) : State :=
  let waited := s.fab.winSyncs.any fun x => x.waitFor.contains o.id
  let s := { s with fab := { s.fab with winSyncs := creditSyncs o.id failed s.fab.winSyncs } }
  let s := if failed ∧ !waited then
      { s with fab := { s.fab with winFails := assocPut s.fab.winFails o.tenant (assocGet s.fab.winFails o.tenant 0 + 1) 0 } }
    else s
  s.winSyncs

def execWinsyncRead (ld tenant : Nat) (s : State) : Host.Outcome State Fault Refusal :=
  .next <|
    if !s.node.powered then s
    else if s.tenantLd tenant ≠ ld then s.emit (.winsync ld tenant 0)
    else
      let ids := (s.fab.winOps.filter fun o => o.tenant == tenant && o.taken && o.write.isSome).map (·.id)
      let x : WinSync := { ld := ld, tenant := tenant, waitFor := ids, failed := assocGet s.fab.winFails tenant 0 }
      ({ s with fab := { s.fab with winSyncs := s.fab.winSyncs ++ [x], winFails := assocPut s.fab.winFails tenant 0 0 } }).winSyncs

/-! ### The end of an access -/

/-- A window access has ended with a status and, for a read, its line. -/
def State.winEnd (s : State) (op : Nat) (st : Status) (reply : List Byte) : State :=
  match s.fab.winOps.find? (·.id == op) with
  | none => s
  | some o =>
    let good := st == .ok
    let s := { s with fab := { s.fab with winOps := dropWhere (·.id == op) s.fab.winOps } }
    let s := if good ∨ o.late then s else s.winFault o.ld o.tenant o.dpa o.addr o.write.isSome
    let s := match o.write with
      | some _ => s.winWriteEnded o (!good)
      | none => if o.late then s else if good then s.emit (.hostLine o.ld (lineOf reply)) else s.undefLine o.ld
    s

def execWinLimitExpiry (op : Nat) (s : State) : Host.Outcome State Fault Refusal :=
  .next <|
    match s.fab.winOps.find? (·.id == op) with
    | none => s
    | some o =>
      if o.write.isSome ∨ o.late then s
      else
        let s := (((s.undefLine o.ld).count 0x6400 0xD).vendorRecord o.ld vcWindow false o.tenant o.dpa o.addr).raiseTenant o.tenant kindWindow
        if o.taken then s.modWinOp op fun o => { o with late := true }
        else { s with fab := { s.fab with winOps := dropWhere (·.id == op) s.fab.winOps } }

/-! ### WIN_BIND (R301) -/

def wbRbase (e : BitVec 512) : Nat := fld e 511 448
def wbRkey (e : BitVec 512) : Nat := fld e 447 416
def wbQp0 (e : BitVec 512) : Nat := fld e 415 392
def wbNqp (e : BitVec 512) : Nat := fld e 391 387
def wbSlot (e : BitVec 512) : Nat := fld e 133 128

/-- Every named queue pair is OPEN, of the tenant and of one peer. -/
def State.windowQps (s : State) (t qp0 n : Nat) : Bool :=
  let cs := (List.range n).map fun i => s.conn (qp0 + i)
  match cs with
  | some c0 :: _ => cs.all fun x => match x with | some c => c.state == .opened && c.tenant == t && c.peer == c0.peer | none => false
  | _ => false

def State.setWindow (s : State) (t slot : Nat) (w : Option Window) : State :=
  let rest := dropWhere (fun x : Window => x.tenant == t && x.slot == slot) s.fab.windows
  { s with fab := { s.fab with windows := match w with | some w => w :: rest | none => rest } }

def execWinBind (r : Nat) (s : State) : Host.Outcome State Fault Refusal :=
  .next <| s.runReq r [opWIN_BIND] fun q s =>
    let e := q.entry
    let n := wbNqp e
    if q.accepted then
      if s.fab.winOps.any fun o => q.after.contains o.id then s else s.okReq q 0
    else s.checked r
      [(decide (wbRbase e % 64 ≠ 0) || decide (16 < n), .rangeFault), (n != 0 && !s.windowQps q.tenant (wbQp0 e) n, .keyFault)] fun s =>
      let ids := (s.fab.winOps.filter fun o => o.tenant == q.tenant && o.slot == wbSlot e).map (·.id)
      let s := s.setWindow q.tenant (wbSlot e) (if n = 0 then none else some ⟨q.tenant, wbSlot e, wbRbase e, wbRkey e, wbQp0 e, n⟩)
      if ids.isEmpty then s.okReq q 0 else s.accept r ids

end Sys2Proof.Machine
end

