-- ==== Sys2Proof/Machine/Queues.lean ====
section
/-! DEFINITION. Sys2Proof/Machine/Queues.lean: doorbells (R345, R346), starting a work entry (R267-R269, R275), the end of a
request (R267, R270, R291, R292), FENCE and WAIT_COUNT (R294, R295). -/

namespace Sys2Proof.Machine

open Sys2Proof

/-! ### Doorbells (R346) -/

/-- `b - a` of two free-running indices. -/
def ringDist (a b : BitVec 32) : Nat := (b - a).toNat

/-- A PI write moves forward, and not more than the ring beyond CI (DEDUCED, log 33). -/
def Wq.piOk (w : Wq) (v : BitVec 32) : Bool :=
  !w.stopped && decide (ringDist w.ci v ≤ 2 ^ w.log2) && decide (ringDist w.ci w.pi ≤ ringDist w.ci v)

/-- PI of a completion queue. -/
def Cq.pi (c : Cq) : BitVec 32 := BitVec.ofNat 32 c.written

/-- A CI write moves forward, and not past PI. -/
def Cq.ciOk (c : Cq) (v : BitVec 32) : Bool := decide (ringDist v c.pi ≤ 2 ^ c.log2) && decide (ringDist v c.pi ≤ ringDist c.ci c.pi)

/-- A doorbell write that is discarded (R346). -/
def State.doorbellFault (s : State) (ld tenant : Nat) : State := (s.count (0x3230 + ld) 7).raiseTenant tenant kindDoorbell

/-- What a host reads in BAR2 of an LD at a register's offset, WINSYNC apart, whose read is a command: PI, CI and ENDED of a work queue,
CI and PI of a completion queue. Queues of other LDs and every other offset read 0 (R345). -/
def State.bar2Word (s : State) (ld off : Nat) : Nat :=
  let n := off % 0x4000000 / 4096
  let r := off % 4096
  if off / 0x4000000 = 0 then
    match s.wq n with
    | some w => if w.ld ≠ ld ∨ w.dead then 0 else if r = 0 then w.pi.toNat else if r = 8 then w.ci.toNat else if r = 0x10 then w.ended else 0
    | none => 0
  else if off / 0x4000000 = 1 then
    match s.cq n with
    | some c => if c.ld ≠ ld then 0 else if r = 0 then c.ci.toNat else if r = 8 then c.written % 2 ^ 32 else 0
    | none => 0
  else 0

/-- The 8 bytes at BAR0 offset 0x2_0000: LTIME (R27, R344). -/
def State.bar0Ltime (s : State) : List Byte := leBytes 8 s.clk.ltime.toNat

def execPiDoorbellWrite (ld q : Nat) (v : BitVec 32) (s : State) : Host.Outcome State Fault Refusal :=
  .next <|
    match s.wq q with
    | none => s
    | some w =>
      if !s.node.powered ∨ w.ld ≠ ld ∨ w.dead then s
      else if w.piOk v then s.modWq q fun w => { w with pi := v }
      else s.doorbellFault ld w.tenant

def execCqCiDoorbellWrite (ld q : Nat) (v : BitVec 32) (s : State) : Host.Outcome State Fault Refusal :=
  .next <|
    match s.cq q with
    | none => s
    | some c =>
      if !s.node.powered ∨ c.ld ≠ ld then s
      else if c.ciOk v then s.modCq q fun c => { c with ci := v }
      else s.doorbellFault ld c.tenant

/-! ### Starting an entry (R267-R269, R275) -/

/-- Queues start entries (R448, R450). -/
def State.startsEntries (s : State) : Bool := s.node.powered && s.node.phase == .running

/-- An entry can be taken from a queue. -/
def State.mayStart (s : State) (w : Wq) : Bool :=
  s.startsEntries && !w.stopped && !w.dead && w.holder.isNone && w.ci != w.pi && s.dmaOk w.ld && s.cqHasFree w.cq 1

/-- The queue's composition or tenant is being given up (R269). -/
def State.queueRevoked (s : State) (w : Wq) : Bool :=
  !s.tenantActive w.tenant || (match s.comp w.comp with | some c => c.state != .active | none => true)

/-- SILENT is permitted. -/
def silentOk (e : BitVec 512) : Bool := !hdrSilent e || hdrOpcode e == opWRITE || hdrOpcode e == opWRITE_IMM

/-- The header checks of R269, in order. -/
def State.headerChecks (s : State) (w : Wq) (e : BitVec 512) : List (Bool × Status) :=
  [(s.queueRevoked w, .revoked),
   (hdrTenant e != w.tenant, .keyFault),
   (!opcodeDefined (hdrOpcode e), .rangeFault),
   ((hdrRemote e && opcodeLocalOnly (hdrOpcode e)) || !silentOk e, .rangeFault),
   (usesQp e && !s.qpOpen w.tenant (hdrQp e), .keyFault),
   (usesQp e && (s.usedIds (hdrQp e)).contains (hdrReqId e), .rangeFault)]

/-- Does an entry take a slot of a remote-access engine (R275)? -/
def usesEngine (e : BitVec 512) : Bool := opcodeRemoteOnly (hdrOpcode e) || (hdrRemote e && decide (hdrOpcode e < 0x74))

/-- Entries behind an aborted WAIT_COUNT that have not been taken (R295). -/
def Wq.aborting (w : Wq) : Bool := match w.abortTo with | some p => decide (0 < ringDist w.ci p) && decide (ringDist w.ci p < 2 ^ 31) | none => false

/-- Take an entry: CI advances, a completion slot is reserved, and the request starts or has ended. -/
def State.takeEntry (s : State) (w : Wq) (e : BitVec 512) (st : Option Status) : State :=
  let r := s.nextReq
  let holds := st.isNone && (hdrOpcode e == opFENCE || hdrOpcode e == opWAIT_COUNT)
  let before := (s.reqs.filter fun q => q.origin == .queue w.num && q.live).map (·.id)
  let q : Req := { id := r, origin := .queue w.num, tenant := w.tenant, comp := w.comp,
                   loan := match s.comp w.comp with | some c => c.loan | none => false, entry := e,
                   phase := match st with | some x => .ended x 0 | none => .started,
                   after := if hdrOpcode e = opFENCE then before else [] }
  let s := { s with reqs := s.reqs ++ [q], nextReq := s.nextReq + 1 }
  (s.reserveCq w.cq 1).modWq w.num fun w =>
    { w with
      ci := w.ci + 1, holder := if holds then some r else w.holder,
      abortTo := if w.abortTo = some (w.ci + 1) then none else w.abortTo }

def execWorkEntryStart (q : Nat) (e : BitVec 512) (s : State) : Host.Outcome State Fault Refusal :=
  .next <|
    match s.wq q with
    | none => s
    | some w =>
      if !s.mayStart w then s
      else if w.aborting then s.takeEntry w e (some .timeout)
      else match firstFail (s.headerChecks w e) with
        | some st => s.takeEntry w e (some st)
        | none => if usesEngine e && !s.engineRoom (hdrQp e) w.comp then s else s.takeEntry w e none

/-! ### The end of a request -/

/-- Let WAIT_COUNT and FENCE requests look again. -/
def State.wakeHolders (s : State) : State := (s.wake .queueFence).wake .waitCount

/-- Remove a request that has been reported; drained regions are freed, and accesses that wait for an engine and requests that wait for their
turn look again. -/
def State.removeReq (s : State) (r : Nat) : State :=
  (({ s with reqs := dropWhere (·.id == r) s.reqs }).sweepRegions).turns.winPump

/-- QP of a completion entry: 0 for a request that used none. -/
def entryQp (e : BitVec 512) : Nat := if usesQp e then hdrQp e else 0

/-- Write a request's completion entry and raise its event if it asks. -/
def State.complete (s : State) (w : Wq) (e : BitVec 512) (st : Status) (result : Nat) : State :=
  let s := s.writeCqe w.cq false (hdrOpcode e) st.code (entryQp e) (hdrUser e) (hdrReqId e) result
  if hdrEvent e then s.raiseCq w.cq else s

/-- The request of a work queue ends: completion entry, then ENDED (R267). -/
def State.queueEnd (s : State) (q : Req) (n : Nat) (st : Status) (result : Nat) : State :=
  match s.wq n with
  | none => s
  | some w =>
    let silent := hdrSilent q.entry && silentOk q.entry && st == .ok
    let s := if silent ∨ w.dead ∨ !s.dmaOk w.ld then s else s.complete w q.entry st result
    let s := (s.releaseCq w.cq 1).modWq n fun w =>
      { w with ended := (w.ended + 1) % 2 ^ 64, holder := if w.holder = some q.id then none else w.holder }
    s.wakeHolders

/-- A queue that a reset has destroyed is gone with its last request (R454). -/
def State.dropDead (s : State) (n : Nat) : State :=
  if s.reqs.any (·.origin == .queue n) then s else { s with wqs := dropWhere (fun w => w.num == n && w.dead) s.wqs }

/-- The connection still carries answers. -/
def State.connAnswers (s : State) (n : Nat) : Bool :=
  match s.conn n with
  | some c => c.state == .opened || c.state == .draining
  | none => false

/-- A WRITE of the stream of an ANNEAL has ended (R332). -/
def State.streamEnd (s : State) (slot r : Nat) (st : Status) : State :=
  { s with reclaims := modWhere (·.slot == slot) (fun x =>
      { x with sent := x.sent.erase r, failed := if st = .ok then x.failed else x.failed.orElse fun _ => some st }) s.reclaims }

/-- Answer the peer that sent a request (R291, R292). -/
def State.remoteAnswer (s : State) (q : Req) (n som : Nat) (st : Status) (result : Nat) : State :=
  if q.answered ∨ !s.connAnswers n then s
  else if hdrSilent q.entry && silentOk q.entry && st == .ok then
    ({ s with fab := { s.fab with compAcks := (n, som, q.wireId) :: s.fab.compAcks } }).compAck n som q.wireId
  else
    let data := if st = .ok ∨ st = .partialSkipped then q.reply else []
    s.answer n q.wireId q.epoch data (endEntry q.op (hdrUser q.entry) (hdrReqId q.entry) st result) q.age q.answerHop

/-- A request counts in its composition's METERS when it ends (R325) (DEDUCED, log 34). -/
def State.meterEnd (s : State) (q : Req) : State :=
  s.modComp q.comp fun c => { c with meters := { c.meters with requests := c.meters.requests + 1 } }

/-- A request that a rehearsed channel loss ended counts only in REH_MEDIA (R441, DEDUCED, log 24). -/
def State.countReh (s : State) (st : Status) : State :=
  if st = .mediaError ∧ s.flt.rehearsals.any (·.kind == rehChannel) ∧ s.mem.frames.all (·.badLines.isEmpty) then s.count 0x6000 0x31 else s

/-- Report an ended request to whoever sent it, and forget it. -/
def State.report (s : State) (q : Req) (st : Status) (result : Nat) : State :=
  let s := s.countReh st
  match q.origin with
  | .queue n =>
    let s := (((s.queueEnd q n st result).meterEnd q).removeReq q.id).dropDead n
    match q.onConn with
    | some n => s.closeIfIdle n
    | none => s
  | .remote n som => (((s.remoteAnswer q n som st result).meterEnd q).removeReq q.id |>.advanceFence n q.wireId).closeIfIdle n
  | .mailbox ld =>
    (s.modLd ld fun l => { l with background := l.background.map fun b => { b with status := some st, output := List.replicate 7 0 ++ leBytes 8 result } }).removeReq q.id
  | .stream slot => (s.streamEnd slot q.id st).removeReq q.id
  | .window op =>
    let s := (((s.winEnd op st q.reply).meterEnd q).removeReq q.id)
    match q.onConn with
    | some n => s.closeIfIdle n
    | none => s

/-- Result of a failing ATTEND (R127): the row at fault, which no loss of its context and no revocation has; where it ran on another node, the one
that its target reported. Of any other request as it ended. -/
def Req.result (q : Req) (st : Status) (result : Nat) : Nat :=
  if q.op = opATTEND ∧ st ≠ .ok ∧ st ≠ .partialSkipped ∧ !(q.remote.any fun o => !o.merge && o.ended) then
    (if st = .contextLost ∨ st = .revoked then 0xFFFF else q.row.getD 0xFFFF)
  else result

/-- A contribution that failed sends its final message before its request is reported (R123). -/
def State.lastMessage (s : State) (q : Req) (st : Status) (result : Nat) : State :=
  if q.finalDue then s.failContribution q st result ((q.att.map fun a => a.geom.dvOut).getD 0) else s

/-- A request that ended well completes when all its commands have completed (R157). -/
def State.cmdsDone (s : State) (q : Req) : Bool :=
  match q.phase with
  | .ended .ok _ | .ended .partialSkipped _ => !s.hasCmds q.id
  | _ => true

/-- May a request be reported: its commands are complete, and DMA to its queue's LD is permitted (R454)? -/
def State.mayReport (s : State) (q : Req) : Bool :=
  s.cmdsDone q &&
  match q.origin with
  | .queue n => match s.wq n with | some w => w.dead || s.dmaOk w.ld | none => true
  | _ => true

/-- End a request whose effects are over. -/
def State.finish (s : State) (r : Nat) : State :=
  match s.req r with
  | none => s
  | some q =>
    match q.phase with
    | .ended st res =>
      let s := s.lastMessage q st (q.result st res)
      match s.req r with
      | none => s
      | some q =>
        match q.phase with
        | .ended st res =>
          let s := q.newFrames.foldl (fun s x => s.releaseFrame x.2) s
          s.report q st (q.result st res)
        | _ => s
    | _ => s

def execRequestEnd (r : Nat) (s : State) : Host.Outcome State Fault Refusal :=
  .next <|
    match s.req r with
    | none => s
    | some q => if s.node.powered && s.mayReport q then s.finish r else s

/-! ### FENCE and WAIT_COUNT (R294, R295) -/

def execFence (r : Nat) (s : State) : Host.Outcome State Fault Refusal :=
  .next <| s.runReq r [opFENCE] fun q s => if s.anyLive q.after then s.waitReq r .queueFence else s.okReq q q.after.length

def wcAbort (e : BitVec 512) : Bool := flag e 288
def wcN (e : BitVec 512) : Nat := fld e 255 192
def wcQueue (e : BitVec 512) : Nat := fld e 141 128

def execWaitCount (r : Nat) (s : State) : Host.Outcome State Fault Refusal :=
  .next <| s.runReq r [opWAIT_COUNT] fun q s =>
    match s.wq (wcQueue q.entry) with
    | none => s.endReq r .keyFault
    | some w =>
      if w.tenant ≠ q.tenant ∨ w.dead then s.endReq r .keyFault
      else if wcN q.entry ≤ w.ended then s.okReq q w.ended
      else s.waitReq r .waitCount

/-- ENDED of the queue that a WAIT_COUNT watches. -/
def State.watched (s : State) (e : BitVec 512) : Nat := match s.wq (wcQueue e) with | some w => w.ended | none => 0

def execWaitCountTimeout (r : Nat) (s : State) : Host.Outcome State Fault Refusal :=
  .next <|
    match s.req r with
    | none => s
    | some q =>
      match q.origin with
      | .queue n =>
        if q.phase = .waiting .waitCount ∧ s.coreRuns then
          let s := if wcAbort q.entry then s.modWq n fun w => { w with abortTo := if w.ci = w.pi then w.abortTo else some w.pi } else s
          s.endReq r .timeout (s.watched q.entry)
        else s
      | _ => s

end Sys2Proof.Machine
end

