-- ==== Sys2Proof/Machine/Prefix.lean ====
section
/-! DEFINITION. Sys2Proof/Machine/Prefix.lean: the prefix search unit (chapter 08). -/

namespace Sys2Proof.Machine

open Sys2Proof

/-- The unit is fitted, else the request ends with UNIT_ABSENT (R214). -/
def State.psRow (s : State) (r op : Nat) (go : Req → State → State) : State :=
  s.runReq r [op] fun q s => if s.variant.prefixUnit then go q s else s.endReq r .unitAbsent

/-! ### PS_INSERT (R215, R216) -/

def piCkey (e : BitVec 512) : BitVec 256 := e.extractLsb' 256 256
def piMkey (e : BitVec 512) : BitVec 64 := e.extractLsb' 192 64
def piPage (e : BitVec 512) : Nat := fld e 191 176

/-- The lowest free slot of a bank. -/
def State.freePs (s : State) (bank : Nat) : Option Nat := lowestFree ((s.ps.filter (·.bank == bank)).map (·.slot)) psSlots

/-- The place of a new entry: its home bank, else its spill bank. -/
def State.psPlace (s : State) (tag : BitVec 64) : Option (Nat × Nat) :=
  match s.freePs (homeBank tag) with
  | some i => some (homeBank tag, i)
  | none => (s.freePs (spillBank tag)).map fun i => (spillBank tag, i)

/-- Entries that a tenant may hold. -/
def State.psLimit (s : State) (t : Nat) : Nat := s.tenantObj t 0xC

def State.insertChecks (s : State) (q : Req) (x : Seq) : List (Bool × Status) :=
  let page := piPage q.entry
  [(x.state != .active, .preempted),
   (decide (x.length < 256 * (page + 1)) || s.ps.any (fun e => e.handle == x.handle && e.page == page), .rangeFault),
   (decide (s.psLimit q.tenant ≤ (s.ps.filter (·.tenant == q.tenant)).length), .capacity)]

/-- Generation of a slot's next entry: it advances with each reuse, skipping 0. -/
def State.psGen (s : State) (bank slot : Nat) : Nat := assocGet s.gens.prefixes (bank * psSlots + slot) 0 % 255 + 1

def execPsInsert (r : Nat) (s : State) : Host.Outcome State Fault Refusal :=
  .next <| s.psRow r opPS_INSERT fun q s =>
    s.onSeq q (opHandle q.entry) fun x =>
    s.checked r (s.insertChecks q x) fun s =>
    let tag := psTag (piCkey q.entry) (piMkey q.entry)
    match s.psPlace tag with
    | none => (s.count 0x6200 7).endReq r .capacity
    | some (bank, slot) =>
      let gen := s.psGen bank slot
      let e : PsSlot := { bank := bank, slot := slot, gen := gen, tenant := q.tenant, tag := tag, ckey := piCkey q.entry, mkey := piMkey q.entry,
                          handle := x.handle, page := piPage q.entry }
      let s := { s with ps := e :: s.ps, gens := { s.gens with prefixes := assocPut s.gens.prefixes (bank * psSlots + slot) gen 0 } }
      (s.count 0x6200 5).okReq q e.id

/-! ### PS_REMOVE, PS_PURGE (R218) -/

def prEntry (e : BitVec 512) : Nat := fld e 159 128

def execPsRemove (r : Nat) (s : State) : Host.Outcome State Fault Refusal :=
  .next <| s.psRow r opPS_REMOVE fun q s =>
    let mine := fun e : PsSlot => e.id == prEntry q.entry && e.tenant == q.tenant
    if s.ps.any mine then (s.psDrop mine).okReq q 0 else s.endReq r .keyFault

def execPsPurge (r : Nat) (s : State) : Host.Outcome State Fault Refusal :=
  .next <| s.psRow r opPS_PURGE fun q s =>
    let mine := fun e : PsSlot => e.tenant == q.tenant && e.mkey == piMkey q.entry
    (s.psDrop mine).okReq q (s.ps.filter mine).length

/-! ### PS_SEARCH (R219-R224) -/

/-- A range that meets a SWAPPED entry ends a PS_SEARCH as an INVALID one does (R219). One that meets an unreadable line ends it INTERNAL,
since no prefix request ends with MEDIA_ERROR (R224) (DESIGN CHOICE, log 81). -/
def psStatus (st : Status) : Status := if st = .preempted then .rangeFault else if st = .mediaError then .internal else st

/-- Entries that an error removed while a request was under way are met by its lookups, and by no later ones (R224). -/
def State.psForgotten (s : State) (q : Req) : State :=
  { s with flt := { s.flt with prefixes := dropWhere (·.1 == q.id) s.flt.prefixes } }

/-- A range that a PS_SEARCH cannot reach is counted where it met an unreadable line of the lower tier, or a generation that does not match (R91,
R201). -/
def State.psNote (s : State) (q : Req) : State :=
  let e := q.entry
  let n := pqCount e
  if pqRaddr e % 32 ≠ 0 ∨ pqQaddr e % 64 ≠ 0 ∨ n = 0 ∨ 65536 < n then s
  else if s.xlateStatus q.tenant (pqQaddr e) (64 * n) .read = .ok then s.noteFailed q.tenant (pqRaddr e) (32 * n) .write
  else s.noteFailed q.tenant (pqQaddr e) (64 * n) .read

/-- Count what the lookups of a request met (R221, R227). -/
def State.countLooked (s : State) (t : Nat) (xs : List Looked) : State :=
  let falses := sumOf (·.false_) xs
  (((s.count 0x6200 2 (xs.filter (·.counted)).length).count 0x6200 3 (sumOf (·.examined) xs)).count 0x6200 4 falses).count (0x4000 + t) 0x53 falses

def execPsSearch (r : Nat) (s : State) : Host.Outcome State Fault Refusal :=
  .next <| s.psRow r opPS_SEARCH fun q s =>
    let e := q.entry
    let n := pqCount e
    let met := s
    ((s.psForgotten q).psNote q).checked r
      [(decide (pqRaddr e % 32 ≠ 0) || decide (pqQaddr e % 64 ≠ 0) || n == 0 || decide (65536 < n), .rangeFault),
       (s.xlateStatus q.tenant (pqQaddr e) (64 * n) .read != .ok, psStatus (s.xlateStatus q.tenant (pqQaddr e) (64 * n) .read)),
       (s.xlateStatus q.tenant (pqRaddr e) (32 * n) .write != .ok, psStatus (s.xlateStatus q.tenant (pqRaddr e) (32 * n) .write))] fun s =>
      match s.loadTenant q.payer (pqQaddr e) (64 * n) with
      | .error st => s.endReq r (psStatus st)
      | .ok (bs, s) =>
        let xs := met.psAnswers q.id q.tenant (pqMkey e) (psQueries n bs)
        s.store q (pqRaddr e) (xs.flatMap fun x => leBytes 32 (s.psResult x)) fun s =>
          (s.countLooked q.tenant xs).okReq q ((xs.filter (·.found.isSome)).length + sumOf (·.false_) xs * 2 ^ 32)

end Sys2Proof.Machine
end

