-- ==== Sys2Proof/Machine/Loans.lean ====
section
/-! DEFINITION. Sys2Proof/Machine/Loans.lean: reclaiming a loan: quench (R326-R329), anneal (R330-R333), and the dynamic capacity
that a loan is offered as (R342, R343). -/

namespace Sys2Proof.Machine

open Sys2Proof

/-! ### Dynamic capacity (R342, R343) -/

/-- Offer an extent to the host, as part of the LD's present offer. -/
def State.offerExtent (s : State) (c : Comp) (off len : Nat) : State :=
  match c.region with
  | none => s
  | some (ld, r) =>
    if len = 0 then s
    else (s.modLd ld fun l => { l with extents := l.extents ++ [{ region := r, off := off, len := len, offer := l.nextOffer }] }).dcRecord c ld dcAdd r off len

/-- Offer a range of a loan's region but for the blocks withdrawn for errors: one offer, which one response answers. -/
def State.offerParts (s : State) (c : Comp) (off len : Nat) : State :=
  match c.region with
  | none => s
  | some (ld, r) =>
    let s := s.modLd ld fun l => { l with nextOffer := l.nextOffer + 1 }
    let all : List Extent := [{ region := r, off := off, len := len }]
    (c.withdrawn.foldl (fun xs a => cutExtents (fun _ => true) r a dcBlock xs) all).foldl (fun s x => s.offerExtent c x.off x.len) s

/-- Release every extent of a loan's region with Forced Removal set. -/
def State.forceRelease (s : State) (c : Comp) : State :=
  match c.region with
  | none => s
  | some (ld, r) =>
    let mine := (s.ld ld).extents.filter (·.region == r)
    let s := s.modLd ld fun l => { l with extents := dropWhere (·.region == r) l.extents }
    mine.foldl (fun s x => s.dcRecord c ld dcForced r x.off x.len) s

/-! ### Quench (R327, R328) -/

/-- Step 3: the tenant's work stops. -/
def State.stopWork (s : State) (t : Nat) : State :=
  (s.reqs.filter (·.tenant == t)).foldl (fun s q => (s.dropJobs q.id).endWalks q.id) s

/-- Step 4: every connection of the tenant is in RESET; a CONNECT in progress ends by R328. -/
def State.resetTenant (s : State) (t : Nat) : State :=
  (s.fab.conns.filter (·.tenant == t)).foldl
    (fun s c => if c.state = .setupSent then s.setupFailed c .contextLost else s.resetConn c.num .revoked) s

/-- Window accesses of a tenant that no request carries end. -/
def State.endWindows (s : State) (t : Nat) : State :=
  (s.fab.winOps.filter fun o => o.tenant == t && o.req.isNone).foldl (fun s o => s.winEnd o.id .contextLost []) s

/-- Step 5: regions, windows, merge contexts and prefix entries. -/
def State.dropHoldings (s : State) (t : Nat) : State :=
  let s := (s.fab.regions.filter (·.tenant == t)).foldl (fun s g => (s.advanceRegion g).freeRegion g.slot) s
  let s := { s with fab := { s.fab with windows := dropWhere (·.tenant == t) s.fab.windows } }
  let s := (s.merges.filter (·.tenant == t)).foldl (fun s x => s.dropMerge x .revoked) s
  (s.psDrop (·.tenant == t)).endWindows t

/-- Step 6: every request of the tenant ends by R328, its completion entry is written, and its queues are gone. -/
def State.endRequests (s : State) (t : Nat) : State :=
  let mine := (s.reqs.filter (·.tenant == t)).map (·.id)
  let s := mine.foldl (fun s r => match s.req r with | some q => if q.live then s.abandon r .contextLost else s | none => s) s
  let s := mine.foldl State.finish s
  { s with wqs := dropWhere (·.tenant == t) s.wqs, cqs := dropWhere (·.tenant == t) s.cqs }

/-- Handle generations of a tenant's sequences advance (R81). -/
def State.dropSeqs (s : State) (t : Nat) : State :=
  let mine := s.seqs.filter (·.tenant == t)
  let s := mine.foldl (fun s x => { s with gens := { s.gens with seqs := assocPut s.gens.seqs x.idx (nextGen x.gen) 0 } }) s
  { s with seqs := dropWhere (·.tenant == t) s.seqs, geoms := dropWhere (·.tenant == t) s.geoms }

/-- Upper-tier frames of a tenant. -/
def State.upperFrames (s : State) (t : Nat) : List Frame := s.mem.frames.filter fun f => f.tenant == t && f.place.isUpper

/-- The destination of a migration that is stopped is released (R209). -/
def State.stopMigration (s : State) (f : Frame) : State :=
  match f.mig with
  | some m => (if m.moved then s else s.quarantine f.tenant (.place m.dest f.size m.chunks)).modFrame f.num fun f => { f with mig := none }
  | none => s

/-- Host accesses of a tenant that still wait are over: its key is gone, so a read gives undefined data and a write is lost (R327 step 2). -/
def State.dropLines (s : State) (t : Nat) : State :=
  let mine := fun l : LineAcc => match l with | .host a => a.tenant == t | .remote _ | .fetch _ _ _ _ _ => false
  let xs := (s.eng.units.flatMap (·.lines)).filterMap (fun l => match l with | .host a => if a.tenant = t then some a else none | .remote _ | .fetch _ _ _ _ _ => none) ++
    s.eng.stores.filter (·.tenant == t)
  let us := s.eng.units.map fun u => { u with lines := u.lines.filter fun l => !mine l }
  let s := { s with eng := { s.eng with units := us, stores := dropWhere (·.tenant == t) s.eng.stores } }
  xs.foldl (fun s a => if a.write.isSome then s.emit (.hostDone a.ld) else s.undefLine a.ld) s

/-- Step 7: tables, frames, images and swap runs. The storage of upper-tier frames waits in quarantine to be zeroed. -/
def State.tearDown (s : State) (t : Nat) : State :=
  let fs := s.mem.frames.filter (·.tenant == t)
  let s := ((s.dropSeqs t).dropLines t).modMem fun m => { m with
    maps := dropWhere (·.tenant == t) m.maps, tpages := dropWhere (·.tenant == t) m.tpages, walks := dropWhere (·.tenant == t) m.walks,
    tlb := dropWhere (·.1 == t) m.tlb,
    stalls := dropWhere (·.tenant == t) m.stalls, lost := dropWhere (·.1 == t) m.lost }
  fs.foldl (fun s f => (s.stopMigration f).releaseFrame f.num) s

/-- Quench a tenant: steps 1 to 8 of R327 and the number of frames queued for zeroing (DESIGN CHOICE, log 37). -/
def State.quenchTenant (s : State) (t : Nat) : Nat × State :=
  let cs := s.comps.filter (·.tenant == t)
  let s := s.modTenant t fun x => { x with state := .quenching }
  let s := cs.foldl (fun s c => s.modComp c.slot fun c => { c with state := .quenching }) s
  let s := s.raiseTenant t kindReclaim
  let s := s.modTenant t fun x => { x with keyed := false }
  let s := cs.foldl State.forceRelease s
  let s := (((s.stopWork t).resetTenant t).dropHoldings t).endRequests t
  let n := (s.upperFrames t).length
  let s := s.tearDown t
  let s := cs.foldl (fun s c => (s.clearScalars (0x5000 + c.slot)).clearOctets (0x5000 + c.slot) 6) s
  let s := { s with comps := dropWhere (·.tenant == t) s.comps }
  (n, s.modTenant t fun x => { x with state := .zeroing })

/-- End a request that is still running. -/
def State.endLive (s : State) (r : Nat) (st : Status) (result : Nat := 0) : State :=
  match s.req r with
  | some q => if q.live then s.endReq r st result else s
  | none => s

/-- Quench a loan; an ANNEAL of it ends with the status given, and LOAN_RECLAIM_DONE goes to tenant 0. -/
def State.quenchLoan (s : State) (c : Comp) (st : Status) (result : Nat := 0) : Nat × State :=
  let x := s.quenchTenant c.tenant
  let s := x.2
  let s := match s.reclaims.find? (·.slot == c.slot) with
    | some a => s.endLive a.req st result
    | none => s
  (x.1, ({ s with reclaims := dropWhere (·.slot == c.slot) s.reclaims }).raise srcLoanReclaimDone)

/-! ### QUENCH (R326) -/

def rcComp (e : BitVec 512) : Nat := fld e 159 144

/-- The LOAN composition that an entry names. -/
def State.loanComp (s : State) (e : BitVec 512) : Option Comp := s.comps.find? fun c => c.id == rcComp e && c.loan

/-- Steps 1 and 2 of R326. -/
def State.reclaimChecks (s : State) (q : Req) : List (Bool × Status) :=
  [(q.tenant != 0, .keyFault), (hdrRemote q.entry || (s.loanComp q.entry).isNone, .rangeFault)]

def execQuench (r : Nat) (s : State) : Host.Outcome State Fault Refusal :=
  .next <| s.runReq r [opQUENCH] fun q s =>
    s.checked r (s.reclaimChecks q) fun s =>
      match s.loanComp q.entry with
      | none => s
      | some c => let x := s.quenchLoan c .revoked; x.2.okReq q x.1

/-! ### ANNEAL (R330-R332) -/

def anDoff (e : BitVec 512) : Nat := fld e 511 448
def anDkey (e : BitVec 512) : Nat := fld e 447 416
def anDqp (e : BitVec 512) : Nat := fld e 415 392
def anRemote (e : BitVec 512) : Bool := flag e 391

/-- Seconds from acceptance. -/
def anDeadline (e : BitVec 512) : Nat := let n := fld e 175 160; if n = 0 then 60 else n

/-- Frames of a tenant in ascending tenant address. -/
def State.loanMaps (s : State) (t : Nat) : List Mapping :=
  (s.mem.maps.filter (·.tenant == t)).mergeSort fun a b => decide (a.addr ≤ b.addr)

/-- The worst-case stream (R330). -/
def State.worstStream (s : State) (t : Nat) : Nat :=
  let fs := (s.loanMaps t).map fun m => s.frameSize m.frame
  64 + 32 * fs.length + sumOf (fun f => f + 64 * (1 + dirSectors f)) fs

/-- The destination of an ANNEAL (R330). -/
def State.annealDest (s : State) (q : Req) (c : Comp) : Status :=
  let e := q.entry
  if anDoff e % 64 ≠ 0 then .rangeFault
  else if anRemote e then (if s.qpOpen 0 (anDqp e) then .ok else .keyFault)
  else match s.useKey (anDkey e) 0 0 .localW (anDoff e) (s.worstStream c.tenant) with
    | .ok _ => .ok
    | .error st => st

/-- Step 3 of R326. -/
def State.annealChecks (s : State) (q : Req) (c : Comp) : List (Bool × Status) :=
  [(c.state != .active, .revoked), (c.exportKey.isNone, .rangeFault), (s.annealDest q c != .ok, s.annealDest q c)]

/-- Image of a frame in a stream: SWAP 1, its containers under the export key (R331). -/
def State.streamImage (s : State) (key : BitVec 512) (t serial : Nat) (m : Mapping) : List Byte :=
  let size := s.frameSize m.frame
  let body := imageBody key t serial size (s.unit m.frame)
  leBytes 64 (imageHeader (crc32c body) (1 + body.length / 64) serial t false true size) ++ body

/-- One manifest entry. -/
def State.manifestEntry (s : State) (m : Mapping) (off len : Nat) : List Byte :=
  leBytes 32 (off * 2 ^ 192 + len * 2 ^ 160 + b2n m.w * 2 ^ 69 + b2n m.r * 2 ^ 68 + sizeCode (s.frameSize m.frame) * 2 ^ 64 + m.addr)

/-- Manifest and images of frames whose first image lies at `off`; each image has a fresh SERIAL. -/
def State.streamParts (s : State) (key : BitVec 512) (t : Nat) : Nat → List Mapping → List Byte × List Byte × State
  | _, [] => ([], [], s)
  | off, m :: ms =>
    let (ser, s) := s.newSerial
    let img := s.streamImage key t ser m
    let (man, imgs, s) := s.streamParts key t (off + img.length) ms
    (s.manifestEntry m off img.length ++ man, img ++ imgs, s)

/-- The header of a stream (R331). -/
def streamHeader (mcrc : BitVec 32) (bytes frames comp tenant freeze : Nat) : List Byte :=
  leBytes 64 (mcrc.toNat * 2 ^ 256 + bytes * 2 ^ 192 + frames * 2 ^ 160 + comp * 2 ^ 144 + tenant * 2 ^ 128 + freeze * 2 ^ 64 + 2 ^ 32 + 0x464E414E)

/-- The stream of a loan: its parts in the order in which they are written, with their offsets, its frames and its bytes (R332 steps 3 and 4). -/
def State.annealStream (s : State) (c : Comp) (freeze : Nat) : List (Nat × List Byte) × Nat × Nat × State :=
  let ms := s.loanMaps c.tenant
  let first := roundUp (64 + 32 * ms.length) 64
  let (man, imgs, s) := s.streamParts (c.exportKey.getD 0) c.tenant first ms
  let total := first + imgs.length
  ([(first, imgs), (64, man ++ List.replicate (first - 64 - man.length) 0),
    (0, streamHeader (crc32c man) total ms.length c.id c.tenant freeze)].filter (!·.2.isEmpty), ms.length, total, s)

def State.modReclaim (s : State) (slot : Nat) (f : Reclaim → Reclaim) : State :=
  { s with reclaims := modWhere (·.slot == slot) f s.reclaims }

/-- The WRITEs, of up to the largest LEN, that send `bs` to a remote destination from byte `off` of its region on. -/
def State.streamWrites (s : State) (slot qp key : Nat) : Nat → Nat → List Byte → State
  | 0, _, _ => s
  | k + 1, off, bs =>
    let part := bs.take maxRemoteLen
    let id := s.freshReqId qp
    let e := BitVec.ofNat 512 (off * 2 ^ 448 + key * 2 ^ 416 + part.length * 2 ^ 288 + qp * 2 ^ 64 + id * 2 ^ 32 + opWRITE)
    let comp := match s.conn qp with | some c => c.comp | none => noComp
    let q : Req := { id := s.nextReq, origin := .stream slot, tenant := 0, comp := comp, loan := false, entry := e, inlineData := part }
    let s := { s with reqs := s.reqs ++ [q], nextReq := s.nextReq + 1 }
    let s := s.modReclaim slot fun x => { x with sent := x.sent ++ [q.id] }
    s.streamWrites slot qp key k (off + part.length) (bs.drop maxRemoteLen)

/-- Issue the WRITEs of a stream that have not been, as their engine has room for them (R275); their queue pair must be OPEN. -/
def State.streamPump (s : State) (slot : Nat) : State :=
  (s.reqs.filter fun q => q.origin == .stream slot && q.phase == .started && q.remote.isNone).foldl (fun s q =>
    if !s.qpOpen q.tenant (hdrQp q.entry) then s.endReq q.id .keyFault
    else if s.engineRoom (hdrQp q.entry) q.comp then
      s.issueOn q (hdrQp q.entry) (hdrReqId q.entry) (entryBytes q.entry ++ q.inlineData) 0
    else s) s

/-- Write bytes to a destination region of tenant 0. -/
def State.annealWrite (s : State) (e : BitVec 512) (off : Nat) (bs : List Byte) : Wrote :=
  match s.region (anDkey e / 256) with
  | none => .bad .keyFault s
  | some g =>
    if g.gen ≠ anDkey e % 256 then .bad .keyFault s
    else s.putLocal ⟨0, noComp⟩ g (anDoff e + off) bs

/-- Result of an ANNEAL. -/
def annealResult (frames bytes : Nat) : Nat := frames + ceilDiv bytes (2 ^ 20) * 2 ^ 32

/-- Write the parts of a stream on this node, in order. -/
def State.annealWrites (s : State) (e : BitVec 512) : List (Nat × List Byte) → Wrote
  | [] => .done s
  | (off, bs) :: ps => match s.annealWrite e off bs with
    | .done s => s.annealWrites e ps
    | w => w

/-- The whole stream, for a destination on this node: images, manifest, header (DEDUCED, log 38). -/
def State.annealLocal (s : State) (q : Req) (c : Comp) (x : Reclaim) : State :=
  let (parts, n, bytes, s1) := s.annealStream c (x.frozenAt.getD 0)
  match s1.annealWrites q.entry parts with
  | .bad st s => (s.quenchLoan c st).2
  | .noSectors => (s.reqRoom q 7 none false).getD (s.quenchLoan c .capacity).2
  | .done s => (s.quenchLoan c .ok (annealResult n bytes)).2

/-- A remote destination: each part once every WRITE of the one before has been acknowledged; then the quench. -/
def State.annealRemote (s : State) (q : Req) (c : Comp) (x : Reclaim) : State :=
  let e := q.entry
  let next := fun (s : State) (n bytes : Nat) (ps : List (Nat × List Byte)) => match ps with
    | [] => (s.quenchLoan c .ok (annealResult n bytes)).2
    | p :: ps =>
      ((s.modReclaim c.slot fun x => { x with stream := some (n, bytes, ps) }).streamWrites c.slot (anDqp e) (anDkey e)
        (ceilDiv p.2.length maxRemoteLen) (anDoff e + p.1) p.2).streamPump c.slot
  match x.failed with
  | some st => (s.quenchLoan c st).2
  | none =>
    match x.stream with
    | none => let (parts, n, bytes, s) := s.annealStream c (x.frozenAt.getD 0); next s n bytes parts
    | some (n, bytes, ps) => if x.sent.isEmpty then next s n bytes ps else s.streamPump c.slot

/-- The lower-tier image bytes of a stream are charged to tenant 0 (R332). -/
def State.chargeAnneal (s : State) (q : Req) (c : Comp) : State :=
  (s.loanMaps c.tenant).foldl (fun s m => s.chargePins q.payer m.frame (s.streamBytes m.frame 0 (s.frameSize m.frame))) s

/-- An anneal in progress goes on once every request of the tenant has ended (R332 steps 2 to 5). -/
def State.annealGo (s : State) (q : Req) : State :=
  match s.reclaims.find? (·.req == q.id) with
  | none => s
  | some x =>
    match s.comp x.slot with
    | none => s
    | some c =>
      if s.reqs.any (·.tenant == c.tenant) then s
      else
        let s := if x.frozenAt.isNone then s.chargeAnneal q c else s
        let x : Reclaim := { x with frozenAt := some (x.frozenAt.getD s.now) }
        let s := s.modReclaim x.slot fun _ => x
        if anRemote q.entry then s.annealRemote q c x
        else if (s.region (anDkey q.entry / 256)).any (·.host) ∧ !s.dmaOk s.mgmtLd then s
        else s.annealLocal q c x

/-- Accept an ANNEAL (R332 step 1). -/
def State.annealAccept (s : State) (q : Req) (c : Comp) : State :=
  let s := (s.modComp c.slot fun c => { c with state := .annealing }).raiseTenant c.tenant kindReclaim
  let x : Reclaim := { slot := c.slot, req := q.id }
  ({ s with reclaims := s.reclaims ++ [x] }).waitReq q.id (.anneal c.slot)

def execAnneal (r : Nat) (s : State) : Host.Outcome State Fault Refusal :=
  .next <|
    match s.req r with
    | none => s
    | some q =>
      if q.op = opANNEAL ∧ q.accepted ∧ q.live then (if s.coreRuns then s.annealGo q else s)
      else s.runReq r [opANNEAL] fun q s =>
        s.checked r (s.reclaimChecks q) fun s =>
          match s.loanComp q.entry with
          | none => s
          | some c => s.checked r (s.annealChecks q c) fun s => s.annealAccept q c

/-- DEADLINE_S passes before the header has been written (R332). -/
def execAnnealDeadlineExpiry (slot : Nat) (s : State) : Host.Outcome State Fault Refusal :=
  .next <|
    match s.comp slot with
    | some c => if c.state = .annealing ∧ s.coreRuns then (s.quenchLoan c .timeout).2 else s
    | none => s

/-! ### Zeroing (R329) and a tenant that becomes FREE (R313, R365, R391) -/

/-- A route entry with KIND 0 and OWNER 0. -/
def unboundEntry (e : Nat) : Nat := e - rtKind e * 2 ^ 20 - rtOwner e * 2 ^ 24

/-- Reset a source whose tenant is gone: pending 0, mask 1 (R365). -/
def State.unbindSource (s : State) (src : Nat) : State :=
  let s := ((s.clearPend src).setMask src true)
  s.setOctets 0x3300 1 (16 * src) (leBytes 16 (unboundEntry (s.routeEntry src)))

/-- Each assignable source that a tenant owns, of whatever KIND. -/
def State.unbindSources (s : State) (t : Nat) : State :=
  (s.routedSources.filter fun src => decide (0x100 ≤ src) && rtOwner (s.routeEntry src) == t).foldl State.unbindSource s

/-- The tenant's objects return to their defaults; KEY_GEN goes on counting (R311). -/
def State.clearTenant (s : State) (t : Nat) : State :=
  let gen := s.tenantObj t 3
  ((s.clearScalars (0x4000 + t)).clearOctets (0x4000 + t) 0x10).setScalar (0x4000 + t) 3 gen

/-- Subscriptions of role t to its own objects end (R395, R408). -/
def State.endTenantSubs (s : State) (t : Nat) : State :=
  let mine := fun x : Session => { x with subs := dropWhere (fun u => u.index == 0x4000 + t) x.subs }
  { s with mgmt := { s.mgmt with sessions := modWhere (·.role == t) mine s.mgmt.sessions } }

def execZeroingDone (tenant : Nat) (s : State) : Host.Outcome State Fault Refusal :=
  .next <|
    match s.tenant tenant with
    | none => s
    | some x =>
      if x.state ≠ .zeroing ∨ !s.coreRuns then s
      else
        let s := (s.mem.quar.filter (·.tenant == tenant)).foldl State.endQuarantine s
        ((({ s with tenants := dropWhere (·.id == tenant) s.tenants }).unbindSources tenant).endTenantSubs tenant).clearTenant tenant

end Sys2Proof.Machine
end

