-- ==== Sys2Proof/Machine/Staging.lean ====
section
/-! DEFINITION. Sys2Proof/Machine/Staging.lean: values that a session stages for one index (R393, R394) as COMMIT sees them:
merged over the present values, measured, checked by type and applied. -/

namespace Sys2Proof.Machine

open Sys2Proof

/-- What a session has staged for one index: by subindex, the bytes written, by offset. A scalar is staged as its bytes, least
significant first. -/
abbrev Changes := List (Nat × List (Nat × Byte))

/-- The subindex has staged bytes. -/
def Changes.has (c : Changes) (k : Nat) : Bool := (c.lookup k).isSome

/-- The bytes staged for a subindex. -/
def Changes.at (c : Changes) (k : Nat) : List (Nat × Byte) := (c.lookup k).getD []

/-- Length of a variable-length object: the highest staged offset plus one (R394). -/
def Changes.length (c : Changes) (k : Nat) : Nat := (c.at k).foldl (fun a x => max a (x.1 + 1)) 0

/-- Value of staged scalar bytes. -/
def stagedVal (bs : List (Nat × Byte)) : Nat := leVal ((List.range bs.length).map fun i => (bs.lookup i).getD 0)

/-- A scalar as it would stand after the COMMIT. -/
def State.would (s : State) (c : Changes) (idx k : Nat) : Nat :=
  match c.lookup k with
  | some bs => stagedVal bs
  | none => s.scalar idx k

/-- A byte of an OCTETS object as it would stand. -/
def State.wouldByte (s : State) (c : Changes) (idx k off : Nat) : Byte := ((c.at k).lookup off).getD (s.octByte idx k off)

def State.wouldBytes (s : State) (c : Changes) (idx k off n : Nat) : List Byte :=
  (List.range n).map fun i => s.wouldByte c idx k (off + i)

/-! ### The write rules of the types (R377) -/

/-- Length of a well-formed UTF-8 sequence by its first byte; 0 for none. -/
def utf8Len (b : Nat) : Nat := if b < 0x80 then 1 else if b < 0xC2 then 0 else if b < 0xE0 then 2 else if b < 0xF0 then 3 else if b < 0xF5 then 4 else 0

/-- Bounds of the second byte after a first byte. -/
def utf8Second (b : Nat) : Nat × Nat :=
  if b = 0xE0 then (0xA0, 0xBF) else if b = 0xED then (0x80, 0x9F) else if b = 0xF0 then (0x90, 0xBF) else if b = 0xF4 then (0x80, 0x8F) else (0x80, 0xBF)

/-- Well-formed UTF-8. -/
def utf8Ok : Nat → List Byte → Bool
  | 0, bs => bs.isEmpty
  | k + 1, bs =>
    match bs with
    | [] => true
    | b :: rest =>
      let n := utf8Len b.toNat
      let tail := rest.take (n - 1)
      let second := match tail with | [] => true | c :: _ => decide ((utf8Second b.toNat).1 ≤ c.toNat) && decide (c.toNat ≤ (utf8Second b.toNat).2)
      n != 0 && tail.length == n - 1 && second && tail.all (fun c => decide (0x80 ≤ c.toNat) && decide (c.toNat ≤ 0xBF)) && utf8Ok k (rest.drop (n - 1))

/-- An F32 that is neither NaN nor an infinity. -/
def finite32 (x : Nat) : Bool := bits x 30 23 != 255

/-- The value keeps its type's write rule. -/
def OTy.valueOk (t : OTy) (bs : List Byte) : Bool :=
  match t with
  | .bool => decide (leVal bs ≤ 1)
  | .enum n => decide (leVal bs ≤ n)
  | .f32 => finite32 (leVal bs)
  | .utf8 _ => utf8Ok bs.length bs
  | _ => true

/-- A payload of `n` bytes has a length that the type takes. -/
def OTy.lengthOk (t : OTy) (n : Nat) : Bool :=
  match t with
  | .utf8 m => decide (n ≤ m)
  | _ => n == t.bytes

/-- A WRITE payload as bytes to stage or store: scalars arrive most significant byte first. -/
def OTy.fromWire (t : OTy) (bs : List Byte) : List Byte :=
  match t with
  | .octets _ | .utf8 _ => bs
  | _ => bs.reverse

/-! ### Applying -/

/-- One journal write of the flash (R379, R407) (DEDUCED, log 42). -/
def State.flashWrite (s : State) : State := s.count 0x6700 8

/-- A byte that a write brings, with the reserved bits of its object at 0 (R9): bits 49 to 0 of an aperture entry (R339) and 18 to 0 of an
entry of ROUTES (R364). None: the byte is of no right to be written, and the write to it is ignored: CORES of an entry of ROUTES (R364). -/
def octKept (idx k off : Nat) (b : Byte) : Option Byte :=
  if 0x3230 ≤ idx ∧ idx < 0x3240 ∧ k = 2 then some (if off % 32 < 6 then 0 else if off % 32 = 6 then b &&& 0xFC else b)
  else if idx = 0x3300 ∧ k = 1 then (if off % 16 = 7 then none else some (if off % 16 < 2 then 0 else if off % 16 = 2 then b &&& 0xF8 else b))
  else some b

/-- A scalar with its reserved bits at 0 (R9): those of MGMT_ROUTES, PCP_MAP, DSCP_MAP and PIN_MODE (R261, R373, R381). -/
def scalarKept (idx k v : Nat) : Nat :=
  match idx, k with
  | 0x1100, 8 => v % 8
  | 0x3210, 6 => v % 2 ^ 12
  | 0x3210, 7 => v % 2 ^ 24
  | 0x3300, 2 => v % 4
  | _, _ => v

/-- What a write stages of the bytes it brings at an offset: bytes of an OCTETS object one by one, a scalar whole, its bytes least
significant first (R9, R377, R393). -/
def keptBytes (t : OTy) (idx k off : Nat) (bs : List Byte) : List (Nat × Byte) :=
  match t with
  | .octets _ | .utf8 _ => bs.zipIdx.filterMap fun y => (octKept idx k (off + y.2) y.1).map fun b => (off + y.2, b)
  | _ => (leBytes t.bytes (scalarKept idx k (leVal bs))).zipIdx.map fun y => (off + y.2, y.1)

/-- Store one object's staged bytes. -/
def State.applyObject (s : State) (idx k : Nat) (o : Obj) (bs : List (Nat × Byte)) : State :=
  match o.ty with
  | .octets _ | .utf8 _ => bs.foldl (fun s x => s.setOct idx k x.1 x.2) s
  | _ => s.setScalar idx k (stagedVal bs)

/-- Store every staged value of an index; flash values are in the flash before the reply (R379). -/
def State.applyChanges (s : State) (idx : Nat) (c : Changes) : State :=
  let os := indexObjs s.variant idx
  let s := c.foldl (fun s x => match os.lookup x.1 with | some o => s.applyObject idx x.1 o x.2 | none => s) s
  if c.any fun x => (os.lookup x.1).any (·.flash) then s.flashWrite else s

/-- The first failing check of a COMMIT decides; a COMMIT that passes applies its values, then does `go`. -/
def State.commitChecked (s : State) (idx : Nat) (c : Changes) (checks : List (Bool × Status)) (go : State → State := id) : Status × State :=
  match firstFail checks with
  | some st => (st, s)
  | none => (.ok, go (s.applyChanges idx c))

/-- A scalar would lie in `[lo, hi]`, or is not staged. -/
def State.ranged (s : State) (c : Changes) (idx k lo hi : Nat) : Bool :=
  !c.has k || (decide (lo ≤ s.would c idx k) && decide (s.would c idx k ≤ hi))

end Sys2Proof.Machine
end

