-- ==== Sys2Proof/Machine/Tenants.lean ====
section
/-! DEFINITION. Sys2Proof/Machine/Tenants.lean: tenants (R312-R313, R317-R319), compositions (R320, R324) and their maps
(R321-R323). -/

namespace Sys2Proof.Machine

open Sys2Proof

/-! ### Tenants -/

/-- The node is banked (R449). -/
def State.isBanked (s : State) : Bool := s.banking || s.node.coreHeld

/-- Sum over the other tenants of a stored value. -/
def State.others (s : State) (t sub : Nat) : Nat := sumOf (fun x => s.tenantObj x.id sub) (s.tenants.filter (·.id != t))

/-- Bytes of the prefix key store, which the frame admission of R317 leaves out. -/
def State.keyStoreBytes (s : State) : Nat := if s.variant.prefixUnit then keyGranules * granule * s.variant.channels else 0

/-- Rules of R317 for one resource: the admission of its rate, and its own values. -/
def State.cirOk (s : State) (c : Changes) (t r : Nat) : Bool :=
  decide ((s.others t (0x20 + 4 * r) + s.would c (0x4000 + t) (0x20 + 4 * r)) * 10 ≤ 9 * s.variant.capacity r)

def State.rateOk (s : State) (c : Changes) (t r : Nat) : Bool :=
  let v := fun k => s.would c (0x4000 + t) (k + 4 * r)
  let least := if r = 0 ∨ r = 3 then 16384 else 2000
  decide (v 0x20 ≤ v 0x22) && decide (least ≤ v 0x21) && decide (least ≤ v 0x23)

/-- Admission of committed frames. -/
def State.framesOk (s : State) (c : Changes) (t : Nat) : Bool :=
  decide ((s.others t 6 + s.would c (0x4000 + t) 6) * 100 + 100 * s.keyStoreBytes ≤ 95 * s.variant.rawBytes)

/-- LOAN_BYTES of a tenant's loan, which its FRAME_COMMIT must reach (R320). -/
def State.loanBytesOf (s : State) (t : Nat) : Nat :=
  sumOf (fun c => if c.tenant = t ∧ c.loan then s.scalar (0x5000 + c.slot) 0xB else 0) s.comps

/-- The rules of R312 and R317, the first of R317 first (DEDUCED, log 43). -/
def State.tenantChecks (s : State) (t : Nat) (c : Changes) : List (Bool × Status) :=
  let v := s.would c (0x4000 + t)
  let rs := [0, 1, 2, 3]
  [(!rs.all (s.cirOk c t), .capacity),
   (decide (v 4 % mib8 ≠ 0) || decide (addrEnd < v 4), .rangeFault),
   (decide (v 7 < v 6) || decide (v 6 < s.loanBytesOf t), .rangeFault),
   (decide (1048576 < v 0xB), .rangeFault),
   (decide (4194304 < v 0xC), .rangeFault),
   (decide (v 0xD < 1000000) || decide (10000000000 < v 0xD), .rangeFault),
   (v 0x30 == 0 || v 0x31 == 0, .rangeFault),
   (!rs.all (s.rateOk c t), .rangeFault),
   (!s.framesOk c t, .rangeFault)]

/-- A bucket's contents clipped to a new depth (R318): what is missing from `old` becomes what is missing from `new`. -/
def clipped (missing old new : Nat) : Nat := missing + new * nano - old * nano

/-- Apply a tenant's staged values: buckets are filled at the old rates, then clipped. -/
def State.applyTenant (s : State) (t : Nat) (c : Changes) : State :=
  let idx := 0x4000 + t
  let s0 := [0, 1, 2, 3].foldl (fun s r => s.refill t r) s
  let s := s0.applyChanges idx c
  s.modTenant t fun x => { x with buckets := x.buckets.zipIdx.map fun b =>
    { b.1 with committed := clipped b.1.committed (s0.cbs t b.2) (s.cbs t b.2), peak := clipped b.1.peak (s0.pbs t b.2) (s.pbs t b.2) } }

/-- A tenant becomes ACTIVE: a key, a root table page, its staged limits (R313). None: the root cannot be placed (R92). -/
def State.activateTenant (s : State) (t : Nat) (c : Changes) : Option State :=
  let b : Bucket := { atTime := s.now }
  let x : Tenant := { id := t, root := t + 1, key := s.free, buckets := List.replicate 4 b }
  (s.addRoot t).map fun s => (({ s with tenants := s.tenants ++ [x], free := s.free + 1 }).applyChanges (0x4000 + t) c).count (0x4000 + t) 3

/-- ADMIN 0 on an ACTIVE tenant: its compositions are released and it is quenched (R313). -/
def State.freeTenant (s : State) (t : Nat) : State :=
  match s.comps.find? fun c => c.tenant == t && c.loan with
  | some c => if c.state = .annealing then s else (s.quenchLoan c .revoked).2
  | none => (s.quenchTenant t).2.raise srcLoanReclaimDone

/-- COMMIT of object 0x4000 + t. -/
def State.commitTenant (s : State) (t : Nat) (c : Changes) : Status × State :=
  let checks := firstFail (s.tenantChecks t c)
  match s.tenant t with
  | none =>
    match checks with
    | some st => (st, s)
    | none =>
      if c.has 2 ∧ s.would c (0x4000 + t) 2 = 1 then
        if s.isBanked then (.busyRetry, s)
        else match s.activateTenant t c with
          | some s => (.ok, s)
          | none => (.capacity, s)
      else (.ok, s)
  | some x =>
    if x.state ≠ .active then (.busyRetry, s)
    else match checks with
      | some st => (st, s)
      | none =>
        if c.has 2 ∧ s.would c (0x4000 + t) 2 = 0 then
          if t = 0 then (.rangeFault, s) else (.ok, (s.applyTenant t c).freeTenant t)
        else (.ok, s.applyTenant t c)

/-! ### Maps (R321-R323) -/

/-- A staged map. -/
structure MapFile where
  magic : Nat
  comp : Nat
  tenant : Nat
  crc : Nat
  map : CompMap

def mapNodeOf (bs : List Byte) : MapNode :=
  let f := fun i n => leVal ((bs.drop i).take n)
  { node := f 0 2, nextHop := f 2 2,
    paths := (List.range (f 4 1)).map fun i =>
      { port := f (16 + 24 * i) 1, mac := BitVec.ofNat 48 (beVal ((bs.drop (18 + 24 * i)).take 6)),
        ip := BitVec.ofNat 128 (beVal ((bs.drop (24 + 24 * i)).take 16)) } }

def mapAdapterOf (bs : List Byte) : MapAdapter :=
  let f := fun i n => leVal ((bs.drop i).take n)
  { id := f 0 2, kind := f 2 1, via := f 3 1, node := f 4 2, base := f 8 8, length := f 16 8 }

/-- Read the fields of a map of `n` nodes and `a` adapters. -/
def mapFileOf (bs : List Byte) (n a : Nat) : MapFile :=
  let f := fun i k => leVal ((bs.drop i).take k)
  { magic := f 0 4, comp := f 4 2, tenant := f 8 2, crc := f 16 4,
    map := { epoch := f 6 2, crc := f 16 4, nodes := (chunks 256 n (bs.drop 64)).map mapNodeOf,
             adapters := (chunks 32 a (bs.drop (64 + 256 * n))).map mapAdapterOf } }

/-- PATHS keeps its rule: 1 to 8, but 0 behind a NEXT_HOP and in the loading node's own entry. -/
def pathsOk (self : Nat) (e : MapNode) : Bool :=
  if e.nextHop ≠ 0xFFFF ∨ e.node = self then e.paths.isEmpty else decide (1 ≤ e.paths.length) && decide (e.paths.length ≤ 8)

/-- A group MAC address: the low bit of its first byte. -/
def groupMac (m : BitVec 48) : Bool := m.getLsbD 40

/-- Checks of R322 on a map of `n` nodes and `a` adapters, in order. -/
def State.mapChecks (s : State) (slot comp tenant : Nat) (bs : List Byte) : List (Bool × Status) :=
  let n := leVal ((bs.drop 10).take 2)
  let a := leVal ((bs.drop 12).take 2)
  let lengthOk := decide (1 ≤ n) && decide (n ≤ 4096) && decide (a ≤ 64) && bs.length == 64 + 256 * n + 32 * a
  let f := mapFileOf bs n a
  let m := f.map
  let self := s.nodeId
  let ids := m.nodes.map (·.node)
  let held := s.comp slot
  let epoch := (held.bind (·.map)).map (·.epoch)
  [(!lengthOk || f.magic != 0x464E4D50 || f.crc != (crc32c (bs.drop 64)).toNat || f.comp != comp || f.tenant != tenant, .rangeFault),
   (!decide ids.Nodup || !decide (m.adapters.map (·.id)).Nodup || !ids.contains self || !m.nodes.all (pathsOk self) ||
     m.nodes.any (fun e => e.paths.any fun p => s.portStatus p.port == .absent || groupMac p.mac) ||
     m.adapters.any (fun x => x.via == 1 && !ids.contains x.node), .rangeFault),
   (m.nodes.any (fun e => e.nextHop != 0xFFFF && match m.via (maxRelays + 1) e.node with | some x => x.node == self | none => true), .rangeFault),
   (match epoch with | some e => !epochNewer m.epoch e | none => false, .staleEpoch),
   ((held.bind (·.oldMap)).isSome, .busyRetry)]

/-- A connection's paths by the current map; a peer that is no longer a member resets it. -/
def State.repath (s : State) (m : CompMap) (c : Conn) : State :=
  if (m.node c.peer).isSome then s.modConn c.num fun x => { x with paths := s.buildPaths c.comp c.num c.peer }
  else s.resetConn c.num .timeout

/-- A map becomes current (R323). -/
def State.installMap (s : State) (slot : Nat) (m : CompMap) : State :=
  let s := s.modComp slot fun c => { c with map := some m, oldMap := c.map }
  (s.fab.conns.filter (·.comp == slot)).foldl (fun s c => s.repath m c) s

/-- The staged map of a COMMIT. -/
def State.stagedMap (s : State) (idx : Nat) (c : Changes) : List Byte := s.wouldBytes c idx 6 0 (c.length 6)

/-- The map that staged bytes hold. -/
def mapIn (bs : List Byte) : CompMap := (mapFileOf bs (leVal ((bs.drop 10).take 2)) (leVal ((bs.drop 12).take 2))).map

/-- The connections by which a request came and goes out, with the epochs of its packets there. -/
def Req.mapConns (q : Req) : List (Nat × Nat) :=
  (match q.origin with | .remote n _ => if q.answered then [] else [(n, q.epoch)] | _ => []) ++
  (match q.remote with | some o => if q.live then [(o.conn, o.epoch)] else [] | none => [])

/-- Requests counted against the maps of a composition that satisfy `p` (R323). -/
def State.mapUses (s : State) (slot : Nat) (p : Nat → Bool) : Nat :=
  (s.reqs.filter fun q => q.mapConns.any fun x => p x.2 && match s.conn x.1 with | some c => c.comp == slot | none => false).length

/-- INFLIGHT and OLD_INFLIGHT. -/
def State.inflight (s : State) (slot : Nat) : Nat := s.mapUses slot fun e => e == s.compEpoch slot

def State.oldInflight (s : State) (slot : Nat) : Nat :=
  match (s.comp slot).bind (·.oldMap) with
  | some m => s.mapUses slot fun e => e == m.epoch
  | none => 0

def execCompMapReleased (slot : Nat) (s : State) : Host.Outcome State Fault Refusal :=
  .next <|
    match (s.comp slot).bind (·.oldMap) with
    | some _ => if s.node.powered ∧ s.oldInflight slot = 0 then (s.modComp slot fun c => { c with oldMap := none }).raise srcCompMapReleased else s
    | none => s

/-! ### Compositions (R320, R324) -/

/-- A dynamic capacity region of an LD that no loan holds (R342); none when all 8 hold loans. -/
def State.freeRegionOf (s : State) (ld : Nat) : Option Nat :=
  (List.range 8).find? fun r => !s.comps.any fun c => c.region == some (ld, r)

/-- A LOAN composition of a tenant with an LD finds no region. -/
def State.noRegion (s : State) (t : Nat) : Bool := decide (s.tenantLd t < 16) && (s.freeRegionOf (s.tenantLd t)).isNone

/-- Rules of the Meaning column of R320; `activating`: ADMIN 1 on a FREE slot. -/
def State.compChecks (s : State) (k : Nat) (c : Changes) (activating : Bool) : List (Bool × Status) :=
  let idx := 0x5000 + k
  let v := s.would c idx
  let others := s.comps.filter (·.slot != k)
  let held := others.filter (·.tenant == v 2)
  let loan := v 3 == 1
  let must := fun j => activating || c.has j
  [(must 1 && others.any (·.id == v 1), .rangeFault),
   (must 2 && !s.tenantActive (v 2), .rangeFault),
   ((must 3 || c.has 2) && (if loan then v 2 == 0 || !held.isEmpty else held.any (·.loan)), .rangeFault),
   (must 0xB && v 0xB != 0 && (!loan || decide (v 0xB % 2097152 ≠ 0) || decide (s.frameCommit (v 2) < v 0xB)), .rangeFault),
   (!s.ranged c idx 0xC 1 4096, .rangeFault),
   (!s.ranged c idx 0xD 1 16777216, .rangeFault),
   (!s.ranged c idx 0x11 1 32768, .rangeFault)]

/-- COMP_ID, TENANT and CLASS stand (R320). -/
def State.compFixed (s : State) (x : Comp) (c : Changes) : Bool :=
  let v := s.would c (0x5000 + x.slot)
  v 1 == x.id && v 2 == x.tenant && v 3 == b2n x.loan

/-- Offer or ask back dynamic capacity after a change of LOAN_BYTES (R343). -/
def State.loanBytesChanged (s : State) (x : Comp) (old new : Nat) : State :=
  if old < new then s.offerParts x old (new - old)
  else if new < old then match x.region with
    | some (ld, r) => s.dcRecord x ld dcRelease r new (old - new)
    | none => s
  else s

/-- SERVING composition released: connections reset, its own regions revoked (R324). -/
def State.releaseComp (s : State) (x : Comp) : State :=
  let s := s.modComp x.slot fun c => { c with state := .releasing }
  let s := (s.fab.conns.filter (·.comp == x.slot)).foldl (fun s c => s.resetConn c.num .revoked) s
  let mine := s.fab.regions.filter fun g => g.tenant == x.tenant && !g.anyComp && g.comp == x.id && g.gen != 0
  (mine.foldl (fun s g => s.advanceRegion g) s).sweepRegions

/-- A FREE slot becomes ACTIVE, with the lowest free region of its tenant's LD for a loan (R342). -/
def State.activateComp (s : State) (k : Nat) (c : Changes) : State :=
  let s := s.applyChanges (0x5000 + k) c
  let v := s.scalar (0x5000 + k)
  let ld := s.tenantLd (v 2)
  let loan := v 3 == 1
  let region := if loan ∧ ld < 16 then (s.freeRegionOf ld).map fun r => (ld, r) else none
  let x : Comp := { slot := k, id := v 1, tenant := v 2, loan := loan, region := region, meters := { since := s.now, upTo := s.now } }
  let s := { s with comps := s.comps ++ [x] }
  if loan then s.offerExtent x 0 (v 0xB) else s

/-- Store a staged map as the object's value and install it. -/
def State.takeMap (s : State) (k : Nat) (bs : List Byte) : State :=
  ((s.clearOctets (0x5000 + k) 6).setOctets (0x5000 + k) 6 0 bs).installMap k (mapIn bs)

/-- The staged values without the map. -/
def noMap (c : Changes) : Changes := c.filter (·.1 != 6)

/-- Checks on the staged map, when there is one. -/
def State.mapDecides (s : State) (k : Nat) (c : Changes) : Option Status :=
  let v := s.would c (0x5000 + k)
  if c.has 6 then if s.isBanked then some .busyRetry else firstFail (s.mapChecks k (v 1) (v 2) (s.stagedMap (0x5000 + k) c)) else none

/-- COMMIT on a slot that is not FREE. -/
def State.commitHeld (s : State) (x : Comp) (c : Changes) : Status × State :=
  let idx := 0x5000 + x.slot
  let admin0 := c.has 4 && s.would c idx 4 == 0
  if x.state ≠ .active then
    if x.state = .annealing ∧ x.loan ∧ admin0 then (.ok, (s.quenchLoan x .revoked).2) else (.revoked, s)
  else match firstFail ([(!s.compFixed x c, .rangeFault)] ++ s.compChecks x.slot c false) with
    | some st => (st, s)
    | none =>
      match s.mapDecides x.slot c with
      | some st => (st, s)
      | none =>
        let bs := s.stagedMap idx c
        let old := s.scalar idx 0xB
        let s := s.applyChanges idx (noMap c)
        let s := if c.has 6 then s.takeMap x.slot bs else s
        if admin0 then (.ok, if x.loan then (s.quenchLoan x .revoked).2 else s.releaseComp x)
        else (.ok, if x.loan then s.loanBytesChanged x old (s.scalar idx 0xB) else s)

/-- COMMIT on a FREE slot. -/
def State.commitFree (s : State) (k : Nat) (c : Changes) : Status × State :=
  let idx := 0x5000 + k
  let activating := c.has 4 && s.would c idx 4 == 1
  let room := [(c.has 6 && !activating, Status.rangeFault),
    (activating && s.would c idx 3 == 1 && s.noRegion (s.would c idx 2), .capacity)]
  match firstFail (s.compChecks k c activating ++ room) with
  | some st => (st, s)
  | none =>
    match s.mapDecides k c with
    | some st => (st, s)
    | none =>
      if activating then
        let bs := s.stagedMap idx c
        let s := s.activateComp k (noMap c)
        (.ok, if c.has 6 then s.takeMap k bs else s)
      else (.ok, s.applyChanges idx c)

/-- COMMIT of object 0x5000 + k. -/
def State.commitComp (s : State) (k : Nat) (c : Changes) : Status × State :=
  match s.comp k with
  | some x => s.commitHeld x c
  | none => s.commitFree k c

/-- A released composition's slot is FREE; its frames stay the tenant's. -/
def State.freeComp (s : State) (slot : Nat) : State :=
  let s := { s with
    comps := dropWhere (·.slot == slot) s.comps
    wqs := modWhere (·.comp == slot) (fun w => { w with comp := noComp }) s.wqs
    cqs := modWhere (·.comp == slot) (fun w => { w with comp := noComp }) s.cqs
    reqs := modWhere (·.comp == slot) (fun q => { q with comp := noComp }) s.reqs
    fab := { s.fab with conns := modWhere (·.comp == slot) (fun c => { c with comp := noComp }) s.fab.conns } }
  let s := s.modMem fun m => { m with frames := modWhere (·.comp == slot) (fun f => { f with comp := noComp }) m.frames }
  (s.clearScalars (0x5000 + slot)).clearOctets (0x5000 + slot) 6

def execCompositionFreed (slot : Nat) (s : State) : Host.Outcome State Fault Refusal :=
  .next <|
    match s.comp slot with
    | some c => if s.node.powered ∧ c.state = .releasing ∧ s.mapUses slot (fun _ => true) = 0 then s.freeComp slot else s
    | none => s

/-- WRITE of EXPORT_KEY: LOAN only. -/
def State.writeExportKey (s : State) (k : Nat) (bs : List Byte) : Status × State :=
  match s.comp k with
  | some c => if c.loan then (.ok, s.modComp k fun c => { c with exportKey := some (BitVec.ofNat 512 (leVal bs)) }) else (.rangeFault, s)
  | none => (.rangeFault, s)

/-- WRITE of QUENCH_NOW: 1, and LOAN only. -/
def State.writeQuenchNow (s : State) (k v : Nat) : Status × State :=
  match s.comp k with
  | some c => if c.loan ∧ v = 1 then (.ok, (s.quenchLoan c .revoked).2) else (.rangeFault, s)
  | none => (.rangeFault, s)

/-! ### Samples (R319) and refills (R316) -/

def maxSamples : Nat := 1024

/-- Depth and head delay of one flow in some queues. -/
def flowSample (now : Nat) (qs : List (List Job)) (t : Nat) (loan : Bool) : Nat × Nat :=
  let js := qs.flatMap fun q => q.filter (·.flow t loan)
  (js.length, js.foldl (fun a j => max a (now - j.since)) 0)

/-- Queues of a resource's scheduler points. -/
def State.pointQueues (s : State) (r : Nat) : List (List Job) :=
  if r = 1 then [s.eng.coreQueue] else if r = 2 then s.eng.units.map (·.queue) else if r = 3 then s.eng.lower.map (·.queue) else []

/-- Depth and head delay of one flow at the ports: its packets that only pace or bucket holds. -/
def State.portSample (s : State) (t : Nat) (loan : Bool) : Nat × Nat :=
  let os := (s.fab.conns.filter fun c => c.tenant == t && s.connLoan c == loan).flatMap fun c =>
    [0, 1, 2].flatMap fun sp => (c.send sp).outs.filter fun o => o.waits && c.maySend sp o.psn
  (os.length, os.foldl (fun a o => max a (s.now - o.since)) 0)

/-- Sample every flow of a tenant. -/
def State.sampleTenant (s : State) (x : Tenant) : Tenant :=
  let one := fun i : Nat =>
    let d := if i < 2 then s.portSample x.id (i == 1) else flowSample s.now (s.pointQueues (i / 2)) x.id (i % 2 == 1)
    { hist := (d :: (x.samples.getD i {}).hist).take maxSamples : Sample }
  { x with samples := (List.range 8).map one, sampleTime := s.clk.ltime }

def execSchedSample (s : State) : Host.Outcome State Fault Refusal :=
  .next <| if s.node.powered then { s with tenants := s.tenants.map s.sampleTenant } else s

/-- Idle units, cores or ports with work waiting choose again. -/
def execBucketRefill (tenant res : Nat) (s : State) : Host.Outcome State Fault Refusal :=
  .next <|
    if (s.tenant tenant).isNone ∨ !s.coreRuns then s
    else if res = 2 then ((s.eng.units.filter fun u => u.step.isNone && !u.queue.isEmpty).map (·.n)).foldl State.kickUnit s
    else if res = 3 then s.ltPump
    else if res = 1 then ((List.range (s.variant.count .core)).filter fun c => (s.coreSt c).piece.isNone).foldl State.kickCore s
    else if res = 0 then s.egress
    else s

end Sys2Proof.Machine
end

