-- ==== Sys2Proof/Machine/Cxl.lean ====
section
/-! DEFINITION. Sys2Proof/Machine/Cxl.lean: host memory accesses (R338-R341, R357), the objects of the logical devices (R337,
R339), and the CXL link. -/

namespace Sys2Proof.Machine

open Sys2Proof

/-! ### HDM decoders (R338; the rule of a commit is PRESUMED from CXL 3.1, log 12) -/

def mib256 : Nat := 268435456

/-- DPA at which a decoder's range begins: past the ranges and skips of the lower decoders, and its own skip. -/
def decoderBase (ds : List Decoder) (i : Nat) : Nat :=
  sumOf (fun d => d.skip + d.size) (ds.take i) + (ds.getD i {}).skip

/-- The DPA that a host address decodes to. -/
def Ld.decode (l : Ld) (hpa : Nat) : Option Nat :=
  ((l.decoders.zipIdx.find? fun d => d.1.committed && decide (d.1.base ≤ hpa) && decide (hpa < d.1.base + d.1.size)).map fun d =>
    decoderBase l.decoders d.2 + (hpa - d.1.base))

/-- Interleave ways 1, aligned, above the lower decoders, all of them committed, and below the higher ones. -/
def Ld.decoderOk (l : Ld) (i base size skip ways : Nat) : Bool :=
  ways == 1 && decide (base % mib256 = 0) && decide (size % mib256 = 0) && decide (skip % mib256 = 0) && size != 0 && decide (base + size ≤ 2 ^ 64) &&
  (l.decoders.take i).all (fun d => d.committed && decide (d.base + d.size ≤ base)) &&
  (l.decoders.drop (i + 1)).all (fun d => !d.committed || decide (base + size ≤ d.base))

/-- The LD is presented to its host. -/
def State.ldPresent (s : State) (ld : Nat) : Bool := s.node.powered && decide (ld < s.ldCount)

/-- Bytes 0x0C to 0x17 of the node DVSEC in an LD's view of configuration space: PRESENCE, STACKS, LD_INDEX, NODE_ID, BANKED and READY
(R2, R336). -/
def State.nodeDvsec (s : State) (ld : Nat) : List Byte :=
  leBytes 4 s.variant.presence ++ leBytes 1 s.variant.stackCount ++ leBytes 1 ld ++ leBytes 2 s.nodeId ++
  leBytes 4 (2 * b2n (s.node.phase == .banked) + b2n s.node.ready)

/-- The Media Status field of the Memory Device Status register reads Ready (R336). -/
def State.mediaReady (s : State) : Bool := s.node.ready && s.node.phase != .banked

def execHdmDecoderCommit (ld dec base size skip ways : Nat) (s : State) : Host.Outcome State Fault Refusal :=
  .next <|
    if s.ldPresent ld ∧ dec < 4 ∧ (s.ld ld).decoderOk dec base size skip ways then
      s.modLd ld fun l => { l with decoders := l.decoders.set dec { base := base, size := size, skip := skip, committed := true } }
    else if s.ldPresent ld ∧ dec < 4 ∧ !((s.ld ld).decoders.getD dec {}).committed then
      s.modLd ld fun l => { l with decoders := l.decoders.set dec { base := base, size := size, skip := skip, error := true } }
    else s

/-! ### Resolving a DPA (R340) -/

inductive Resolved where
  | nothing
  | memory (tenant addr : Nat)
  | window (tenant addr : Nat)
  deriving DecidableEq, Repr

def State.resolve (s : State) (ld dpa : Nat) : Resolved :=
  if dpa < 2 ^ 48 then
    match (s.usedApertures ld).find? fun a => decide (a.base ≤ dpa) && decide (dpa < a.base + a.length) with
    | some a => if a.kind = 1 then .memory a.tenant (a.taddr + (dpa - a.base)) else .window a.tenant (dpa - a.base)
    | none => .nothing
  else
    let r := dpa / 2 ^ 48 - 1
    let off := dpa % 2 ^ 48
    if (s.ld ld).extents.any fun x => x.accepted && x.region == r && decide (x.off ≤ off) && decide (off < x.off + x.len) then
      match s.comps.find? fun c => c.region == some (ld, r) with
      | some c => .memory c.tenant off
      | none => .nothing
    else .nothing

/-! ### Accesses (R341, R357) -/

/-- The access is over: a read has returned zeros, a write is discarded. -/
def State.zeroLine (s : State) (ld : Nat) (write : Bool) : State := s.emit (if write then .hostDone ld else .hostLine ld 0)

/-- Undefined data for a read; a write is discarded. -/
def State.lostLine (s : State) (ld : Nat) (write : Bool) : State := if write then s.emit (.hostDone ld) else s.undefLine ld

/-- A DPA that resolves to nothing (DEDUCED, log 44). -/
def State.dpaFault (s : State) (ld dpa : Nat) (write : Bool) : State :=
  ((s.count (0x3230 + ld) 5).vendorRecord ld vcDpa write 0xFFFF dpa 0).zeroLine ld write

/-- A translation fault of a host access (R91). -/
def State.xlateFault (s : State) (ld t dpa a : Nat) (write : Bool) : State :=
  (((s.count (0x4000 + t) 0x54).vendorRecord ld vcXlate write t dpa a).raiseTenant t kindXlate).zeroLine ld write

/-- An access waits in a bank queue, its walk live (R95). -/
def State.queueLine (s : State) (u : NbUnit) (a : HostLine) : State :=
  (s.setNb { u with lines := u.lines ++ [.host a] }).modMem fun m => { m with walks := m.walks ++ [⟨hostWalk, a.tenant, a.frame, a.walk⟩] }

/-- A line whose frame has been found: it waits in its channel's bank queue while the unit is in a step (R176), its walk live (R95). -/
def State.lineAccess (s : State) (a : HostLine) : State :=
  let a := { a with walk := s.mem.walkEpoch }
  match (s.frame a.frame).map (·.place) with
  | some (Place.upper ch _) =>
    let u := s.nbUnit ch
    if s.variant.nearBank && (u.step.isSome || !u.lines.isEmpty) then
      s.queueLine u a
    else s.serveLine a
  | _ => s.serveLine a

/-- The unit in whose bank queue an access to the same line waits. -/
def State.queuedBehind (s : State) (a : HostLine) : Option NbUnit :=
  s.eng.units.find? fun u => u.lines.any fun l => match l with
    | .host b => b.frame == a.frame && b.line == a.line
    | .remote _ | .fetch _ _ _ _ _ => false

/-- Accesses to one line take effect in the order received: one that follows a held store of its line, or an access that waits in a bank queue,
waits behind it, wherever the frame lies by now (R341). -/
def State.orderedLine (s : State) (a : HostLine) : State :=
  if s.eng.stores.any fun b => b.frame == a.frame && b.line == a.line then s.holdLine { a with walk := s.mem.walkEpoch }
  else match s.queuedBehind a with
    | some u => s.queueLine u { a with walk := s.mem.walkEpoch }
    | none => s.lineAccess a

/-- A host access to tenant memory. -/
def State.memAccess (s : State) (ld t dpa a : Nat) (write : Option (BitVec 512)) : State :=
  let w := write.isSome
  if !s.coreRuns then (s.vendorRecord ld vcBanked w t dpa a).lostLine ld w
  else match s.walk t a (if w then .write else .read) with
    | .hit n off =>
      (s.heatWalk t a n).orderedLine { ld := ld, tenant := t, dpa := dpa, addr := a, frame := n, line := off / 64, write := write }
    | _ => s.xlateFault ld t dpa a w

/-- One access, once its DPA is known. -/
def State.dpaAccess (s : State) (ld dpa : Nat) (write : Option (BitVec 512)) : State :=
  match s.resolve ld dpa with
  | .nothing => s.dpaFault ld dpa write.isSome
  | .memory t a => s.memAccess ld t dpa a write
  | .window t a => s.winAccess ld t a write

/-- The link carries an access of an LD. -/
def State.linkCarries (s : State) (ld : Nat) : Bool := s.ldPresent ld && s.node.linkUp

/-- Decoding fails below the DPA: no committed decoder holds the host address, and the access is none of the node's. -/
def State.cxlAccess (s : State) (ld hpa : Nat) (write : Option (BitVec 512)) : State :=
  match (s.ld ld).decode hpa with
  | some dpa => s.dpaAccess ld dpa write
  | none => s

def execCxlMemRead (ld hpa : Nat) (s : State) : Host.Outcome State Fault Refusal :=
  .next <| if s.linkCarries ld then s.cxlAccess ld hpa none else s

/-- A write received with poison is discarded, whatever it addresses (R357). -/
def execCxlMemWrite (ld hpa : Nat) (line : BitVec 512) (poison : Bool) (s : State) : Host.Outcome State Fault Refusal :=
  .next <|
    if !s.linkCarries ld then s
    else if poison then
      match (s.ld ld).decode hpa with
      | some dpa => ((s.count (0x3230 + ld) 6).logRecord ld logWarn (.media true dpa)).emit (.hostDone ld)
      | none => s
    else s.cxlAccess ld hpa (some line)

/-! ### The lower tier's limit and its waits (R185, R186) -/

/-- A host load of a lower-tier frame whose container read is late (R186, R357). -/
def State.lateLoad (s : State) (ld hpa : Nat) : State :=
  match (s.ld ld).decode hpa with
  | none => s
  | some dpa =>
    match s.resolve ld dpa with
    | .memory t a =>
      match s.walk t a .read with
      | .hit n off =>
        if (s.placeOf n).isLower then
          ((s.heatWalk t a n).count 0x6100 9).mediaLine { ld := ld, tenant := t, dpa := dpa, addr := a, frame := n, line := off / 64, write := none }
        else s
      | _ => s
    | _ => s

def execLtReadLimitExpiry (x : LateRead) (s : State) : Host.Outcome State Fault Refusal :=
  .next <|
    if !s.coreRuns then s
    else match x with
      | .request r =>
        match s.req r with
        | some q => if s.variant.hasLower && q.live && s.readsLower q then (s.count 0x6100 9).abandon r .timeout else s
        | none => s
      | .host ld hpa => if s.linkCarries ld then s.lateLoad ld hpa else s
      | .metadata k t key req => s.stallMeta k t key req false

/-- Serve the held host accesses in order, until a store among them must go on waiting; those behind it stay held (R185, R341). -/
def State.serveHeld (s : State) : List HostLine → State
  | [] => s
  | a :: l =>
    let s := (s.serveLine a).endHostWalk a
    if s.eng.stores.isEmpty then s.serveHeld l else { s with eng := { s.eng with stores := s.eng.stores ++ l } }

def execLowerSectorWaitEnd (x : SectorWait) (s : State) : Host.Outcome State Fault Refusal :=
  .next <|
    match x with
    | .request r =>
      match s.req r with
      | some q => if q.phase = .waiting .sectors then s.modReq r fun q => { q with phase := .started } else s
      | none => s
    | .host => ({ s with eng := { s.eng with stores := [] } } : State).serveHeld s.eng.stores

/-! ### Objects of the logical devices (R337, R339) -/

/-- The rules of one aperture entry of an LD. -/
def State.apertureOk (s : State) (ld : Nat) (a : Aperture) : Bool :=
  a.kind == 0 ||
  (a.kind != 3 && decide (a.length % mib256 = 0) && decide (a.base % mib256 = 0) && decide (a.base + a.length ≤ 2 ^ 48) &&
   s.tenantLd a.tenant == ld && (if a.kind = 1 then decide (a.taddr % mib256 = 0) && decide (a.taddr + a.length ≤ s.addrLimit a.tenant)
     else a.taddr == 0))

/-- Two used entries overlap in DPA, or give one tenant two windows. -/
def Aperture.clash (a b : Aperture) : Bool :=
  a.kind != 0 && b.kind != 0 &&
  ((decide (a.base < b.base + b.length) && decide (b.base < a.base + a.length)) || (a.kind == 2 && b.kind == 2 && a.tenant == b.tenant))

/-- No two elements of a list clash. -/
def noClash {α : Type} (f : α → α → Bool) : List α → Bool
  | [] => true
  | x :: xs => xs.all (fun y => !f x y) && noClash f xs

/-- Bits of TARGETS that other LDs hold. -/
def State.otherTargets (s : State) (ld : Nat) : Nat :=
  ((List.range 16).filter (· != ld)).foldl (fun a n => a ||| s.targets n) 0

/-- COMMIT of 0x3230 + ld. Sources whose targets have become live are routed again (R371). -/
def State.commitLd (s : State) (ld : Nat) (c : Changes) : Status × State :=
  let idx := 0x3230 + ld
  let aps := aperturesIn (s.wouldBytes c idx 2 0 2048)
  let checks := [(c.has 1 && (s.would c idx 1 &&& s.otherTargets ld) != 0, Status.rangeFault),
    (c.has 2 && (!aps.all (s.apertureOk ld) || !noClash Aperture.clash aps), .rangeFault)]
  s.commitChecked idx c checks fun s => if c.has 1 then s.rerouteWaiting fun _ => true else s

/-- A tenant holds queues or apertures. -/
def State.boundToLd (s : State) (t : Nat) : Bool :=
  s.wqs.any (·.tenant == t) || s.cqs.any (·.tenant == t) ||
  (List.range 16).any fun ld => (s.usedApertures ld).any (·.tenant == t)

/-- Tenants whose byte of TENANT_LD a COMMIT changes. -/
def State.movedTenants (s : State) (c : Changes) : List Nat :=
  ((c.at 3).map (·.1)).filter fun t => s.wouldByte c 0x3240 3 t != s.octByte 0x3240 3 t

/-- COMMIT of 0x3240; a source whose tenant has moved is routed again where a target of its new LD is live (R371). An LD that TENANT_LD names is one that the node presents (DEDUCED, log 45). -/
def State.commitLdConfig (s : State) (c : Changes) : Status × State :=
  let v := s.would c 0x3240
  let ldOk := fun b : Byte => b == 0xFF || decide (b.toNat < s.ldCount)
  s.commitChecked 0x3240 c (go := fun s => if c.has 3 then s.rerouteWaiting fun _ => true else s)
    [(!s.ranged c 0x3240 1 1 16, .rangeFault),
     ((c.has 1 || c.has 2) && decide (v 1 ≤ v 2), .rangeFault),
     (c.has 3 && ((s.wouldByte c 0x3240 3 0).toNat != s.mgmtLd || !(c.at 3).all fun x => ldOk (s.wouldByte c 0x3240 3 x.1)), .rangeFault),
     ((s.movedTenants c).any s.boundToLd, .busyRetry)]

/-! ### MSI-X and Bus Master Enable (R370, R371, R454) -/

/-- A message that waits in the pending bit array is sent once neither its entry nor the function is masked and MSI-X is on (R370). -/
def State.sendHeld (s : State) (ld i : Nat) : State :=
  let l := s.ld ld
  if l.pba.getLsbD i && !l.vecMask.getLsbD i && l.msixOn && !l.msixMask then
    (s.modLd ld fun l => { l with pba := putBit l.pba i false }).sendMsix ld i
  else s

/-- An entry is unmasked in its Vector Control. -/
def State.unmaskEntry (s : State) (ld i : Nat) : State :=
  (s.modLd ld fun l => { l with vecMask := putBit l.vecMask i false }).sendHeld ld i

/-- Every message that waits in the PBA of an LD and may leave leaves (R370). -/
def State.sendAllHeld (s : State) (ld : Nat) : State := (List.range 2048).foldl (fun s i => s.sendHeld ld i) s

/-- MSI-X of a function is switched on or off, or masked: what it held is sent, and its targets that have become live are tried again (R371). -/
def State.msixFunction (s : State) (ld : Nat) (on masked : Bool) : State :=
  let s := s.modLd ld fun l => { l with msixOn := on, msixMask := masked }
  if on && !masked then (s.sendAllHeld ld).rerouteWaiting fun src => s.sourceLd src == ld else s

def execMsixControlWrite (ld : Nat) (w : MsixWrite) (s : State) : Host.Outcome State Fault Refusal :=
  .next <|
    if !s.ldPresent ld then s
    else match w with
      | .function on masked => s.msixFunction ld on masked
      | .entry i masked =>
        if 2048 ≤ i then s
        else if masked then s.modLd ld fun l => { l with vecMask := putBit l.vecMask i true }
        else s.unmaskEntry ld i
      | .message i a d =>
        if 2048 ≤ i then s else s.modLd ld fun l => { l with vectors := assocPut l.vectors i (a % 2 ^ 64 / 4 * 4, d % 2 ^ 32) (0, 0) }

/-- A 16-byte entry of the MSI-X table at BAR0 offset 0x4_0000: message address, data and Vector Control (R344; PRESUMED from PCIe, log 12). -/
def Ld.msixEntry (l : Ld) (i : Nat) : List Byte :=
  let m := assocGet l.vectors i (0, 0)
  leBytes 8 m.1 ++ leBytes 4 m.2 ++ leBytes 4 (b2n (l.vecMask.getLsbD i))

/-- DMA of the LD goes on: what waited for it is tried again by its own row (DESIGN CHOICE, log 19). -/
def execBusMasterEnableWrite (ld : Nat) (on : Bool) (s : State) : Host.Outcome State Fault Refusal :=
  .next <| if s.ldPresent ld then s.modLd ld fun l => { l with busMaster := on } else s

/-- The CXL link comes up: PERST_N is inactive and PE_REFCLK runs (R447 step 9, R455, R463). -/
def execCxlLinkTrainingDone (s : State) : Host.Outcome State Fault Refusal :=
  .next <|
    if s.node.powered ∧ !s.node.recovery ∧ !s.node.pins.getLsbD pinPerst then
      { s with node := { s.node with linkUp := true }, clk := { s.clk with refclk := true } }
    else s

end Sys2Proof.Machine
end

