-- ==== Sys2Proof/Machine/Mailbox.lean ====
section
/-! DEFINITION. Sys2Proof/Machine/Mailbox.lean: the primary mailbox of each logical device: standard commands (R348, R362), dynamic
capacity (R343), the vendor commands of R351-R354, and the DOE mailbox (R355). What CXL 3.1 lays out is PRESUMED (log 12). -/

namespace Sys2Proof.Machine

open Sys2Proof

/-! ### Return codes and replies -/

def rcSuccess : Nat := 0
def rcBackground : Nat := 1
def rcInvalid : Nat := 2
def rcUnsupported : Nat := 3
def rcBusy : Nat := 6
def rcHandle : Nat := 0xE
def rcLength : Nat := 0x16
def rcExtents : Nat := 0x1E

/-- The mailbox takes a command. -/
def State.mboxTake (s : State) (ld op : Nat) : State := s.modLd ld fun l => { l with mbox := { op := op } }

/-- Answer a mailbox command: its return code and output stand in the mailbox's registers. -/
def State.mbox (s : State) (ld rc : Nat) (bs : List Byte := []) : State :=
  (s.modLd ld fun l => { l with mbox := { l.mbox with rc := rc, output := bs } }).emit (.mailbox ld rc bs)

/-- A command that the link brings to an LD's mailbox. -/
def State.mailboxRow (s : State) (ld op : Nat) (go : State → State) : State := if s.linkCarries ld then go (s.mboxTake ld op) else s

/-- A command that only reports: `op` is its opcode, `vs` is what it reports in the layout of CXL, and `bs` what the spec lays out. -/
def State.mboxReport (s : State) (ld op : Nat) (vs : List Nat) (bs : List Byte := []) : State :=
  s.mailboxRow ld op fun s => s.mbox ld rcSuccess (Config.cxlPayload op vs ++ bs)

/-- Opcodes of the mailbox. -/
def mboxOpcodes : List Nat :=
  [0x0001, 0x0002, 0x0100, 0x0101, 0x0102, 0x0103, 0x0200, 0x0201, 0x0202, 0x0300, 0x0301, 0x0400, 0x0401, 0x4000, 0x4200, 0x4800, 0x4801,
   0x4802, 0x4803, 0xC000, 0xC100, 0xC101, 0xC200, 0xC201, 0xC300]

def execUnsupportedMailboxCommand (ld op : Nat) (s : State) : Host.Outcome State Fault Refusal :=
  .next <| if mboxOpcodes.contains op then s else s.mailboxRow ld op fun s => s.mbox ld rcUnsupported

def execIdentify (ld : Nat) (s : State) : Host.Outcome State Fault Refusal :=
  .next <| s.mboxReport ld 0x0001 [0x1FC5, s.variant.deviceId, ld]

/-- Output bytes of a background command that has ended: its status, then the rest of its table (R349, R352, R354). -/
def Background.bytes (b : Background) : List Byte := if b.reported then BitVec.ofNat 8 (b.status.getD .ok).code :: b.output else []

/-- The background command, and once it has ended its output bytes (DEDUCED, log 46). -/
def execBackgroundOperationStatus (ld : Nat) (s : State) : Host.Outcome State Fault Refusal :=
  .next <| s.mboxReport ld 0x0002 (((s.ld ld).background.map fun b => [b.op, if b.reported then 100 else 0]).getD [])
    (((s.ld ld).background.map (·.bytes)).getD [])

/-- Identifier of the Command Effects Log. -/
def effectsLog : Nat := 0x0401

def execGetSupportedLogs (ld : Nat) (s : State) : Host.Outcome State Fault Refusal := .next <| s.mboxReport ld 0x0400 [effectsLog]

/-- Part of the Command Effects Log, which lists every implemented command. -/
def execGetLog (ld off len : Nat) (s : State) : Host.Outcome State Fault Refusal :=
  .next <| s.mailboxRow ld 0x0401 fun s =>
    let bs := Config.cxlPayload effectsLog mboxOpcodes
    if off + len ≤ bs.length then s.mbox ld rcSuccess ((bs.drop off).take len) else s.mbox ld rcInvalid

/-! ### Event records (R357, R358) -/

/-- Body of a vendor record, from offset 0x30 on. -/
def vendorBody (cause : Nat) (write : Bool) (tenant count dpa addr : Nat) (time : BitVec 64) : List Byte :=
  leBytes 1 cause ++ leBytes 1 (b2n write) ++ leBytes 2 tenant ++ leBytes 4 count ++ leBytes 8 dpa ++ leBytes 8 addr ++ leBytes 8 time.toNat ++
  List.replicate 48 0

/-- Bytes of the UUID of vendor records (R358), in the order in which it is written. -/
def vendorUuid : List Byte := (leBytes 16 0xd3a7c1e05b444f198e621c0f9a3b7d55).reverse

/-- UUIDs of the standard records of CXL 3.1: General Media and Dynamic Capacity (PRESUMED, log 12). -/
def mediaUuid : List Byte := (leBytes 16 0xfbcd0a77c260417f85a9088b1621eba6).reverse
def dcdUuid : List Byte := (leBytes 16 0xca95afa7f18340188c2f95268e101a2a).reverse

/-- Bytes of an event record, and of its common header. -/
def evBytes : Nat := 128
def evHead : Nat := 48

/-- The common header of an event record: UUID, length, the severity of its log, handle, timestamp, and zeros up to offset 0x30 (R358;
the layout PRESUMED from CXL 3.1, log 12). -/
def LogRec.head (r : LogRec) (uuid : List Byte) (stamp : Nat) : List Byte :=
  padTo evHead (uuid ++ leBytes 1 evBytes ++ leBytes 3 (if r.log = logDcd then 0 else r.log) ++ leBytes 2 r.handle ++ leBytes 2 0 ++ leBytes 8 stamp)

/-- Transaction types of a General Media record. -/
def hostRead : Nat := 1
def hostWrite : Nat := 2

/-- Body of a General Media record: DPA, an uncorrectable event of the type ECC error, and the host's transaction (R357; PRESUMED from CXL 3.1,
log 12). -/
def mediaBody (write : Bool) (dpa : Nat) : List Byte :=
  padTo (evBytes - evHead) (leBytes 8 dpa ++ leBytes 1 1 ++ leBytes 1 0 ++ leBytes 1 (if write then hostWrite else hostRead))

/-- Tag of an extent: its tenant and COMP_ID (R342). -/
def extentTag (tenant comp : Nat) : List Byte := leBytes 2 tenant ++ leBytes 2 comp ++ List.replicate 12 0

/-- An extent as CXL 3.1 lays it out: DPA, length, tag, and shared sequence number 0 (R342; PRESUMED, log 12). -/
def extentBytes (dpa len tenant comp : Nat) : List Byte := leBytes 8 dpa ++ leBytes 8 len ++ extentTag tenant comp ++ leBytes 2 0 ++ List.replicate 6 0

/-- Body of a Dynamic Capacity record: its type, its region and the extent (R343; PRESUMED from CXL 3.1, log 12). -/
def dcdBody (kind region dpa len tenant comp : Nat) : List Byte :=
  padTo (evBytes - evHead) (leBytes 4 kind ++ leBytes 4 region ++ extentBytes dpa len tenant comp)

/-- A record as Get Event Records gives it; only the standard records carry the host's timestamp (R28, R348). -/
def LogRec.bytes (r : LogRec) : List Byte :=
  match r.body with
  | .vendor c w t n d a time => r.head vendorUuid 0 ++ vendorBody c w t n d a time
  | .media w d => r.head mediaUuid r.stamp.toNat ++ mediaBody w d
  | .dcd k g o l t c => r.head dcdUuid r.stamp.toNat ++ dcdBody k g (2 ^ 48 * (g + 1) + o) l t c

def execGetEventRecords (ld log : Nat) (s : State) : Host.Outcome State Fault Refusal :=
  .next <| s.mailboxRow ld 0x0100 fun s =>
    if logDcd < log then s.mbox ld rcInvalid
    else
      let rs := (s.ld ld).log.filter (·.log == log)
      s.mbox ld rcSuccess (Config.cxlPayload 0x0100 [log, rs.length] ++ rs.flatMap LogRec.bytes)

def execClearEventRecords (ld log : Nat) (handles : List Nat) (all : Bool) (s : State) : Host.Outcome State Fault Refusal :=
  .next <| s.mailboxRow ld 0x0101 fun s =>
    if logDcd < log then s.mbox ld rcInvalid
    else if all then (s.modLd ld fun l => { l with log := dropWhere (·.log == log) l.log }).mbox ld rcSuccess
    else if !handles.all fun h => (s.ld ld).log.any fun r => r.log == log && r.handle == h then s.mbox ld rcHandle
    else (s.modLd ld fun l => { l with log := dropWhere (fun r => r.log == log && handles.contains r.handle) l.log }).mbox ld rcSuccess

/-! ### Event interrupt policy (R362, R356) -/

/-- Table entry of a route entry's single target. -/
def policyEntry (e : Nat) : Nat := 32 * (((List.range 64).find? fun t => bit (rtTgt e) t).getD 0) + rtVector e

def execGetEventInterruptPolicy (ld : Nat) (s : State) : Host.Outcome State Fault Refusal :=
  .next <| s.mboxReport ld 0x0102 ((List.range 5).map fun k => policyEntry (s.routeEntry (srcLd ld k)))

/-- A route entry with one target and a vector. -/
def policyRoute (e entry : Nat) : Nat :=
  e - rtTgt e * 2 ^ 64 - rtVector e * 2 ^ 43 + 2 ^ (entry / 32) * 2 ^ 64 + entry % 32 * 2 ^ 43

def State.setRoute (s : State) (src e : Nat) : State := s.setOctets 0x3300 1 (16 * src) (leBytes 16 e)

def execSetEventInterruptPolicy (ld log entry : Nat) (s : State) : Host.Outcome State Fault Refusal :=
  .next <| s.mailboxRow ld 0x0103 fun s =>
    if logDcd < log ∨ 2048 ≤ entry ∨ !bit (s.targets ld) (entry / 32) then s.mbox ld rcInvalid
    else
      let src := srcLd ld log
      ((s.setRoute src (policyRoute (s.routeEntry src) entry)).rerouteWaiting (· == src)).mbox ld rcSuccess

/-! ### Timestamp, capacity and health -/

def execGetTimestamp (ld : Nat) (s : State) : Host.Outcome State Fault Refusal :=
  .next <| s.mailboxRow ld 0x0300 fun s => s.mbox ld rcSuccess (leBytes 8 s.timestamp.toNat)

def execSetTimestamp (ld : Nat) (v : BitVec 64) (s : State) : Host.Outcome State Fault Refusal :=
  .next <| s.mailboxRow ld 0x0301 fun s => ({ s with clk := { s.clk with stamp := v, stampAt := s.clk.ltime } }).mbox ld rcSuccess

/-- Volatile capacity: the end of the highest aperture, rounded up to 256 MiB (R338). -/
def State.volatileBytes (s : State) (ld : Nat) : Nat :=
  roundUp ((s.usedApertures ld).foldl (fun a x => max a (x.base + x.length)) 0) mib256

def execIdentifyMemoryDevice (ld : Nat) (s : State) : Host.Outcome State Fault Refusal := .next <| s.mboxReport ld 0x4000 [s.volatileBytes ld]

/-- Eight regions of 2^48 bytes with 2 MiB blocks (R338). -/
def execGetDynamicCapacityConfiguration (ld : Nat) (s : State) : Host.Outcome State Fault Refusal :=
  .next <| s.mboxReport ld 0x4800 ((List.range 8).flatMap fun r => [2 ^ 48 * (r + 1), 2 ^ 48, dcBlock])

/-- An accepted extent, with its tag (R342). -/
def State.extentReport (s : State) (ld : Nat) (x : Extent) : List Byte :=
  let c := s.comps.find? fun c => c.region == some (ld, x.region)
  extentBytes (2 ^ 48 * (x.region + 1) + x.off) x.len (c.elim 0 (·.tenant)) (c.elim 0 (·.id))

def execGetDynamicCapacityExtentList (ld : Nat) (s : State) : Host.Outcome State Fault Refusal :=
  .next <|
    let xs := (s.ld ld).extents.filter (·.accepted)
    s.mboxReport ld 0x4801 [xs.length] (xs.flatMap (s.extentReport ld))

/-! ### Dynamic capacity responses (R343, R359) -/

/-- A DPA range as (region, offset, length). -/
def dcRange (x : Nat × Nat) : Nat × Nat × Nat := (x.1 / 2 ^ 48 - 1, x.1 % 2 ^ 48, x.2)

/-- The part of an extent inside `[off, off + len)`, accepted. -/
def Extent.inside (x : Extent) (off len : Nat) : List Extent :=
  let lo := max x.off off
  let hi := min (x.off + x.len) (off + len)
  if lo < hi then [{ x with off := lo, len := hi - lo, accepted := true }] else []

/-- Offsets of the blocks withdrawn for errors in a region of an LD (R343). -/
def State.goneBlocks (s : State) (ld r : Nat) : List Nat := ((s.comps.find? fun c => c.region == some (ld, r)).map (·.withdrawn)).getD []

/-- The ends of an offer, widened by the withdrawn blocks that were cut off there (R359). -/
def widenOffer (gone : List Nat) (x : Nat × Nat) : Nat × Nat :=
  gone.foldl (fun x _ => (if dcBlock ≤ x.1 ∧ gone.contains (x.1 - dcBlock) then x.1 - dcBlock else x.1, if gone.contains x.2 then x.2 + dcBlock else x.2)) x

/-- The extents of an LD after the host's answer to the oldest offer; none where the ranges leave it. A block withdrawn meanwhile may be
named, and has no part in the answer (R359). -/
def acceptExtents (gone : Nat → List Nat) (xs : List Extent) (ranges : List (Nat × Nat)) : Option (List Extent) :=
  match xs.find? fun x => !x.accepted with
  | none => if ranges.isEmpty then some xs else none
  | some x0 =>
    let offered := xs.filter fun x => !x.accepted && x.offer == x0.offer
    let (lo, hi) := widenOffer (gone x0.region) (offered.foldl (fun a x => min a x.off) x0.off, offered.foldl (fun a x => max a (x.off + x.len)) 0)
    let rs := ranges.map dcRange
    if rs.all fun r => r.1 == x0.region && decide (lo ≤ r.2.1) && decide (r.2.1 + r.2.2 ≤ hi) then
      let mine := offered.flatMap fun x => rs.flatMap fun r => x.inside r.2.1 r.2.2
      some (xs.filter (fun x => x.accepted || x.offer != x0.offer) ++ mine)
    else none

/-- The extents after the host's release of ranges. -/
def releaseExtents (xs : List Extent) (ranges : List (Nat × Nat)) : List Extent :=
  (ranges.map dcRange).foldl (fun xs r => cutExtents (·.accepted) r.1 r.2.1 r.2.2 xs) xs

/-- A response of the host takes effect: an acceptance or a release. -/
def Ld.respond (l : Ld) (gone : Nat → List Nat) (x : Bool × List (Nat × Nat)) : Ld :=
  { l with extents := if x.1 then (acceptExtents gone l.extents x.2).getD l.extents else releaseExtents l.extents x.2 }

/-- In the banked state responses are recorded and take effect at exit (R451). -/
def State.dcResponse (s : State) (ld : Nat) (x : Bool × List (Nat × Nat)) : State :=
  if s.isBanked then s.modLd ld fun l => { l with recorded := l.recorded ++ [x] } else s.modLd ld (·.respond (s.goneBlocks ld) x)

def execAddDynamicCapacityResponse (ld : Nat) (ranges : List (Nat × Nat)) (s : State) : Host.Outcome State Fault Refusal :=
  .next <| s.mailboxRow ld 0x4802 fun s =>
    if s.isBanked ∨ (acceptExtents (s.goneBlocks ld) (s.ld ld).extents ranges).isSome then (s.dcResponse ld (true, ranges)).mbox ld rcSuccess
    else s.mbox ld rcExtents

def execReleaseDynamicCapacity (ld : Nat) (ranges : List (Nat × Nat)) (s : State) : Host.Outcome State Fault Refusal :=
  .next <| s.mailboxRow ld 0x4803 fun s => (s.dcResponse ld (false, ranges)).mbox ld rcSuccess

/-! ### Vendor commands (R349) -/

/-- Reply of a vendor command: its status, then the rest of its output. -/
def State.vendorReply (s : State) (ld : Nat) (st : Status) (rest : List Byte) : State :=
  s.mbox ld rcSuccess (BitVec.ofNat 8 st.code :: rest)

/-- A background command is running. -/
def Ld.busy (l : Ld) : Bool := match l.background with | some b => !b.reported | none => false

/-- Length, permission and the banked state of a vendor command, in that order; `n` is its output length (DEDUCED, log 46). -/
def State.vendorRow (s : State) (ld op want n : Nat) (payload : List Byte) (permitted background : Bool) (go : State → State) : State :=
  s.mailboxRow ld op fun s =>
    if payload.length ≠ want then s.mbox ld rcLength
    else if !permitted then s.vendorReply ld .keyFault (List.replicate (n - 1) 0)
    else if s.isBanked then s.vendorReply ld .busyRetry (List.replicate (n - 1) 0)
    else if background ∧ (s.ld ld).busy then s.mbox ld rcBusy
    else go s

/-- Start a background command. -/
def State.startBackground (s : State) (ld op arg : Nat) (st : Option Status := none) (output : List Byte := []) : State :=
  (s.modLd ld fun l => { l with background := some { op := op, arg := arg, status := st, output := output } }).mbox ld rcBackground

/-- Little-endian field of a payload. -/
def pfield (bs : List Byte) (i n : Nat) : Nat := leVal ((bs.drop i).take n)

/-! ### QUEUE_CREATE (R351) -/

structure QueueSpec where
  kind : Nat
  log2 : Nat
  queue : Nat
  tenantWord : Nat
  comp : Nat
  base : Nat
  cq : Nat
  event : Nat
  rest : Nat
  deriving DecidableEq, Repr

def queueSpec (bs : List Byte) : QueueSpec :=
  { kind := pfield bs 0 1, log2 := pfield bs 1 1, queue := pfield bs 2 2, tenantWord := pfield bs 4 2, comp := pfield bs 6 2, base := pfield bs 8 8,
    cq := pfield bs 16 2, event := pfield bs 18 2, rest := pfield bs 20 12 }

def QueueSpec.tenant (q : QueueSpec) : Nat := q.tenantWord % 4096
def QueueSpec.ringBytes (q : QueueSpec) : Nat := (if q.kind = 0 then 64 else 32) * 2 ^ q.log2

/-- Queue numbers of each kind. -/
def queueNumbers : Nat := 16384

/-- Numbers in use. -/
def State.queuesUsed (s : State) (kind : Nat) : List Nat := if kind = 0 then s.wqs.map (·.num) else s.cqs.map (·.num)

def State.queueNumber (s : State) (q : QueueSpec) : Option Nat :=
  let used := s.queuesUsed q.kind
  if q.queue = 0xFFFF then lowestFree used queueNumbers else if used.contains q.queue then none else some q.queue

/-- DMA range of an LD. -/
def State.dmaRange (s : State) (ld : Nat) : Nat × Nat := (s.scalar (0x3230 + ld) 3, s.scalar (0x3230 + ld) 4)

def inRange (r : Nat × Nat) (base len : Nat) : Bool := decide (r.1 ≤ base) && decide (base + len ≤ r.1 + r.2)

/-- Queues created under a composition. -/
def State.queueCount (s : State) (slot : Nat) : Nat := (s.wqs.filter (·.comp == slot)).length + (s.cqs.filter (·.comp == slot)).length

/-- The event source of a completion queue: KIND 1, owned by the tenant (R363). -/
def State.eventOk (s : State) (t src : Nat) : Bool :=
  decide (0x100 ≤ src) && decide (src < 0x800) && rtKind (s.routeEntry src) == kindCompletion && rtOwner (s.routeEntry src) == t

/-- The ordered checks of R351. -/
def State.queueChecks (s : State) (ld : Nat) (q : QueueSpec) : List (Bool × Status) :=
  let c := s.compById q.comp
  [(s.tenantLd q.tenant != ld, .keyFault),
   (!c.any fun c => c.state == .active && c.tenant == q.tenant, .keyFault),
   (q.kind == 0 && !(s.cq q.cq).any (·.tenant == q.tenant), .keyFault),
   (decide (1 < q.kind) || decide (q.log2 < 6) || decide (16 < q.log2) || decide (4096 ≤ q.tenantWord) || q.rest != 0, .rangeFault),
   (q.queue != 0xFFFF && decide (queueNumbers ≤ q.queue), .rangeFault),
   (decide (q.base % 4096 ≠ 0) || !inRange (s.dmaRange ld) q.base q.ringBytes, .rangeFault),
   (q.kind == 1 && !s.eventOk q.tenant q.event, .rangeFault),
   ((s.queueNumber q).isNone, .capacity),
   (c.any fun c => decide (s.scalar (0x5000 + c.slot) 0x11 ≤ s.queueCount c.slot), .capacity)]

/-- Enter a queue. -/
def State.enterQueue (s : State) (ld n : Nat) (q : QueueSpec) : State :=
  let slot := ((s.compById q.comp).map (·.slot)).getD noComp
  if q.kind = 0 then { s with wqs := s.wqs ++ [{ num := n, tenant := q.tenant, comp := slot, ld := ld, base := q.base, log2 := q.log2, cq := q.cq }] }
  else { s with cqs := s.cqs ++ [{ num := n, tenant := q.tenant, comp := slot, ld := ld, base := q.base, log2 := q.log2, event := q.event }] }

/-- Page offset of a queue in BAR2 (R345). -/
def queuePage (kind n : Nat) : Nat := (if kind = 0 then 0 else 0x4000000) + 4096 * n

def execQueueCreate (ld : Nat) (payload : List Byte) (s : State) : Host.Outcome State Fault Refusal :=
  .next <| s.vendorRow ld 0xC100 32 8 payload true false fun s =>
    let q := queueSpec payload
    match firstFail (s.queueChecks ld q), s.queueNumber q with
    | none, some n => (s.enterQueue ld n q).vendorReply ld .ok ([0] ++ leBytes 2 n ++ leBytes 4 (queuePage q.kind n))
    | st, _ => s.vendorReply ld (st.getD .capacity) (List.replicate 7 0)

/-! ### QUEUE_DESTROY (R352) -/

/-- Kind and number that QUEUE_DESTROY names, as one number. -/
def queueArg (bs : List Byte) : Nat := pfield bs 0 1 * 65536 + pfield bs 2 2

/-- Tenant and LD of a queue. -/
def State.queueOwner (s : State) (arg : Nat) : Option Nat :=
  if arg / 65536 = 0 then (s.wq arg).map (·.ld) else if arg / 65536 = 1 then (s.cq (arg % 65536)).map (·.ld) else none

def State.destroyChecks (s : State) (ld arg : Nat) : List (Bool × Status) :=
  [((s.queueOwner arg).isNone, .rangeFault), (s.queueOwner arg != some ld, .keyFault),
   (arg / 65536 == 1 && s.wqs.any fun w => w.cq == arg % 65536 && !w.dead, .rangeFault)]

def execQueueDestroy (ld : Nat) (payload : List Byte) (s : State) : Host.Outcome State Fault Refusal :=
  .next <| s.vendorRow ld 0xC101 4 4 payload true true fun s =>
    let arg := queueArg payload
    match firstFail (s.destroyChecks ld arg) with
    | some st => s.vendorReply ld st [0, 0, 0]
    | none => ((if arg / 65536 = 0 then s.modWq arg fun w => { w with stopped := true } else s)).startBackground ld 0xC101 arg

/-- Requests of a work queue that have not been reported. -/
def State.queueHolds (s : State) (n : Nat) : Bool := s.reqs.any fun q => q.origin == .queue n

/-- Remove a queue; the count of its entries posted and never fetched. -/
def State.dropQueue (s : State) (arg : Nat) : Nat × State :=
  if arg / 65536 = 0 then
    (((s.wq arg).map fun w => min 65535 (ringDist w.ci w.pi)).getD 0, ({ s with wqs := dropWhere (·.num == arg) s.wqs }).wake .waitCount)
  else (0, { s with cqs := dropWhere (·.num == arg % 65536) s.cqs })

/-! ### AREA_GRANT and AREA_RECLAIM (R353) -/

/-- Bounds of an area's length by kind. -/
def areaLength (kind : Nat) : Nat × Nat :=
  if kind = 0 then (16777216, 4294967296) else if kind = 1 then (2097152, 2 ^ 44) else (2097152, 2 ^ 50)

/-- The area of a kind is granted. -/
def State.areaHeld (s : State) (ld kind : Nat) : Bool :=
  if kind = 0 then s.fab.ctxArea.isSome else if kind = 1 then s.mem.swapArea.isSome else s.scalar (0x3230 + ld) 4 != 0

def areaPermitted (s : State) (ld kind : Nat) : Bool := decide (1 < kind) || ld == s.mgmtLd

def State.grant (s : State) (ld kind base len : Nat) : State :=
  if kind = 0 then { s with fab := { s.fab with ctxArea := some (ld, base, len) } }
  else if kind = 1 then s.modMem fun m => { m with swapArea := some (ld, base, len) }
  else (s.setScalar (0x3230 + ld) 3 base).setScalar (0x3230 + ld) 4 len

def execAreaGrant (ld : Nat) (payload : List Byte) (s : State) : Host.Outcome State Fault Refusal :=
  .next <|
    let kind := pfield payload 0 1
    s.vendorRow ld 0xC200 24 4 payload (areaPermitted s ld kind) false fun s =>
    let base := pfield payload 8 8
    let len := pfield payload 16 8
    let bad := pfield payload 1 7 != 0 || decide (2 < kind) || decide (base % 2097152 ≠ 0) || decide (len % 2097152 ≠ 0) ||
      decide (len < (areaLength kind).1) || decide ((areaLength kind).2 < len) || s.areaHeld ld kind
    if bad then s.vendorReply ld .rangeFault [0, 0, 0] else (s.grant ld kind base len).vendorReply ld .ok [0, 0, 0]

/-- An area is still used: a connection, or a ring or HOST region in the range. -/
def State.areaUsed (s : State) (ld kind : Nat) : Bool :=
  if kind = 0 then !s.fab.conns.isEmpty
  else s.wqs.any (fun w => w.ld == ld && !w.dead) || s.cqs.any (·.ld == ld) ||
    s.fab.regions.any fun g => g.host && s.tenantLd g.tenant == ld && inRange (s.dmaRange ld) g.base g.length

/-- Restore every PREEMPTED sequence that has a run in the swap area (R353). -/
def State.restoreAll (s : State) : State :=
  (s.seqs.filter fun q => q.state == .preempted && !(s.swappedFrames q).isEmpty).foldl (fun s q => s.startRestore q none) s

def State.ungrant (s : State) (ld kind : Nat) : State :=
  if kind = 0 then { s with fab := { s.fab with ctxArea := none } }
  else if kind = 1 then s.modMem fun m => { m with swapArea := none, swapClosing := false }
  else (s.setScalar (0x3230 + ld) 3 0).setScalar (0x3230 + ld) 4 0

def execAreaReclaim (ld : Nat) (payload : List Byte) (s : State) : Host.Outcome State Fault Refusal :=
  .next <|
    let kind := pfield payload 0 1
    s.vendorRow ld 0xC201 4 4 payload (areaPermitted s ld kind) true fun s =>
    if 2 < kind ∨ !s.areaHeld ld kind then s.vendorReply ld .rangeFault [0, 0, 0]
    else if kind = 1 then ((s.modMem fun m => { m with swapClosing := true }).restoreAll).startBackground ld 0xC201 kind
    else if s.areaUsed ld kind then s.vendorReply ld .busyRetry [0, 0, 0]
    else (s.ungrant ld kind).startBackground ld 0xC201 kind (some .ok) [0, 0, 0]

/-! ### RECLAIM (R354) -/

/-- The work entry of a RECLAIM: bytes 16 to 63 of the payload under the opcode of byte 0. -/
def reclaimEntry (bs : List Byte) : BitVec 512 := BitVec.ofNat 512 (pfield bs 0 1 + leVal (bs.drop 16) * 2 ^ 128)

/-- It runs as a request of tenant 0, which its row starts. -/
def State.startReclaim (s : State) (ld : Nat) (e : BitVec 512) : State :=
  let q : Req := { id := s.nextReq, origin := .mailbox ld, tenant := 0, comp := noComp, loan := false, entry := e }
  ({ s with reqs := s.reqs ++ [q], nextReq := s.nextReq + 1 }).startBackground ld 0xC300 q.id

def execReclaim (ld : Nat) (payload : List Byte) (s : State) : Host.Outcome State Fault Refusal :=
  .next <| s.vendorRow ld 0xC300 64 16 payload (ld == s.mgmtLd) true fun s =>
    let e := reclaimEntry payload
    if (hdrOpcode e ≠ opQUENCH ∧ hdrOpcode e ≠ opANNEAL) ∨ pfield payload 1 15 ≠ 0 then s.vendorReply ld .rangeFault (List.replicate 15 0)
    else s.startReclaim ld e

/-! ### The end of a background command (R348) -/

/-- A background command ends: MAILBOX is raised (R362), and its result is recorded unless a reset has discarded it (R454). -/
def State.backgroundEnd (s : State) (ld : Nat) (st : Status) (output : List Byte) : State :=
  let dropped := (s.ld ld).discard
  let s := s.modLd ld fun l => { l with background := if dropped then none else l.background.map fun b => { b with status := some st, output := output, reported := true },
                                        discard := false }
  s.raise (srcLd ld ldMailbox)

/-- AREA_RECLAIM of the swap area: over when a restore has failed for want of room, or when no run is left. -/
def State.swapReclaim (s : State) (ld : Nat) (failed : Option Status) : State :=
  match failed with
  | some st => (s.modMem fun m => { m with swapClosing := false }).backgroundEnd ld st [0, 0, 0]
  | none => if s.swapRuns.isEmpty then (s.ungrant ld 1).backgroundEnd ld .ok [0, 0, 0] else s.restoreAll

def State.backgroundDone (s : State) (ld : Nat) (b : Background) : State :=
  if b.op = 0xC101 then
    if b.arg / 65536 = 0 ∧ s.queueHolds b.arg then s
    else let x := s.dropQueue b.arg; x.2.backgroundEnd ld .ok (0 :: leBytes 2 x.1)
  else if b.op = 0xC201 ∧ b.arg = 1 then s.swapReclaim ld b.status
  else match b.status with
    | some st => s.backgroundEnd ld st b.output
    | none => s

def execBackgroundCommandDone (ld : Nat) (s : State) : Host.Outcome State Fault Refusal :=
  .next <|
    match (s.ld ld).background with
    | some b => if s.node.powered ∧ !b.reported then s.backgroundDone ld b else s
    | none => s

/-! ### DOE (R355) -/

/-- The data object protocols: vendor and type. -/
def doeProtocols : List (Nat × Nat) := [(0x0001, 0), (0x1E98, 2), (0x1FC5, 1)]

/-- A data object that the link brings to an LD's DOE mailbox. -/
def State.doeRow (s : State) (ld : Nat) (go : State → State) : State := if s.linkCarries ld then go s else s

def execDoeDiscovery (ld index : Nat) (s : State) : Host.Outcome State Fault Refusal :=
  .next <| s.doeRow ld fun s =>
    match doeProtocols[index]? with
    | some p => s.emit (.doe ld (leBytes 2 p.1 ++ leBytes 1 p.2 ++ leBytes 1 (if index + 1 < doeProtocols.length then index + 1 else 0)))
    | none => s.emit (.doe ld [0xFF, 0xFF, 0xFF, 0])

/-- CDAT: an entry for each used aperture and each dynamic capacity region. -/
def State.cdatEntries (s : State) (ld : Nat) : List (Nat × Nat) :=
  (s.usedApertures ld).map (fun a => (a.base, a.length)) ++ (List.range 8).map fun r => (2 ^ 48 * (r + 1), 2 ^ 48)

/-- Latency in nanoseconds and bandwidth in GB/s that the CDAT gives for every entry, at nominal (R341, R355). -/
def cdatNs : Nat := 280
def cdatGBs : Nat := 128

def execCdatTableAccess (ld handle : Nat) (s : State) : Host.Outcome State Fault Refusal :=
  .next <| s.doeRow ld fun s =>
    s.emit (.doe ld (Config.cxlPayload 0xCDA7 (handle :: (s.cdatEntries ld).flatMap fun e => [e.1, e.2, cdatNs, cdatGBs])))

end Sys2Proof.Machine
end

