-- ==== Sys2Proof/Machine/Events.lean ====
section
/-! DEFINITION. Sys2Proof/Machine/Events.lean: the register banks of the event controller (R366-R368), ROUTES (R363-R365), the pins
EVIN0_N and EVIN1_N (R373), and writes to registers without a row of their own (R10). -/

namespace Sys2Proof.Machine

open Sys2Proof

/-- Sources that exist to be raised (R361-R363) (DEDUCED, log 47). -/
def State.raisable (s : State) (src : Nat) : Bool :=
  if src < 0x80 then decide (src ≤ srcPortStatus)
  else if src < 0x100 then decide (src % 8 < 6)
  else rtKind (s.routeEntry src) != 0

/-- The source that holds a fast slot. -/
def State.slotSource (s : State) (i : Nat) : Option Nat :=
  s.routedSources.find? fun src => rtFast (s.routeEntry src) && rtSlot (s.routeEntry src) == i

/-- Sources that the bits of a normal-bank word select on an LD: the normal ones that belong to it. -/
def State.wordSources (s : State) (ld word : Nat) (v : BitVec 64) : List Nat :=
  ((List.range 64).filter fun i => v.getLsbD i).map (64 * word + ·) |>.filter fun src =>
    decide (src < 2048) && s.sourceLd src == ld && !rtFast (s.routeEntry src)

/-- Sources that the bits of a fast-bank register select on an LD. -/
def State.slotSources (s : State) (ld : Nat) (v : BitVec 64) : List Nat :=
  (((List.range 64).filter fun i => v.getLsbD i).filterMap s.slotSource).filter fun src => s.sourceLd src == ld

/-- One source set: raised as if its cause had occurred. -/
def State.bankSet (s : State) (src : Nat) : State := if s.raisable src then s.raise src else s

/-- One source cleared. -/
def State.bankClr (s : State) (src : Nat) : State := if s.pendOf src then s.ackSource src else s

/-- One source masked: it waits no more. -/
def State.bankMask (s : State) (src : Nat) : State :=
  let s := s.setMask src true
  { s with ev := { s.ev with waiting := s.ev.waiting.erase src } }

/-- One source unmasked: a pending one is routed at once, and a stuck pin source is stuck no more (R456). -/
def State.bankUnmask (s : State) (src : Nat) : State :=
  if !s.maskOf src then s
  else
    let s := s.setMask src false
    let s := if src = srcEvin 0 then { s with node := { s.node with stuck := putBit s.node.stuck (stuckEvin 0) false } }
      else if src = srcEvin 1 then { s with node := { s.node with stuck := putBit s.node.stuck (stuckEvin 1) false } }
      else s
    if s.pendOf src then s.route src else s

/-- A write to a register of an LD's event pages: `f` on every source that it selects. -/
def State.bankWrite (s : State) (ld : Nat) (srcs : List Nat) (f : State → Nat → State) : State :=
  if s.linkCarries ld then srcs.foldl f s else s

def execPendSet (ld word : Nat) (v : BitVec 64) (s : State) : Host.Outcome State Fault Refusal :=
  .next (s.bankWrite ld (s.wordSources ld word v) State.bankSet)
def execPendClr (ld word : Nat) (v : BitVec 64) (s : State) : Host.Outcome State Fault Refusal :=
  .next (s.bankWrite ld (s.wordSources ld word v) State.bankClr)
def execMaskSet (ld word : Nat) (v : BitVec 64) (s : State) : Host.Outcome State Fault Refusal :=
  .next (s.bankWrite ld (s.wordSources ld word v) State.bankMask)
def execMaskClr (ld word : Nat) (v : BitVec 64) (s : State) : Host.Outcome State Fault Refusal :=
  .next (s.bankWrite ld (s.wordSources ld word v) State.bankUnmask)
def execFpendSet (ld : Nat) (v : BitVec 64) (s : State) : Host.Outcome State Fault Refusal :=
  .next (s.bankWrite ld (s.slotSources ld v) State.bankSet)
def execFpendClr (ld : Nat) (v : BitVec 64) (s : State) : Host.Outcome State Fault Refusal :=
  .next (s.bankWrite ld (s.slotSources ld v) State.bankClr)
def execFmaskSet (ld : Nat) (v : BitVec 64) (s : State) : Host.Outcome State Fault Refusal :=
  .next (s.bankWrite ld (s.slotSources ld v) State.bankMask)
def execFmaskClr (ld : Nat) (v : BitVec 64) (s : State) : Host.Outcome State Fault Refusal :=
  .next (s.bankWrite ld (s.slotSources ld v) State.bankUnmask)

/-- CURPRIO of a target of the LD; waiting sources are routed again when it falls (R371). -/
def execCurprioWrite (ld target : Nat) (v : BitVec 8) (s : State) : Host.Outcome State Fault Refusal :=
  .next <|
    if !s.linkCarries ld ∨ !bit (s.targets ld) target then s
    else
      let old := (s.target target).curprio
      let s := s.setTarget { s.target target with curprio := v }
      if v.toNat < old.toNat then s.rerouteWaiting fun _ => true else s

/-! ### Other registers (R367, R10) -/

/-- First byte of FPRIO in BAR2, and one past its last. -/
def fprioAt : Nat := 0xC001040
def fprioEnd : Nat := 0xC001080

/-- Byte `i` of a write, from FPRIO's slot `slot` on. -/
def State.putFprio (s : State) (ld slot : Nat) (b : Nat) : State :=
  match s.slotSource slot with
  | some src => if s.sourceLd src = ld then { s with ev := { s.ev with fprio := assocPut s.ev.fprio slot b 0 } } else s
  | none => s

/-- A number from its bits, lowest first. -/
def ofBits (bs : List Bool) : Nat := bs.foldr (fun b a => b2n b + 2 * a) 0

/-- What a host reads at an aligned 64-bit offset of an LD's event pages: PEND and MASK of the normal bank, the fast bank with FPRIO, and the
pages of its targets. What does not belong to the LD reads 0 (R366-R368). -/
def State.eventWord (s : State) (ld off : Nat) : Nat :=
  let own := fun src => s.sourceLd src == ld
  let normal := fun (f : State → Nat → Bool) w => ofBits <| (List.range 64).map fun i =>
    own (64 * w + i) && !rtFast (s.routeEntry (64 * w + i)) && f s (64 * w + i)
  let slot := fun i => (s.slotSource i).any own
  let r := off % 4096
  if off / 4096 = 0xC000 then
    if r < 0x100 then normal State.pendOf (r / 8) else if 0x300 ≤ r ∧ r < 0x400 then normal State.maskOf ((r - 0x300) / 8) else 0
  else if off / 4096 = 0xC001 then
    if r = 0 then ofBits ((List.range 64).map fun i => slot i && s.ev.fpend.getLsbD i)
    else if r = 0x18 then ofBits ((List.range 64).map fun i => slot i && s.ev.fmask.getLsbD i)
    else if 0x40 ≤ r ∧ r < 0x80 then
      leVal ((List.range 8).map fun i => let k := r - 0x40 + i; BitVec.ofNat 8 (if slot k then assocGet s.ev.fprio k 0 else 0))
    else 0
  else
    let t := off / 4096 - 0xC010
    if 0xC010 ≤ off / 4096 ∧ t < 64 ∧ bit (s.targets ld) t then
      let x := s.target t
      if r = 0 then x.curprio.toNat else if r = 8 then x.lastSrc.toNat else if r = 0x10 then x.lastTime.toNat else if r = 0x18 then x.delivered else 0
    else 0

/-- A write to BAR2 of an LD: FPRIO takes it. -/
def State.writeBar2 (s : State) (ld offset : Nat) (v : BitVec 64) : State :=
  if fprioAt ≤ offset ∧ offset + 8 ≤ fprioEnd then
    (List.range 8).foldl (fun s i => s.putFprio ld (offset - fprioAt + i) (bits v.toNat (8 * i + 7) (8 * i))) s
  else s

/-- Bit of Uncorrectable Internal Error in the AER registers; bits of Device Control that enable the reports of non-fatal and of fatal errors
(PRESUMED from PCIe, log 12). -/
def aerInternal : Nat := 22
def reportNonFatalBit : Nat := 1
def reportFatalBit : Nat := 2

/-- A write to the AER registers and Device Control; a status bit is cleared by writing 1. -/
def Aer.write (a : Aer) (r : HostReg) (v : BitVec 64) : Aer :=
  match r with
  | .aerStatus => { a with status := a.status && !v.getLsbD aerInternal }
  | .aerMask => { a with masked := v.getLsbD aerInternal }
  | .aerSeverity => { a with fatal := v.getLsbD aerInternal }
  | .deviceControl => { a with reportNonFatal := v.getLsbD reportNonFatalBit, reportFatal := v.getLsbD reportFatalBit }
  | .bar0 _ | .bar2 _ => a

/-- A register write of a host. Every register without a row of its own and not named here is read-only or absent: the write is ignored (R10,
R344). -/
def execRegisterWrite (ld : Nat) (reg : HostReg) (v : BitVec 64) (s : State) : Host.Outcome State Fault Refusal :=
  .next <|
    if !s.linkCarries ld then s
    else match reg with
      | .bar2 offset => s.writeBar2 ld offset v
      | r => s.modLd ld fun l => { l with aer := l.aer.write r v }

/-! ### ROUTES (R363-R365) -/

/-- The entry of a source as it would stand; CORES stay as firmware wrote them, and the reserved bits 18 to 0 read 0 (R9). -/
def State.wouldRoute (s : State) (c : Changes) (src : Nat) : Nat :=
  let bs := s.wouldBytes c 0x3300 1 (16 * src) 16
  leVal (bs.take 7 ++ [s.octByte 0x3300 1 (16 * src + 7)] ++ bs.drop 8) / 2 ^ 19 * 2 ^ 19

/-- Sources whose entries a COMMIT changes. -/
def State.changedRoutes (s : State) (c : Changes) : List Nat :=
  (((c.at 1).map fun x => x.1 / 16).dedup).filter fun src => s.wouldRoute c src != s.routeEntry src

/-- Every source with an entry after the COMMIT, and its entry. -/
def State.wouldRoutes (s : State) (c : Changes) : List (Nat × Nat) :=
  ((s.routedSources ++ (c.at 1).map (fun x : Nat × Byte => x.1 / 16)).dedup).map fun src => (src, s.wouldRoute c src)

/-- LD of a source under an entry. -/
def State.routeLd (s : State) (src e : Nat) : Nat :=
  if src < 0x80 then s.mgmtLd else if src < 0x100 then (src - 0x80) / 8 else s.tenantLd (rtOwner e)

/-- The rules of one entry (R364). -/
def State.routeOk (s : State) (src e : Nat) : Bool :=
  let ld := s.routeLd src e
  let tg := if ld < 16 then s.targets ld else 0
  (rtTgt e &&& tg) == rtTgt e &&
  (if 0x100 ≤ src then s.tenantActive (rtOwner e) && decide (rtKind e ≤ 5) else rtOwner e == 0 && rtKind e == 0) &&
  (decide (src < 0x80) || !rtAlert e)

/-- Two sources in one fast slot, or two of one tenant's of one of KIND 2 to 5. -/
def routesClash (a b : Nat × Nat) : Bool :=
  (rtFast a.2 && rtFast b.2 && rtSlot a.2 == rtSlot b.2) ||
  (decide (0x100 ≤ a.1) && decide (0x100 ≤ b.1) && rtKind a.2 == rtKind b.2 && decide (2 ≤ rtKind a.2) && decide (rtKind a.2 ≤ 5) &&
    rtOwner a.2 == rtOwner b.2)

/-- OWNER or KIND of an entry changes. -/
def rebinds (old new : Nat) : Bool := rtOwner old != rtOwner new || rtKind old != rtKind new

/-- One changed entry takes effect (DEDUCED, log 39). -/
def State.applyRoute (s : State) (src e : Nat) : State :=
  let old := s.routeEntry src
  let s := s.setRoute src e
  if rebinds old e then (s.clearPend src).setMask src true else s

/-- The changed entries of a COMMIT take effect; those of their sources that wait are then routed again, the fast ones first (R371, R372). -/
def State.applyRoutes (s : State) (es : List (Nat × Nat)) : State :=
  (es.foldl (fun s x => s.applyRoute x.1 x.2) s).rerouteWaiting fun src => es.any (·.1 == src)

/-- PIN_MODE takes effect: a level source is raised while its pin is active (R373). -/
def State.applyPinMode (s : State) (c : Changes) : State :=
  let old := s.scalar 0x3300 2
  let s := s.applyChanges 0x3300 (c.filter fun x => x.1 == 2)
  [0, 1].foldl (fun s i => if bit old i && s.levelActive (srcEvin i) && !s.pendOf (srcEvin i) then s.raise (srcEvin i) else s) s

/-- COMMIT of 0x3300. -/
def State.commitRoutes (s : State) (c : Changes) : Status × State :=
  let changed := s.changedRoutes c
  let checks := [(!changed.all fun src => s.routeOk src (s.wouldRoute c src), Status.rangeFault),
    (!changed.isEmpty && !noClash routesClash (s.wouldRoutes c), .rangeFault),
    (changed.any fun src => rebinds (s.routeEntry src) (s.wouldRoute c src) && s.cqs.any fun q => q.event == src, .busyRetry)]
  match firstFail checks with
  | some st => (st, s)
  | none =>
    let es := changed.map fun src => (src, s.wouldRoute c src)
    let s := s.applyRoutes es
    (.ok, if c.has 2 then s.applyPinMode c else s)

/-! ### Pins EVIN0_N and EVIN1_N (R373) -/

def State.setPin (s : State) (i : Nat) (b : Bool) : State := { s with node := { s.node with pins := putBit s.node.pins i b } }

/-- One more coalesced edge. -/
def State.countEdge (s : State) (i : Nat) : State :=
  { s with ev := { s.ev with edges := s.ev.edges.set (2 + i) (BitVec.ofNat 8 (min 255 ((s.ev.edges.getD (2 + i) 0).toNat + 1))) } }

/-- The pins whose level-mode sources are active raise them (R369, R373). -/
def State.raiseLevels (s : State) : State :=
  [srcThermTrip, srcForceHold, srcEvin 0, srcEvin 1].foldl (fun s src => if s.levelActive src then s.raise src else s) s

/-- Without power a pin changes, and nothing takes notice (R445). -/
def execEvinPinActive (i : Nat) (active : Bool) (s : State) : Host.Outcome State Fault Refusal :=
  .next <|
    if 2 ≤ i then s
    else if !s.node.powered then s.setPin (pinEvin i) active
    else
      let was := s.node.pins.getLsbD (pinEvin i)
      let s := s.setPin (pinEvin i) active
      if active ∧ !was then
        let s := if bit (s.scalar 0x3300 2) i && s.pendOf (srcEvin i) then s.countEdge i else s
        s.raise (srcEvin i)
      else s

end Sys2Proof.Machine
end

