-- ==== Sys2Proof/Machine/Units.lean ====
section
/-! DEFINITION. Sys2Proof/Machine/Units.lean: unit states (R396-R400), spares (R437, R438) and pace (R439). -/

namespace Sys2Proof

/-- Index of a class's object above 0x3000 (R396). -/
def UnitClass.index : UnitClass → Nat
  | .core => 0 | .crucible => 1 | .engine => 2 | .walker => 3 | .nearBank => 4 | .port => 5 | .remoteEngine => 6
  | .stack => 7 | .lowerCtl => 8 | .prefixUnit => 9 | .control => 10

end Sys2Proof

namespace Sys2Proof.Machine

open Sys2Proof

/-- OPER as R397 encodes it. -/
def Oper.code : Oper → Nat
  | .absent => 0 | .inService => 1 | .draining => 2 | .outOfService => 3 | .faulted => 4 | .testing => 5

/-- ADMIN of a unit is OUT_OF_SERVICE. -/
def State.adminOut (s : State) (c : UnitClass) (u : Nat) : Bool := s.octByte (0x3000 + c.index) 1 u == 1

def State.unitRec (s : State) (c : UnitClass) (u : Nat) : UnitRec :=
  (s.eng.oper.find? fun x => x.cls == c && x.unit == u).getD { cls := c, unit := u, oper := s.oper c u }

/-- Keep a unit's record unless it is at rest. -/
def State.setUnitRec (s : State) (x : UnitRec) : State :=
  let rest := dropWhere (fun y : UnitRec => y.cls == x.cls && y.unit == x.unit) s.eng.oper
  let keep := x.oper != .inService || x.late || x.mismatch
  { s with eng := { s.eng with oper := if keep then x :: rest else rest } }

/-- Do ADMIN and OPER agree (R398)? -/
def agrees (out : Bool) (o : Oper) (late : Bool) : Bool :=
  if out then (o == .draining && !late) || o == .outOfService || o == .faulted else o == .inService || o == .testing

/-- Judge a unit again: an event for each disagreement that begins. -/
def State.judgeUnit (s : State) (c : UnitClass) (u : Nat) : State :=
  let x := s.unitRec c u
  let bad := !agrees (s.adminOut c u) x.oper x.late
  if bad = x.mismatch then s
  else
    let s := s.setUnitRec { x with mismatch := bad }
    if bad then (s.setScalar 0x3010 2 (c.index * 2 ^ 24 + u)).raise srcMgmtMismatch else s

/-- OPER changes: UNIT_STATE is raised. -/
def State.setOper (s : State) (c : UnitClass) (u : Nat) (o : Oper) : State :=
  let x := s.unitRec c u
  if x.oper = o then s.judgeUnit c u
  else ((s.setUnitRec { x with oper := o, late := false }).raise srcUnitState).judgeUnit c u

/-- A unit that may run again begins what waits for it. -/
def State.kickClass (s : State) (c : UnitClass) (u : Nat) : State :=
  match c with
  | .nearBank => s.kickUnit u
  | .core => s.kickCore u
  | _ => s

/-! ### Spares (R437, R438) -/

/-- Physical units among which a logical one is served: first number and count, in a numbering of the class (near-bank: 136 a
stack). -/
def physRange : UnitClass → Nat → Nat × Nat
  | .core, _ => (0, 104)
  | .nearBank, u => (136 * (u / 128), 136)
  | _, u => (u, 1)

/-- The first choice. -/
def homePhys : UnitClass → Nat → Nat
  | .nearBank, u => 136 * (u / 128) + u % 128
  | _, u => u

/-- The physical unit that serves a logical one. -/
def State.physOf (s : State) (c : UnitClass) (u : Nat) : Option Nat :=
  match s.flt.spare.find? fun x => x.1 == c && x.2.1 == u with
  | some x => x.2.2
  | none => some (homePhys c u)

/-- Logical units that share their spares with `u`. -/
def spareGroup : UnitClass → Nat → List Nat
  | .core, _ => List.range 96
  | .nearBank, u => (List.range 128).map (128 * (u / 128) + ·)
  | _, u => [u]

/-- Spares left for a logical unit: physical units that have not failed and serve no logical unit. -/
def State.sparesFor (s : State) (c : UnitClass) (u : Nat) : List Nat :=
  let r := physRange c u
  let used := (spareGroup c u).filterMap (s.physOf c)
  ((List.range r.2).map (r.1 + ·)).filter fun p => !used.contains p && !s.flt.failed.contains (c, p)

def State.setSpare (s : State) (c : UnitClass) (u : Nat) (p : Option Nat) : State :=
  { s with flt := { s.flt with spare := (c, u, p) :: dropWhere (fun x => x.1 == c && x.2.1 == u) s.flt.spare } }

/-- Destination rows of a loan operation that a unit's failure forwards (R155, R179): the rows of the parts, or the output rows of a
GATHER_REDUCE that lie in its channel. -/
def State.forwardRows (s : State) (n : Nat) (r : Nat) (items : List Nat) : State :=
  s.modLoan r fun w =>
    let more := if w.op = nbGATHER then (w.outs.zipIdx.filter fun x => match s.placeOf x.1.frame with | .upper c _ => c == n | _ => false).map (·.2) else items
    { w with fwd := more.foldl (fun l i => insertNew i l) w.fwd }

/-- Planned time of the rest of a piece on the cores (R179). -/
def State.forwardedPs (s : State) (j : Job) (ps : List Part) : Nat :=
  match ps with
  | [] => j.planned
  | p :: _ =>
    let share := fun t : Nat => ceilDiv (t * sumOf (fun x : Part => x.hi - x.lo) ps) (max 1 p.n)
    if j.bare then forwardPs (64 * partLines ps) else
    match s.jobBlock j.req p.item, (s.req j.req).bind (·.loanWork) with
    | some (_, _, b), _ => share (max (forwardPs b.bytes) (b.arith / 16))
    | none, some w => match w.rows.lookup p.item with | some x => share (s.rowPs w.op w.desc none true x) | none => j.planned
    | none, none => j.planned

/-- Steps of one piece of work that a unit can no longer run go to the cores as one piece (R179). -/
def State.forwardPiece (s : State) (j : Job) (ps : List Part) : State := s.dispatchCore { j with parts := ps } (s.forwardedPs j ps)

/-- The items of some steps, in order, with their parts. -/
def pieceParts (js : List Job) (r : Nat) : List (List Part) :=
  let ps := (js.filter (·.req == r)).flatMap (·.parts)
  ((ps.map (·.item)).dedup).map fun i => ps.filter (·.item == i)

/-- A command without a unit that has left its group; none when no unit is left. -/
def NbCmd.without (c : NbCmd) (n : Nat) : Option NbCmd :=
  let c := { c with lists := c.lists.filter (·.1 != n), steps := c.steps.filter (·.1 != n) }
  if c.lists.isEmpty then none else some c

/-- The work of a unit that can no longer run, waiting in its queue or in commands not issued, is forwarded to the cores (R179). -/
def State.forwardAll (s : State) (n : Nat) : State :=
  let js : List Job := (s.nbUnit n).queue ++ s.eng.cmds.flatMap fun (c : NbCmd) => if c.issued then [] else (c.steps.filter (·.1 == n)).flatMap (·.2)
  let s := s.setNb { s.nbUnit n with queue := [] }
  let s := { s with eng := { s.eng with cmds := s.eng.cmds.filterMap fun (c : NbCmd) => if c.issued then some c else c.without n } }
  let s := (((js.filter (!·.bare)).map (·.req)).dedup).foldl (fun s r =>
    match js.find? fun j => j.req == r && !j.bare with
    | none => s
    | some j =>
      let pieces : List (List Part) := pieceParts (js.filter (!·.bare)) r
      let s := s.forwardRows n r (pieces.filterMap fun (p : List Part) => p.head?.map (·.item))
      pieces.foldl (fun s p => s.forwardPiece j p) s) s
  let s := (js.filter (·.bare)).foldl (fun s j => s.forwardPiece j j.parts) s
  s.pump

/-- A unit that goes out of service takes with it the output rows of its channel (R155, R179). -/
def State.forwardOuts (s : State) (n : Nat) : State :=
  (s.reqs.filter fun q => q.loanWork.any fun w => w.op == nbGATHER).foldl (fun s q => s.forwardRows n q.id []) s

/-- A unit with no spare is FAULTED, and its work moves (R179, R399). -/
def State.unitFaulted (s : State) (c : UnitClass) (u : Nat) : State :=
  let s := s.setOper c u .faulted
  match c with
  | .nearBank => (s.forwardOuts u).forwardAll u
  | .port => (s.reportPort u .down 0).reroute u
  | _ => s

/-- Switch a unit out (R438): its physical unit enters the flash fault list; a spare takes over at the next boundary, or the unit is
FAULTED. -/
def State.switchOut (s : State) (c : UnitClass) (u : Nat) : State :=
  if s.flt.switching.contains (c, u) then s
  else
    let spared := c == .core || c == .nearBank
    let s := match s.physOf c u with
      | some p => if spared then { s with flt := { s.flt with failed := insertNew (c, p) s.flt.failed } } else s
      | none => s
    if spared && !(s.sparesFor c u).isEmpty then { s with flt := { s.flt with switching := insertNew (c, u) s.flt.switching } }
    else (s.setSpare c u none).unitFaulted c u

/-- A spare may be switched in: the unit runs nothing, and is between commands (R178). -/
def State.atBoundary (s : State) (c : UnitClass) (u : Nat) : Bool :=
  match c with
  | .nearBank => (s.nbUnit u).step.isNone && (s.unitCmds u).all fun c => !(s.nbUnit u).begun.contains c.num
  | .core => (s.coreSt u).piece.isNone
  | _ => true

/-- A spare brings SRAM of its own: the rows and errors of the unit it replaces stay behind (R434). -/
def State.freshSram (s : State) (c : UnitClass) (u : Nat) : State :=
  { s with flt := { s.flt with
      rows := dropWhere (fun x => x.1 == c && x.2.1 == u) s.flt.rows
      sram := dropWhere (fun x => x.1 == c && x.2.1 == u) s.flt.sram } }

def execSpareSwitch (cls : UnitClass) (unit : Nat) (s : State) : Host.Outcome State Fault Refusal :=
  .next <|
    if !s.coreRuns ∨ !s.flt.switching.contains (cls, unit) ∨ !s.atBoundary cls unit then s
    else
      let s := { s with flt := { s.flt with switching := s.flt.switching.erase (cls, unit) } }
      match s.sparesFor cls unit with
      | [] => (s.setSpare cls unit none).unitFaulted cls unit
      | p :: _ => ((((s.setSpare cls unit (some p)).freshSram cls unit).count 0x6000 0x28).raise srcSpareSwitched).kickClass cls unit

/-- The piece that a unit runs. -/
def State.pieceOn (s : State) (c : UnitClass) (u : Nat) : Option Job :=
  match c with
  | .nearBank => (s.nbUnit u).step
  | .core => (s.coreSt u).piece
  | _ => none

/-- The unit runs nothing any more. -/
def State.clearPiece (s : State) (c : UnitClass) (u : Nat) : State :=
  match c with
  | .nearBank => s.setNb { s.nbUnit u with step := none }
  | .core => s.setCore { s.coreSt u with piece := none }
  | _ => s

def execPieceOverrun (cls : UnitClass) (unit : Nat) (s : State) : Host.Outcome State Fault Refusal :=
  .next <|
    match s.pieceOn cls unit with
    | none => s
    | some j =>
      if !s.coreRuns then s
      else (((s.clearPiece cls unit).abandon j.req .contextLost).count 0x6000 0x27).switchOut cls unit

/-! ### ADMIN (R397-R399) -/

/-- A unit's ADMIN as it would stand. -/
def State.wouldOut (s : State) (c : Changes) (k : UnitClass) (u : Nat) : Bool := s.wouldByte c (0x3000 + k.index) 1 u == 1

/-- What the first bad byte decides (R397). -/
def State.adminBytes (s : State) (c : Changes) (k : UnitClass) : Option Status :=
  let n := s.variant.count k
  ((List.range k.most).findSome? fun u =>
    let b := (s.wouldByte c (0x3000 + k.index) 1 u).toNat
    if 1 < b then some Status.rangeFault else if b ≠ 0 ∧ n ≤ u then some Status.unitAbsent else none)

/-- Units that would be left in service. -/
def State.leftIn (s : State) (c : Changes) (k : UnitClass) : List Nat :=
  (List.range (s.variant.count k)).filter fun u => !s.wouldOut c k u && (s.oper k u == .inService || s.oper k u == .draining)

/-- Units that a COMMIT takes out of service. -/
def State.takenOut (s : State) (c : Changes) (k : UnitClass) : List Nat :=
  (List.range (s.variant.count k)).filter fun u => s.wouldOut c k u && s.oper k u == .inService

/-- The class, or an I/O die's share of it, would be left with no unit in service. -/
def State.leavesNone (s : State) (c : Changes) (k : UnitClass) : Bool :=
  !(s.takenOut c k).isEmpty &&
  match k with
  | .core | .crucible | .walker => (s.leftIn c k).isEmpty
  | .engine => s.variant.hasLower && (s.leftIn c k).isEmpty
  | .remoteEngine => (List.range s.variant.ioDies).any fun d => !(s.leftIn c k).any fun u => u / 8 == d
  | _ => false

/-- One unit's ADMIN has changed (DEDUCED, log 48). -/
def State.adminChanged (s : State) (k : UnitClass) (u : Nat) : State :=
  let o := s.oper k u
  if s.adminOut k u then
    if o = .inService ∨ o = .testing then
      let s := s.setOper k u .draining
      if k = .port then (s.reportPort u .down 0).reroute u else s
    else s.judgeUnit k u
  else if o = .draining then
    let s := (s.setOper k u .inService).kickClass k u
    if k = .port then s.reportPort u .training 0 else s
  else if o = .outOfService ∨ o = .faulted then
    let s := s.setOper k u .testing
    if k = .port then s.reportPort u .training 0 else s
  else s.judgeUnit k u

/-- COMMIT of ADMIN of a class. -/
def State.commitAdmin (s : State) (k : UnitClass) (c : Changes) : Status × State :=
  if s.isBanked then (.busyRetry, s)
  else match s.adminBytes c k with
    | some st => (st, s)
    | none =>
      if s.leavesNone c k then (.capacity, s)
      else
        let changed := (List.range (s.variant.count k)).filter fun u => s.wouldOut c k u != s.adminOut k u
        (.ok, changed.foldl (fun s u => s.adminChanged k u) (s.applyChanges (0x3000 + k.index) c))

/-- A draining unit holds nothing. -/
def State.unitEmpty (s : State) (c : UnitClass) (u : Nat) : Bool :=
  !s.flt.switching.contains (c, u) &&
  match c with
  | .nearBank => (s.nbUnit u).step.isNone && (s.nbUnit u).queue.isEmpty && s.eng.cmds.all fun c => !c.left.contains u && (c.steps.all fun x => x.1 != u)
  | .core => (s.coreSt u).piece.isNone
  | _ => true

def execUnitDrainDone (cls : UnitClass) (unit : Nat) (s : State) : Host.Outcome State Fault Refusal :=
  .next <| if s.node.powered ∧ s.oper cls unit = .draining ∧ s.unitEmpty cls unit then s.setOper cls unit .outOfService else s

def execDrainLimitExpiry (cls : UnitClass) (unit : Nat) (s : State) : Host.Outcome State Fault Refusal :=
  .next <|
    if s.node.powered ∧ s.oper cls unit = .draining then (s.setUnitRec { s.unitRec cls unit with late := true }).judgeUnit cls unit else s

/-! ### Self-test (R400, R434) -/

/-- The test maps a spare row in place of each disabled one. -/
def State.mapRows (s : State) (c : UnitClass) (u : Nat) : State :=
  { s with flt := { s.flt with rows := dropWhere (fun x => x.1 == c && x.2.1 == u) s.flt.rows } }

def execSelfTestDone (cls : UnitClass) (unit : Nat) (pass : Bool) (s : State) : Host.Outcome State Fault Refusal :=
  .next <|
    if !s.node.powered ∨ s.oper cls unit ≠ .testing then s
    else if pass then
      let s := s.mapRows cls unit
      if s.adminOut cls unit then s.setOper cls unit .outOfService else (s.setOper cls unit .inService).kickClass cls unit
    else
      let s := s.switchOut cls unit
      if s.oper cls unit = .testing then s.setOper cls unit (if s.adminOut cls unit then .outOfService else .inService) else s

/-! ### Pace (R439, R442) -/

/-- Die `i` of PACE_DIES is fitted: compute die, I/O dies, stacks. -/
def State.dieFitted (s : State) (i : Nat) : Bool :=
  i == 0 || (decide (1 ≤ i) && decide (i ≤ s.variant.ioDies)) || (decide (3 ≤ i) && decide (i < 3 + s.variant.stackCount))

/-- 0.9, and 60 s. -/
def paceLow : F32 := 0x3F666666
def paceSpan : Nat := 60000000000

/-- Smallest of a list of F32. -/
def leastF32 : List F32 → F32
  | [] => F32.zero
  | x :: xs => xs.foldl (fun a b => if f32Lt b a then b else a) x

/-- Time with PACE below 0.9 up to now. -/
def State.lowTime (s : State) : Nat := if f32Lt s.flt.paceNode paceLow then s.now - s.flt.paceAt else 0

/-- Add a reading: older ones that are no smaller, or older than 60 s, are forgotten. -/
def paceInto (now : Nat) (x : F32) (h : List (Nat × F32)) : List (Nat × F32) :=
  (h.filter fun y => f32Lt y.2 x && decide (now ≤ y.1 + paceSpan)) ++ [(now, x)]

def execPaceUpdate (paces : List (BitVec 32)) (s : State) : Host.Outcome State Fault Refusal :=
  .next <|
    if !s.node.powered then s
    else
      let s := s.count 0x6000 5 s.lowTime
      let ps := (List.range 11).map fun i => if s.dieFitted i then paces.getD i 0 else 0
      let node := leastF32 (((List.range 11).filter s.dieFitted).map fun i => ps.getD i 0)
      { s with flt := { s.flt with pace := ps, paceNode := node, paceAt := s.now, paceHist := paceInto s.now node s.flt.paceHist } }

end Sys2Proof.Machine
end

