-- ==== Sys2Proof/Machine/Faults.lean ====
section
/-! DEFINITION. Sys2Proof/Machine/Faults.lean: memory errors by where they lie, burnish, retirement and relocation, channel loss, and
requests that lose their state (R427-R436, R443). -/

namespace Sys2Proof.Machine

open Sys2Proof

/-! ### Relocation (R431, R432) -/

/-- The lower tier may take the frame. -/
def State.lowerPlace (s : State) (f : Frame) : Option Place :=
  if s.variant.hasLower && f.kind != .accumulator then
    (s.findLower (f.home % max 1 s.variant.packages) (s.frameTotal f.num)).map Place.lower
  else none

/-- Where a frame is relocated to: its channel, the upper tier, the lower tier; an image within its package, unless that is lost. -/
def State.relocPlace (s : State) (f : Frame) : Option Place :=
  let upper := (s.findUpper f.home f.size).map fun x => Place.upper x.1 x.2
  match f.place with
  | .swap _ _ => none
  | .upper c _ =>
    match lowestGap (s.upperRuns c) (f.size / granule) (f.size / granule) chanGranules with
    | some g => some (.upper c g)
    | none => match upper with | some p => some p | none => s.lowerPlace f
  | .lower k =>
    if (false, k) ∈ s.flt.lost then (match s.lowerPlace f with | some p => some p | none => upper)
    else if ceilDiv (s.frameTotal f.num) 64 ≤ s.pkgFree k then some (.lower k)
    else none

/-- Begin to relocate a frame, once no walk predates the error and a place has room: within the upper tier with COPY (R431 step 3). -/
def State.startReloc (s : State) (n : Nat) : State :=
  match s.frame n with
  | none => s
  | some f =>
    if f.retire.isEmpty ∨ f.mig.isSome ∨ f.swapRun.isSome ∨ !s.walksPast f.retireTag then s
    else match s.relocPlace f with
      | none => s
      | some p =>
        let total := s.frameTotal n
        let (ser, s) := if p.isLower then s.newSerial else (0, s)
        let cs := match p with | .lower k => s.freeChunks k (ceilDiv total 64) | _ => []
        (s.modFrame n fun f => { f with mig := some { dest := p, reloc := true, total := if p.isLower then total else 0, chunks := cs, serial := ser } }).copyWork
          (nodeJob f.tenant) n n f.place p 0 f.size

/-- Storage of a frame is retired: it waits to be relocated, or is being freed (R443). A migration becomes a relocation. -/
def State.retireFrame (s : State) (n : Nat) (x : RetireRec) : State :=
  match s.frame n with
  | none => s
  | some f =>
    if !s.tenantActive f.tenant ∧ f.tenant ≠ noTenant then s.retireRecord { x with address := 0 }
    else
      let tag := s.mem.walkEpoch + 1
      let s := (s.modMem fun m => { m with walkEpoch := tag }).modFrame n fun f =>
        { f with retire := f.retire ++ [x], retireTag := if f.retire.isEmpty then tag else f.retireTag,
                 mig := f.mig.map fun m => { m with reloc := true } }
      s.startReloc n

/-! ### Loss of a channel or package (R428) -/

/-- Errors within this time, more than so many: the storage is lost. -/
def lossSpan : Nat := 1000000000
def lossErrors : Nat := 64

/-- The place lies in a channel or package. -/
def Place.within (p : Place) (upper : Bool) (unit : Nat) : Bool :=
  match p with
  | .upper c _ => upper && c == unit
  | .lower k => !upper && k == unit
  | .swap _ _ => false

/-- Migrations into lost storage are abandoned. -/
def Frame.dropDest (f : Frame) (upper : Bool) (unit : Nat) : Frame :=
  { f with mig := f.mig.bind fun m => if m.dest.within upper unit then none else some m }

/-- First granule of a place, 0 in the lower tier. -/
def Place.first : Place → Nat
  | .upper _ g => g
  | _ => 0

/-- A frame of lost storage is relocated. -/
def State.loseFrame (s : State) (f : Frame) (upper : Bool) (unit : Nat) : State :=
  if !f.retire.isEmpty then s.startReloc f.num
  else s.retireFrame f.num { time := s.clk.ltime, cause := 2, tier := b2n (!upper), tenant := f.tenant, unit := unit, lines := 0,
                             location := f.place.first, frame := f.num, address := 0 }

/-- Declare a channel or package lost: its frames are relocated, its touchstone blocks move, and the table pages that it held are rebuilt from
their mirrors. -/
def State.declareLost (s : State) (upper : Bool) (unit : Nat) : State :=
  if (upper, unit) ∈ s.flt.lost then s
  else
    let s := { s with flt := { s.flt with lost := (upper, unit) :: s.flt.lost } }
    let s := (s.modMem fun m => { m with frames := m.frames.map fun f => f.dropDest upper unit }).tierEnd
    let s := (s.mem.frames.filter fun f => f.place.within upper unit).foldl (fun s f => s.loseFrame f upper unit) s
    let moved := s.mem.frames.filter fun f => match f.touch with | some t => upper && t.block.channel == unit | none => false
    (moved.foldl (fun s f => s.moveBlock f.num) s).moveTables fun up u _ => up == upper && u == unit

/-- The times of one channel or package with the present one, none older than `span`. -/
def noteTime (now span : Nat) (k : Bool × Nat) (l : List (Bool × Nat × List Nat)) : List Nat :=
  now :: ((l.filter fun x => x.1 == k.1 && x.2.1 == k.2).flatMap (·.2.2)).filter fun t => decide (now ≤ t + span)

def putTimes (k : Bool × Nat) (ts : List Nat) (l : List (Bool × Nat × List Nat)) : List (Bool × Nat × List Nat) :=
  (k.1, k.2, ts) :: dropWhere (fun x => x.1 == k.1 && x.2.1 == k.2) l

/-- One more uncorrectable error of a channel or package. -/
def State.noteUe (s : State) (upper : Bool) (unit : Nat) : State :=
  let ts := noteTime s.now lossSpan (upper, unit) s.flt.ue
  let s := ({ s with flt := { s.flt with ue := putTimes (upper, unit) ts s.flt.ue } }).count 0x6000 (if upper then 0x21 else 0x23)
  if lossErrors < ts.length then s.declareLost upper unit else s

def execChannelLost (upper : Bool) (unit : Nat) (s : State) : Host.Outcome State Fault Refusal :=
  .next <| if s.node.powered ∧ unit < (if upper then s.variant.channels else s.variant.packages) then s.declareLost upper unit else s

/-! ### Failed lines (R428) -/

/-- The 2 MiB blocks of loans that hold a line of a frame are withdrawn (R343). -/
def State.withdrawLine (s : State) (n line : Nat) : State :=
  (s.mem.maps.filter (·.frame == n)).foldl (fun s m => s.withdraw m.tenant (m.addr + 64 * line)) s

/-- A line that a read does not fetch: its unit, all zero, has no container. -/
def Frame.noLine (f : Frame) (line : Nat) : Bool := f.place.isLower && dirLen (f.dir.getD (64 * line / 4096) 0) == 0

/-- The chunk of a failed line: which sector of a coded container failed is a free value. -/
def State.failedChunk (s : State) (f : Frame) (line : Nat) : Nat × State :=
  let e := f.dir.getD (64 * line / 4096) 0
  let (i, s) := if dirEnc e = 2 then (line % 64, s) else s.draw (max 1 (dirLen e))
  (f.chunks.getD ((dirOffset e + i) / 64) 0, s)

/-- A line of a frame is found to have failed, once; in the lower tier with the whole unit that its container codes (R186, R194). -/
def State.failLine (s : State) (n line : Nat) : State :=
  match s.frame n with
  | none => s
  | some f =>
    if f.badLines.contains line ∨ f.size ≤ 64 * line ∨ f.noLine line then s
    else
      let mark := fun (ls : List Nat) (s : State) => (s.modFrame n fun f => { f with badLines := f.badLines ++ ls }).withdrawLine n line
      match f.place with
      | .swap _ _ => s
      | .upper c g =>
        let gr := g + 64 * line / granule
        let s := (mark [line] s).retireGranule c gr
        let s := if f.retire.any fun x => x.tier == 0 && x.location == gr then s
          else s.retireFrame n { time := s.clk.ltime, cause := 0, tier := 0, tenant := f.tenant, unit := c, lines := 1, location := gr,
                                 frame := n, address := 64 * line }
        s.noteUe true c
      | .lower k =>
        let off := 4096 * (64 * line / 4096)
        let s := mark ((List.range 64).map (off / 64 + ·)) s
        let s := if f.retire.any fun x => x.tier == 1 && x.cause == 0 && x.address == off then s
          else
            let (ch, s) := s.failedChunk f line
            (s.retireChunk k ch).retireFrame n { time := s.clk.ltime, cause := 0, tier := 1, tenant := f.tenant, unit := k, lines := 1,
                                                 location := ch, frame := n, address := off }
        s.noteUe false k

/-- The request that met an error in a tenant frame ends with MEDIA_ERROR; in the lower tier its read is counted (R201). A
SEQ_PREEMPT that met it while a frame was being read for its swap image fails its swap-out (R208). -/
def State.mediaEnd (s : State) (n : Nat) (req : Option Nat) : State :=
  match req.bind s.req with
  | some q =>
    if !q.live then s
    else
      let lower := match s.frame n with | some f => f.place.isLower | none => false
      let s := if lower then s.count 0x6100 10 else s
      match q.phase with
      | .waiting (.swapOut idx) =>
        match s.seqAt idx with
        | some v => if q.op = opSEQ_PREEMPT ∧ v.state = .preempting then s.swapOutFailed v else s.abandon q.id .mediaError
        | none => s.abandon q.id .mediaError
      | _ => s.abandon q.id (if opPS_INSERT ≤ q.op ∧ q.op ≤ opPS_PURGE then .internal else .mediaError)
  | none => s

/-- The PS_SEARCH requests of a tenant that are under way. -/
def State.searching (s : State) (t : Nat) : List Nat :=
  (s.reqs.filter fun q => q.live && q.op == opPS_SEARCH && q.tenant == t).map (·.id)

/-- A prefix entry is lost (R224) (DEDUCED, log 50). A lookup under way treats it as a false hit. -/
def State.psLost (s : State) (bank slot : Nat) : State :=
  let mine := fun e : PsSlot => e.bank == bank && e.slot == slot
  let met := (s.ps.filter mine).flatMap fun e => (s.searching e.tenant).map (·, e)
  let s := { s with flt := { s.flt with prefixes := met ++ s.flt.prefixes.filter fun (x : Nat × PsSlot) => s.reqs.any fun q => q.id == x.1 && q.live } }
  if s.ps.any mine then ({ s with ps := dropWhere mine s.ps }).count 0x6200 10 else s

/-- A failed granule of the key store loses the entry whose record lay on the failed line, if one did: which is a free value (R224). -/
def State.keyGranuleLost (s : State) (g : Nat) : State :=
  if !s.variant.prefixUnit ∨ g < chanGranules - keyGranules then s
  else
    let (i, s) := s.draw (s.ps.length + 1)
    match s.ps[i]? with
    | some e => s.psLost e.bank e.slot
    | none => s

/-- The line of the key store that held a slot's record is retired; where it lies is a free value. -/
def State.retireKeyLine (s : State) : State :=
  let (c, s) := s.draw s.variant.channels
  let (g, s) := s.draw keyGranules
  (s.retireFree true c (chanGranules - keyGranules + g) 0).noteUe true c

/-- A line of node storage in a frame fails: its place in the frame is a free value. -/
def State.failSomeLine (s : State) (n : Nat) : State :=
  let (l, s) := s.draw (s.frameSize n / 64)
  s.failLine n l

/-- A ledger entry is unreadable from now on (R436). -/
def State.ledgerBad (s : State) (conn reqId : Nat) : State :=
  match s.conn conn with
  | some c =>
    match c.ledger with
    | some l =>
      if l.entries.any (·.reqId == reqId) then
        let s := s.modConn conn fun c => { c with ledger := some { l with
          entries := modWhere (·.reqId == reqId) (fun e => { e with bad := true }) l.entries } }
        s.failSomeLine l.frame
      else s
    | none => s
  | none => s

/-- A contribution meets a failed accumulator line (R428) (DEDUCED, log 73). -/
def State.accumulatorBad (s : State) (slot contrib : Nat) : State :=
  match s.merges.find? (·.slot == slot) with
  | none => s
  | some x =>
    let hit := fun b : Contrib => b.idx == contrib && b.failed.isNone
    let s := s.modMerge slot fun x => { x with begun := modWhere hit (fun b => { b with failed := some .mediaError }) x.begun }
    let (i, s) := s.draw (max 1 x.frames.length)
    match x.frames[i]? with
    | some n => s.failSomeLine n
    | none => s

/-- A request loses its state (R435). -/
def State.loseRequest (s : State) (r : Nat) : State :=
  match s.req r with
  | some q => if q.live then (s.count 0x6000 0x27).abandon r .contextLost else s
  | none => s

/-- Two uncorrectable SRAM errors within this time switch a unit out (R434). -/
def sramSpan : Nat := 3600000000000

/-- An uncorrectable word in a unit's SRAM: its row is disabled. -/
def State.unitSram (s : State) (c : UnitClass) (u row : Nat) : State :=
  if s.variant.count c ≤ u then s
  else
    let recent := s.flt.sram.any fun x => x.1 == c && x.2.1 == u && decide (s.now ≤ x.2.2 + sramSpan)
    let s : State := { s with flt := { s.flt with rows := insertNew (c, u, row) s.flt.rows, sram := (c, u, s.now) :: s.flt.sram } }
    let s := s.count 0x6000 0x25
    if recent then s.switchOut c u else s

/-- An entry of the translation cache is discarded, to be walked again; which one failed is a free value (R428). -/
def State.xlateBad (s : State) : State :=
  let s := s.count 0x6000 0x25
  let (i, s) := s.draw (max 1 s.mem.tlb.length)
  s.modMem fun m => { m with tlb := m.tlb.eraseIdx i }

def execUncorrectableError (w : ErrWhere) (s : State) : Host.Outcome State Fault Refusal :=
  .next <|
    if !s.coreRuns then s
    else match w with
      | .frameLine n l req => if (match s.frame n with | some f => f.noLine l | none => false) then s else (s.mediaEnd n req).failLine n l
      | .freeUpper c g => if c < s.variant.channels ∧ (true, c, g) ∉ s.flt.retired then ((s.keyGranuleLost g).retireFree true c g 0).noteUe true c else s
      | .freeLower k ch => if k < s.variant.packages ∧ (false, k, ch) ∉ s.flt.retired then (s.retireFree false k ch 0).noteUe false k else s
      | .metadata k t key req => s.stallMeta k t key req true
      | .keyStore b i => (s.psLost b i).retireKeyLine
      | .tagSlot b i => s.psLost b i
      | .ledger c i => s.ledgerBad c i
      | .accumulator m i => s.accumulatorBad m i
      | .requestState r => (s.count 0x6000 0x25).loseRequest r
      | .xlateCache => s.xlateBad
      | .contextCache c => (s.count 0x6000 0x25).resetConn c .timeout
      | .missBuffer p =>
        let s := s.count 0x6000 0x25
        match s.fab.missBuf.find? (·.port == p) with
        | some x => { s with fab := { s.fab with missBuf := s.fab.missBuf.erase x } }
        | none => s
      | .unitSram c u row => s.unitSram c u row

def execContextLostSram (r : Nat) (s : State) : Host.Outcome State Fault Refusal :=
  .next <| if s.coreRuns then s.loseRequest r else s

/-! ### Correctable errors (R430) -/

/-- Lines or sectors with a correctable error at which a granule or chunk is retired. -/
def ceLimit : Nat := 16

def ceKey (upper : Bool) (unit loc : Nat) (x : Bool × Nat × Nat × List Nat) : Bool := x.1 == upper && x.2.1 == unit && x.2.2.1 == loc

/-- The frame that covers a granule. -/
def State.frameAt (s : State) (c g : Nat) : Option Frame := s.mem.frames.find? fun f => f.place.covers f.size c g

/-- The frame whose image holds a chunk of a package. -/
def State.imageAt (s : State) (k ch : Nat) : Option Frame := s.mem.frames.find? fun f => (f.place.chunksIn f.chunks k).contains ch

/-- The unit of an image whose container holds one of its sectors; none: the header, the directory or a dead sector. -/
def Frame.unitAtSector (f : Frame) (x : Nat) : Option Nat := f.dir.findIdx? fun e => decide (dirOffset e ≤ x) && decide (x < dirOffset e + dirLen e)

/-- The touchstone blocks of a granule move elsewhere. -/
def State.moveBlocks (s : State) (c g : Nat) : State :=
  (s.mem.frames.filter fun f => f.blockAt c g).foldl (fun s f => s.moveBlock f.num) s

/-- Retire a granule or chunk whose count has reached the limit, with no loss of data. -/
def State.ceRetire (s : State) (upper : Bool) (unit loc : Nat) : State :=
  if (upper, unit, loc) ∈ s.flt.retired then s
  else
    let f := if upper then s.frameAt unit loc else s.imageAt unit loc
    let s := s.retireAt upper unit loc
    match f with
    | some f => s.retireFrame f.num { time := s.clk.ltime, cause := 1, tier := b2n (!upper), tenant := f.tenant, unit := unit, lines := 0,
                                      location := loc, frame := f.num, address := 0 }
    | none => ((if upper then s.moveBlocks unit loc else s).moveTables fun up u l => (up, u, l) == (upper, unit, loc)).retireRecord (s.freeRecord upper unit loc 1)

/-- A correctable error of a line or sector, corrected and counted. -/
def State.noteCe (s : State) (upper : Bool) (unit loc line : Nat) : State :=
  let s := s.count 0x6000 (if upper then 0x20 else 0x22)
  let ts := noteTime s.now lossSpan (upper, unit) s.flt.ceTimes
  let old := ((s.flt.ce.find? (ceKey upper unit loc)).map (·.2.2.2)).getD []
  let lines := insertNew line old
  let rest := dropWhere (ceKey upper unit loc) s.flt.ce
  let full := decide (ceLimit ≤ lines.length)
  let s := { s with flt := { s.flt with
    ceTimes := putTimes (upper, unit) ts s.flt.ceTimes
    ce := if full then rest else (upper, unit, loc, lines) :: rest } }
  if full then s.ceRetire upper unit loc else s

def execCorrectableError (w : CeWhere) (s : State) : Host.Outcome State Fault Refusal :=
  .next <|
    if !s.coreRuns then s
    else match w with
      | .upper c g l => if c < s.variant.channels then s.noteCe true c g l else s
      | .lower k ch l => if k < s.variant.packages then s.noteCe false k ch l else s
      | .sram _ _ => s.count 0x6000 0x24
      | .prefixTag _ _ => s.count 0x6000 0x24

/-! ### Burnish (R429, R430) -/

/-- Lines of a channel, and sectors of a package. -/
def burnLength (upper : Bool) : Nat := if upper then chanGranules * granule / 64 else pkgChunks * 64

/-- Lines or sectors of a granule or chunk. -/
def burnSpan (upper : Bool) : Nat := if upper then granule / 64 else 64

/-- Pass period with its margin of 10 percent. -/
def burnLimit (upper : Bool) : Nat := (if upper then 14400 else 86400) * 1100000000

def State.burn (s : State) (upper : Bool) (unit : Nat) : Burn :=
  (s.flt.burns.find? fun b => b.upper == upper && b.unit == unit).getD { upper := upper, unit := unit }

/-- BANKED_TOTAL (R446). -/
def State.bankedTotal (s : State) : Nat := s.scalar 0x3010 0x17

/-- Time of the present pass without banked time. -/
def State.burnTime (s : State) (b : Burn) : Nat := (s.now - b.start) - (s.bankedTotal - b.banked)

/-- Move burnish to the next line or sector; a pass that ends late sets BURNISH_LATE, one in time clears it. -/
def State.burnNext (s : State) (b : Burn) : State :=
  let wraps := decide (burnLength b.upper ≤ b.pos + 1)
  let late := decide (burnLimit b.upper < s.burnTime b)
  let b' := if wraps then { b with pos := 0, passes := b.passes + 1, start := s.now, banked := s.bankedTotal } else { b with pos := b.pos + 1 }
  { s with flt := { s.flt with
      burns := b' :: dropWhere (fun x => x.upper == b.upper && x.unit == b.unit) s.flt.burns
      health := if wraps then putBit s.flt.health healthBurnishLate late else s.flt.health } }

/-- What burnish finds uncorrectable in the upper tier ends no request. -/
def State.burnUpper (s : State) (c line : Nat) : State :=
  let g := 64 * line / granule
  if (true, c, g) ∈ s.flt.retired then s
  else match s.frameAt c g with
    | some f => s.failLine f.num (line - f.place.first * (granule / 64))
    | none =>
      let hit := s.mem.frames.filter fun f => f.blockAt c g
      let s := (s.keyGranuleLost g).retireGranule c g
      let s := hit.foldl (fun s f => s.moveBlock f.num) s
      let s := s.moveTables fun up u l => (up, u, l) == (true, c, g)
      (s.retireRecord (s.freeRecord true c g 0)).noteUe true c

/-- A sector of the lower tier: a unit's container, an image's other sectors, or storage of no frame. -/
def State.burnLower (s : State) (k sector : Nat) : State :=
  let ch := sector / 64
  if (false, k, ch) ∈ s.flt.retired then s else
  match s.imageAt k ch with
  | some f =>
    match f.unitAtSector (64 * f.chunks.idxOf ch + sector % 64) with
    | some u => s.failLine f.num (64 * u)
    | none =>
      ((s.retireChunk k ch).retireFrame f.num { time := s.clk.ltime, cause := 0, tier := 1, tenant := f.tenant, unit := k, lines := 0, location := ch,
                                                frame := f.num, address := 0 }).noteUe false k
  | none => ((s.retireFree false k ch 0).moveTables fun up u l => (up, u, l) == (false, k, ch)).noteUe false k

/-- Burnish waits for the boundary of a step on its channel (R429, R443): until then its read is not made. -/
def State.burnWaits (s : State) (upper : Bool) (unit : Nat) : Bool := upper && (s.nbUnit unit).step.isSome

def execBurnishRead (upper : Bool) (unit : Nat) (found : BurnFound) (s : State) : Host.Outcome State Fault Refusal :=
  .next <|
    if !s.coreRuns ∨ (if upper then s.variant.channels else s.variant.packages) ≤ unit ∨ s.burnWaits upper unit then s
    else
      let b := s.burn upper unit
      let loc := b.pos / burnSpan upper
      let s := if b.pos % burnSpan upper = 0 then { s with flt := { s.flt with ce := dropWhere (ceKey upper unit loc) s.flt.ce } } else s
      let s := s.burnNext b
      match found with
      | .clean => s
      | .correctable => s.noteCe upper unit loc (b.pos % burnSpan upper)
      | .uncorrectable => if upper then s.burnUpper unit b.pos else s.burnLower unit b.pos

/-! ### The end of a relocation -/

/-- 64-byte lines that a record's storage lost. -/
def RetireRec.zeroed (x : RetireRec) (f : Frame) : List Nat :=
  match f.place with
  | .upper _ g => if x.cause = 0 then f.badLines.filter fun l => g + 64 * l / granule == x.location else if x.cause = 2 then f.badLines else []
  | _ => []

/-- The record as it is written: LINES and the tenant address of the first zeroed line. -/
def State.finalRecord (s : State) (f : Frame) (x : RetireRec) : RetireRec :=
  let base := ((s.mem.maps.find? (·.frame == f.num)).map (·.addr)).getD 0
  match f.place with
  | .upper _ _ =>
    match x.zeroed f with
    | [] => { x with lines := 0, address := 0 }
    | l :: ls => { x with lines := ls.length + 1, address := base + 64 * ls.foldl min l }
  | _ => if x.cause = 0 ∧ x.lines ≠ 0 then { x with lines := 1, address := base + x.address } else { x with lines := 0, address := 0 }

/-- Steps 3 to 6 of R431. -/
def State.finishReloc (s : State) (f : Frame) (m : Migration) : State :=
  let recs := f.retire.map (s.finalRecord f)
  let z := s.zeroBad f
  if !z.switchFits f m then (s.modFrame f.num fun f => { f with mig := none }).startReloc f.num
  else
    let s := z.switchFrame f m
    let s := s.modFrame f.num fun f => { f with badLines := [], retire := [] }
    let s := if f.kind == .page then s.errorRebuild f.num else s
    (recs.foldl (fun s x => s.retireRecord x) s).tierEnd

/-- The frame has moved to swap meanwhile, its unreadable lines zeros in the image. -/
def State.retireSwapped (s : State) (f : Frame) : State := (s.modFrame f.num fun f => { f with retire := [] }).retireFreed f

def execRelocationDone (frame : Nat) (s : State) : Host.Outcome State Fault Refusal :=
  .next <|
    match s.frame frame with
    | none => s
    | some f =>
      if !s.coreRuns ∨ f.retire.isEmpty ∨ s.allocStalled frame then s
      else if f.place.isSwap then s.retireSwapped f
      else match f.mig with
        | none => s.startReloc frame
        | some m => if m.reloc ∧ s.walksPast f.retireTag then s.finishReloc f m else s

end Sys2Proof.Machine
end

