-- ==== Sys2Proof/Machine/Calibration.lean ====
section
/-! DEFINITION. Sys2Proof/Machine/Calibration.lean: the calibration set, RECALIBRATE and fault rehearsal (R401-R406, R440, R441). -/

namespace Sys2Proof.Machine

open Sys2Proof

/-! ### Layouts (R402, R465) -/

/-- A signed value of 32 bits. -/
def int32 (x : Nat) : Int := (BitVec.ofNat 32 x).toInt

/-- SERDES_EQ: at most nine DFE taps, those beyond the count 0 (DEDUCED, log 52). -/
def serdesOk (bs : List Byte) : Bool :=
  let n := (bs.getD 6 0).toNat
  decide (n ≤ 9) && (List.range 9).all fun i => decide (i < n) || bs.getD (7 + i) 0 == 0

def thermOk (x : Nat) : Bool := decide (-10000 ≤ int32 x) && decide (int32 x ≤ 10000)

/-- LPDDR_TRIM: the last three bytes of each byte lane are 0. -/
def lpddrOk (bs : List Byte) : Bool := (List.range 64).all fun i => decide (i % 8 < 5) || bs.getD i 0 == 0

/-- An entry of the governor table: TMARGIN in 0.1 °C, VCORE_MV, and its last four bytes. -/
def govEntry (bs : List Byte) (i : Nat) : Int × Nat × Nat :=
  let e := (bs.drop (8 * i)).take 8
  ((BitVec.ofNat 16 (leVal (e.take 2))).toInt, leVal ((e.drop 2).take 2), leVal (e.drop 4))

def govEntries (bs : List Byte) : List (Int × Nat × Nat) := (List.range 32).map (govEntry bs)

/-- Used entries rise strictly in TMARGIN and do not fall in VCORE. -/
def govRising : List (Int × Nat × Nat) → Bool
  | a :: b :: l => decide (a.1 < b.1) && decide (a.2.1 ≤ b.2.1) && govRising (b :: l)
  | _ => true

/-- The rules of GOVERNOR_TABLE (R465). An entry is used when its VCORE is not 0. -/
def govOk (bs : List Byte) : Bool :=
  let es := govEntries bs
  let used := es.takeWhile fun e => e.2.1 != 0
  decide (2 ≤ used.length) && govRising used &&
  used.all (fun e => decide (600 ≤ e.2.1) && decide (e.2.1 ≤ 850) && e.2.1 % 5 == 0 && e.2.2 == 0) &&
  (es.drop used.length).all fun e => e == (0, 0, 0)

/-- A calibration object would hold a permitted value. -/
def State.calOk (s : State) (c : Changes) (idx k : Nat) : Bool :=
  match idx with
  | 0x2000 => serdesOk (s.wouldBytes c idx k 0 16)
  | 0x2001 => thermOk (s.would c idx k)
  | 0x2002 => govOk (s.wouldBytes c idx k 0 256)
  | 0x2004 => lpddrOk (s.wouldBytes c idx k 0 64)
  | _ => true

/-- Bytes of an object whose values take effect at the next training. -/
def calBytes : Nat → Nat
  | 0x2000 => 16
  | 0x2003 => 512
  | 0x2004 => 64
  | _ => 0

/-- The value in use of such an object. -/
def State.calInUse (s : State) (idx k : Nat) : List Byte :=
  match s.node.calUse.lookup (256 * idx + k) with
  | some bs => bs
  | none => s.octets idx k 0 (calBytes idx)

/-- Note whether the flash's value of an object differs from the one in use. -/
def State.noteUse (s : State) (idx k : Nat) (inUse : List Byte) : State :=
  let rest := dropWhere (fun x : Nat × List Byte => x.1 == 256 * idx + k) s.node.calUse
  let differs := decide (0 < calBytes idx) && s.octets idx k 0 (calBytes idx) != inUse
  { s with node := { s.node with calUse := if differs then (256 * idx + k, inUse) :: rest else rest } }

/-- Group of an index (R401). -/
def calGroup (idx : Nat) : Nat := idx - 0x2000

/-- CAL_PENDING. -/
def State.calPending (s : State) : Nat :=
  (List.range 5).foldl (fun a g => if s.node.calUse.any fun x => calGroup (x.1 / 256) == g then a + 2 ^ g else a) 0

/-- COMMIT of a calibration index. -/
def State.commitCalibration (s : State) (idx : Nat) (c : Changes) : Status × State :=
  let before := c.map fun x : Nat × List (Nat × Byte) => (x.1, s.calInUse idx x.1)
  s.commitChecked idx c [(!c.all fun x => s.calOk c idx x.1, .rangeFault)] fun s =>
    let s := before.foldl (fun s x => s.noteUse idx x.1 x.2) s
    (s.setOct 0x2005 1 (calGroup idx) 1).count 0x2005 3

/-! ### Rehearsal (R404-R406, R440) -/

def slotIdx (i : Nat) : Nat := 0x7001 + i
def State.slotObj (s : State) (i k : Nat) : Nat := s.scalar (slotIdx i) k
def rehKind : Nat := 1
def rehTarget : Nat := 2
def rehDuration : Nat := 4
def rehPeriod : Nat := 5
def rehCount : Nat := 6
def rehIntensity : Nat := 7
def rehState : Nat := 8

/-- Whether a target exists in its range, and is fitted. -/
def State.rehTargetOk (s : State) (kind t : Nat) : Option Status :=
  let v := s.variant
  if kind = rehLane then (if 64 ≤ t then some .rangeFault else if v.ports ≤ t / 8 then some .unitAbsent else none)
  else if kind = rehChannel ∨ kind = rehStorm then
    (if 1040 ≤ t then some .rangeFault
     else if (if t < 1024 then v.channels ≤ t else v.packages ≤ t - 1024) then some .unitAbsent else none)
  else if kind = rehReply ∨ kind = rehPeer then (if 4096 ≤ t then some .rangeFault else none)
  else if kind = rehEvict then (if 2 ≤ t then some .rangeFault else if v.ioDies ≤ t then some .unitAbsent else none)
  else none

/-- INTENSITY that a kind takes (R405). -/
def rehIntensityOk (kind x : Nat) : Bool :=
  if kind = rehStorm ∨ kind = rehEvict then decide (1 ≤ x) && decide (x ≤ 1000000)
  else if kind = rehReply then decide (2 ≤ x)
  else if kind = 0 then true
  else x == 0

/-- The rules of a slot (R404, R405). -/
def State.slotChecks (s : State) (i : Nat) (c : Changes) : List (Bool × Status) :=
  let w := s.would c (slotIdx i)
  let kind := w rehKind
  let d := w rehDuration
  [(s.flt.rehearsals.any (·.slot == i), .busyRetry),
   (decide (d < 1000000) || decide (60000000000 < d), .rangeFault),
   (w rehPeriod != 0 && decide (w rehPeriod < d + 1000000), .rangeFault),
   (w rehCount == 0, .rangeFault),
   (!rehIntensityOk kind (w rehIntensity), .rangeFault),
   (s.rehTargetOk kind (w rehTarget) == some .rangeFault, .rangeFault),
   (s.rehTargetOk kind (w rehTarget) == some .unitAbsent, .unitAbsent)]

/-- ENABLE. -/
def State.rehEnabled (s : State) : Bool := s.scalar 0x7000 1 == 1

/-- Runs that a slot has in all. -/
def State.slotTotal (s : State) (i : Nat) : Nat := if s.slotObj i rehPeriod = 0 then 1 else s.slotObj i rehCount

def State.slotDues (s : State) (i : Nat) : Nat := assocGet s.flt.dues i 0

/-- STATE of a slot that does not run: armed while it has runs left. -/
def State.restSlot (s : State) (i : Nat) : State :=
  let st := if s.slotObj i rehKind = 0 ∨ !s.rehEnabled then 0 else if s.slotTotal i ≤ s.slotDues i then 3 else 1
  s.setScalar (slotIdx i) rehState st

/-- The port of a lane trains again. -/
def State.retrainLane (s : State) (t : Nat) : State :=
  if s.portLive (t / 8) then ((s.reportPort (t / 8) .training 0).reroute (t / 8)).count 0x6000 0x34 else s

/-- A run ends: its effects are undone. A port whose spare has really failed meanwhile stays as it is (R443). -/
def State.endRun (s : State) (x : Rehearsal) : State :=
  let now := s.now
  let s := { s with flt := { s.flt with rehearsals := s.flt.rehearsals.erase x } }
  let s := if x.kind = rehLane ∧ ((s.port (x.target / 8)).bad.getLsbD 8 → bit x.seen 8) then s.retrainLane x.target else s
  let s := if x.kind = rehStorm then s.count 0x6000 0x30 (s.slotObj x.slot rehIntensity * (now - s.slotObj x.slot 10) / 1000000000) else s
  (s.restSlot x.slot).raise srcRehearsal

/-- End every running slot (R404, R406). -/
def State.endRuns (s : State) : State := s.flt.rehearsals.foldl (fun s x => s.endRun x) s

/-- COMMIT of 0x7000: ENABLE. -/
def State.commitRehearsal (s : State) (c : Changes) : Status × State :=
  s.commitChecked 0x7000 c [] fun s => (List.range 16).foldl State.restSlot (if s.rehEnabled then s else s.endRuns)

/-- COMMIT of a slot. -/
def State.commitSlot (s : State) (i : Nat) (c : Changes) : Status × State :=
  s.commitChecked (slotIdx i) c (s.slotChecks i c) fun s =>
    ({ s with flt := { s.flt with dues := assocPut s.flt.dues i 0 0 } }).restSlot i

/-- The unit that a run acts on is in service (R406). -/
def State.rehUnitIn (s : State) (kind t : Nat) : Bool :=
  if kind = rehLane then s.inService .port (t / 8)
  else if kind = rehChannel ∨ kind = rehStorm then
    (if t < 1024 then s.inService .stack (t / 128) && (!s.variant.nearBank || s.inService .nearBank t) else s.inService .lowerCtl (t - 1024))
  else true

/-- The loss of one more lane would leave its port with none. -/
def State.rehNoLane (s : State) (t : Nat) : Bool :=
  let out := putBit (s.lanesOut (t / 8)) (t % 8) true
  widestMode (badLanes out (spareLane out (s.port (t / 8)).spareFor)) == 0

/-- A run that is skipped (R406). -/
def State.rehSkips (s : State) (kind t : Nat) : Bool :=
  !s.rehUnitIn kind t || (kind == rehLane && s.rehNoLane t) || s.rehearses kind t

/-- A run starts (DEDUCED, log 51). -/
def State.startRun (s : State) (i kind t : Nat) : State :=
  let x : Rehearsal := { slot := i, kind := kind, target := t, seen := if kind = rehLane then (s.port (t / 8)).bad.toNat else 0 }
  let s := { s with flt := { s.flt with rehearsals := s.flt.rehearsals ++ [x] } }
  let s := ((s.count 0x7000 3).count (slotIdx i) 9).setScalar (slotIdx i) 10 s.now
  let s := s.setScalar (slotIdx i) rehState 2
  (if kind = rehLane then s.retrainLane t else s).raise srcRehearsal

def execRehearsalRunStart (slot : Nat) (s : State) : Host.Outcome State Fault Refusal :=
  .next <|
    if 16 ≤ slot ∨ !s.coreRuns ∨ s.node.phase ≠ .running ∨ !s.rehEnabled ∨ s.slotObj slot rehState ≠ 1 then s
    else
      let kind := s.slotObj slot rehKind
      let t := s.slotObj slot rehTarget
      let s := { s with flt := { s.flt with dues := assocPut s.flt.dues slot (s.slotDues slot + 1) 0 } }
      if s.rehSkips kind t then (s.count 0x7000 4).restSlot slot else s.startRun slot kind t

def execRehearsalRunEnd (slot : Nat) (s : State) : Host.Outcome State Fault Refusal :=
  .next <|
    match s.flt.rehearsals.find? (·.slot == slot) with
    | some x => s.endRun x
    | none => s

/-! ### RECALIBRATE (R403) -/

/-- A write of RECALIBRATE. -/
def State.recalibrate (s : State) (v : Nat) : Status × State :=
  if v = 0 ∨ 16 ≤ v then (.rangeFault, s)
  else if s.scalar 0x2006 2 = 1 then (.busyRetry, s)
  else
    let s := s.endRuns
    let s := (s.setScalar 0x2006 2 1).setScalar 0x2006 3 0
    (.ok, { s with node := { s.node with recal := BitVec.ofNat 8 v } }.setCause causeRecalibrate true)

/-- Index that a RECALIBRATE group writes. -/
def recalIndex : Nat → Nat
  | 0 => 0x2000 | 1 => 0x2001 | 2 => 0x2003 | _ => 0x2004

/-- One measured value goes to the flash. -/
def State.storeMeasured (s : State) (idx k : Nat) (bs : List Byte) : State :=
  match objAt s.variant idx k with
  | none => s
  | some o =>
    let inUse := s.calInUse idx k
    let s := match o.ty with
      | .octets n => s.setOctets idx k 0 (bs.take n)
      | _ => s.setScalar idx k (leVal bs % 2 ^ 32)
    s.noteUse idx k inUse

/-- One group has been measured. -/
def State.storeGroup (s : State) (measured : List (Nat × List Byte)) (g : Nat) : State :=
  let idx := recalIndex g
  let s := (measured.filter fun x => x.1 / 256 == idx).foldl (fun s x => s.storeMeasured idx (x.1 % 256) x.2) s
  (s.setOct 0x2005 1 (calGroup idx) 2).flashWrite

end Sys2Proof.Machine
end

