-- ==== Sys2Proof/Machine/Trust.lean ====
section
/-! DEFINITION. Sys2Proof/Machine/Trust.lean: firmware images, the measured-boot record, assay, staging, activation and rollback
(R409-R426). -/

namespace Sys2Proof.Machine

open Sys2Proof

/-! ### The manifest (R411, R412) -/

def slice (bs : List Byte) (off n : Nat) : List Byte := (bs.drop off).take n

def allZero (bs : List Byte) : Bool := bs.all (· == 0)

/-- A component entry: ID, LENGTH, OFFSET and digest. -/
structure CompEntry where
  id : Nat
  length : Nat
  offset : Nat
  digest : List Byte
  zeros : Bool
  deriving DecidableEq, Repr

def compEntry (m : List Byte) (i : Nat) : CompEntry :=
  let e := slice m (64 + 64 * i) 64
  { id := leVal (slice e 0 1), length := leVal (slice e 4 4), offset := leVal (slice e 8 8), digest := slice e 16 48, zeros := allZero (slice e 1 3) }

def mfKeyslot (m : List Byte) : Nat := leVal (slice m 5 1)
def mfSvn (m : List Byte) : Nat := leVal (slice m 6 1)
def mfNcomp (m : List Byte) : Nat := leVal (slice m 7 1)
def mfVersion (m : List Byte) : Nat := leVal (slice m 8 4)
def mfVariants (m : List Byte) : Nat := leVal (slice m 12 4)
def mfTotal (m : List Byte) : Nat := leVal (slice m 16 8)

def mfComps (m : List Byte) : List CompEntry := (List.range (mfNcomp m)).map (compEntry m)

/-- The first row of R412: the layout, one component of each ID, every range inside TOTAL. -/
def layoutBad (bs : List Byte) : Bool :=
  let m := bs.take 1024
  let n := mfNcomp m
  let cs := mfComps m
  m.length != 1024 || leVal (slice m 0 4) != 0x464E4657 || leVal (slice m 4 1) != 1 || n == 0 || decide (8 < n) ||
  mfTotal m != bs.length || decide (stageBytes < mfTotal m) || mfSvn m == 0 || decide (64 < mfSvn m) ||
  !allZero (slice m 24 40) || !allZero (slice m 673 255) || decide (16 ≤ mfVariants m) || !allZero (slice m (64 + 64 * n) (512 - 64 * n)) ||
  [2, 3, 4, 5, 6].any (fun i => (cs.filter (·.id == i)).length != 1) ||
  cs.any fun c => decide (c.id < 2) || decide (6 < c.id) || !c.zeros || decide (mfTotal m < c.offset + c.length)

/-- Bit of a variant in VARIANTS. -/
def variantBit : Variant → Nat
  | .fn8_2x => 0 | .fn8_2 => 1 | .fn6_1 => 2 | .fn4_1p => 3

/-- Bytes of a digest. -/
def digestBytes (d : BitVec 384) : List Byte := beBytes 48 d.toNat

/-- The ordered checks of an image (R412) (DEDUCED, log 53). -/
def State.imageChecks (s : State) (bs : List Byte) : List (Bool × Status) :=
  let m := bs.take 1024
  let key := slice m 576 97
  let k := mfKeyslot m
  [(layoutBad bs, .rangeFault),
   (!bit (mfVariants m) (variantBit s.variant), .formatUnsupported),
   (decide (4 ≤ k) || sha384 key != Config.keyHash k || s.trust.keyRevoked.getLsbD k, .keyFault),
   (!ecdsaVerify key (m.take 928) (slice m 928 96), .keyFault),
   (decide (mfSvn m < s.trust.rollback), .revoked),
   ((mfComps m).any (fun c => digestBytes (sha384 (slice bs c.offset c.length)) != c.digest), .keyFault)]

/-- What a slot keeps of a valid image. -/
def imageOf (bs : List Byte) : Image :=
  let m := bs.take 1024
  { valid := true, version := mfVersion m, svn := mfSvn m, keyslot := mfKeyslot m, manifest := sha384 m,
    comps := (mfComps m).map fun c => (c.id, sha384 (slice bs c.offset c.length)) }

/-! ### Slots -/

def State.slot (s : State) (b : Bool) : Image := if b then s.trust.slotB else s.trust.slotA

def State.setSlot (s : State) (b : Bool) (x : Image) : State :=
  { s with trust := if b then { s.trust with slotB := x } else { s.trust with slotA := x } }

/-- The slot that staging writes. -/
def State.idleSlot (s : State) : Bool := !s.trust.runningB

def stageState : Nat := 7
def stageReject : Nat := 8
def activateState : Nat := 0xA

/-- ACTIVATE 1 runs. -/
def State.activating (s : State) : Bool := s.scalar 0x7100 activateState == 1

/-- Write an image into the idle slot and check it (R423) (DEDUCED, log 63). -/
def State.writeImage (s : State) (bs : List Byte) : Status × State :=
  let s := s.flashWrite
  match firstFail (s.imageChecks bs) with
  | none => (.ok, ((s.setSlot s.idleSlot (imageOf bs)).setScalar 0x7100 stageState 2).setScalar 0x7100 stageReject 0)
  | some st => (st, ((s.setSlot s.idleSlot {}).setScalar 0x7100 stageState 3).setScalar 0x7100 stageReject st.code)

/-- COMMIT of STAGE. -/
def State.commitStage (s : State) (c : Changes) : Status × State :=
  if s.activating then (.busyRetry, s)
  else
    let bs := s.wouldBytes c 0x7100 6 0 (c.length 6)
    (s.applyChanges 0x7100 c).writeImage bs

/-! ### The measured-boot record (R415) -/

/-- An entry as its 64 bytes. -/
def Measured.bytes (e : Measured) : List Byte :=
  leBytes 1 e.stage ++ leBytes 1 e.slot ++ leBytes 1 e.svn ++ [0] ++ leBytes 4 e.version ++ leBytes 8 e.time.toNat ++ digestBytes e.digest

/-- Values of the calibration set in ascending Index.Sub order. -/
def State.calValues (s : State) : List Byte :=
  [0x2000, 0x2001, 0x2002, 0x2003, 0x2004].flatMap fun idx =>
    (indexObjs s.variant idx).flatMap fun o => match o.2.ty with
      | .octets n => s.octets idx o.1 0 n
      | _ => leBytes 4 (s.scalar idx o.1)

/-- Components that a variant loads, in the order of R413. -/
def loadedComps (v : Variant) : List Nat := if v.nearBank then [2, 3, 4, 5, 6] else [2, 3, 4, 6]

/-- The entries that booting a slot measures. -/
def State.bootEntries (s : State) (b : Bool) : List Measured :=
  let x := s.slot b
  let at_ := fun stage d => (⟨stage, b2n b, x.svn, x.version, s.clk.ltime, d⟩ : Measured)
  [⟨0, 0xFF, 0, 0, s.clk.ltime, Config.romDigest⟩, at_ 1 x.manifest] ++
  (loadedComps s.variant).map (fun i => at_ i ((x.comps.lookup i).getD 0)) ++
  [⟨16, 0xFF, 0, 0, s.clk.ltime, sha384 s.calValues⟩]

/-- The running digest over entries. -/
def runDigest (l : List Measured) : BitVec 384 := l.foldl (fun r e => sha384 (digestBytes r ++ e.bytes)) 0

/-- Boot a slot: the record is rebuilt from empty. -/
def State.bootSlot (s : State) (b : Bool) : State :=
  let es := s.bootEntries b
  { s with trust := { s.trust with runningB := b, record := es, running := runDigest es } }

/-! ### Activation and rollback (R424, R425) -/

/-- RECALIBRATE runs. -/
def State.recalibrating (s : State) : Bool := s.node.recal != 0

/-- A write of ACTIVATE (DEDUCED, log 54). -/
def State.activate (s : State) (v : Nat) : Status × State :=
  if s.activating ∨ s.recalibrating ∨ s.node.warmRunning then (.busyRetry, s)
  else if (v ≠ 1 ∧ v ≠ 2) ∨ s.scalar 0x7100 stageState ≠ 2 then (.rangeFault, s)
  else if v = 1 then (.ok, (s.setScalar 0x7100 activateState 1).setCause causeActivation true)
  else (.ok, ({ s with trust := { s.trust with activeB := s.idleSlot } }).flashWrite)

/-- A write of ROLLBACK_COMMIT. -/
def State.rollbackCommit (s : State) (v : Nat) : Status × State :=
  if s.activating then (.busyRetry, s)
  else if v ≠ 1 then (.rangeFault, s)
  else
    let x := s.slot s.trust.runningB
    if x.svn ≤ s.trust.rollback then (.ok, s)
    else
      let below := BitVec.ofNat 4 (2 ^ x.keyslot - 1)
      (.ok, { s with trust := { s.trust with rollback := x.svn, keyRevoked := s.trust.keyRevoked ||| below } })

/-- What boot refuses in a slot's manifest whatever else it finds (R412, R413). -/
def State.bootBad (s : State) (b : Bool) : Option Status :=
  let x := s.slot b
  firstFail [(!x.valid, .rangeFault), (s.trust.keyRevoked.getLsbD x.keyslot, .keyFault), (decide (x.svn < s.trust.rollback), .revoked)]

/-- FW_VERSION and SVN that a slot reads: 0 for one that holds no valid image, which an advance of the rollback counter may make it (R422, R425). -/
def State.slotVersion (s : State) (b : Bool) : Nat := if (s.bootBad b).isSome then 0 else (s.slot b).version
def State.slotSvn (s : State) (b : Bool) : Nat := if (s.bootBad b).isSome then 0 else (s.slot b).svn

/-! ### Assay (R417-R421) -/

def TenantState.code : TenantState → Nat
  | .active => 1 | .quenching => 2 | .zeroing => 3

def CompState.code : CompState → Nat
  | .active => 1 | .releasing => 2 | .quenching => 3 | .annealing => 4

/-- STATE of a tenant (R312). -/
def State.tenantCode (s : State) (t : Nat) : Nat := match s.tenant t with | some x => x.state.code | none => 0

/-- State entries (R419). -/
def State.tenantEntry (s : State) (t : Nat) : List Byte :=
  leBytes 1 1 ++ leBytes 1 (s.tenantCode t) ++ leBytes 2 t ++ leBytes 4 0 ++ leBytes 4 (s.tenantObj t 3) ++ leBytes 4 0

def Comp.stateEntry (c : Comp) : List Byte :=
  leBytes 1 2 ++ leBytes 1 c.state.code ++ leBytes 2 c.id ++ leBytes 1 (b2n c.loan) ++ leBytes 1 0 ++
  leBytes 2 ((c.map.map (·.epoch)).getD 0) ++ leBytes 4 ((c.map.map (·.crc)).getD 0) ++ leBytes 4 0

/-- A tenant's entry, then those of its compositions in ascending slot. -/
def State.scopeEntries (s : State) (t : Nat) : List Byte :=
  s.tenantEntry t ++ (((s.comps.filter (·.tenant == t)).mergeSort fun a b => decide (a.slot ≤ b.slot)).flatMap Comp.stateEntry)

/-- Tenants that are not FREE, in ascending order. -/
def State.busyTenants (s : State) : List Nat := (s.tenants.map (·.id)).mergeSort fun a b => decide (a ≤ b)

/-- STATE_DIGEST. -/
def State.stateDigest (s : State) (nodeScope : Bool) (t : Nat) : BitVec 384 :=
  sha384 (if nodeScope then s.busyTenants.flatMap s.scopeEntries else s.scopeEntries t)

/-- Bytes 0 to 175 of a quote (R418). -/
def State.quoteBody (s : State) (nodeScope : Bool) (t : Nat) (nonce : List Byte) : List Byte :=
  leBytes 4 0x464E4153 ++ leBytes 1 1 ++ leBytes 1 (b2n nodeScope) ++ leBytes 2 (if nodeScope then 0 else t) ++
  leBytes 8 s.clk.ltime.toNat ++ s.octets 0x1000 5 0 16 ++ nonce ++ digestBytes s.trust.running ++ leBytes 1 s.trust.record.length ++
  leBytes 1 s.trust.rollback ++ leBytes 1 (b2n s.trust.runningB) ++ leBytes 1 s.trust.lifecycle.toNat ++ leBytes 4 (s.scalar 0x7100 0xD) ++
  digestBytes (s.stateDigest nodeScope t) ++ leBytes 8 0

/-- A reply without a quote, or its head. -/
def assayHead (st : Status) : List Byte := leBytes 4 0x464E4151 ++ leBytes 1 st.code ++ leBytes 3 0

/-- May the requester ask for a scope (R420)? A VOP session asks with its role. -/
def State.assayRight (s : State) (route : Route) (role : Option Nat) (nodeScope : Bool) (t : Nat) : Bool :=
  match role with
  | some r => r == 0 || (!nodeScope && r == t)
  | none =>
    match route with
    | .doe ld => if nodeScope then ld == s.mgmtLd else s.tenantLd t == ld
    | .pyvas n => s.comps.any fun c => c.tenant == (if nodeScope then 0 else t) &&
        (c.map.toList ++ c.oldMap.toList).any fun m => m.nodes.any (·.node == n)
    | _ => false

/-- Quotes in progress at once. -/
def quoteMax : Nat := 4

/-- The ordered checks of an assay request (R417, R421). -/
def State.assayChecks (s : State) (route : Route) (role : Option Nat) (bs : List Byte) : List (Bool × Status) :=
  let scope := leVal (slice bs 5 1)
  [(bs.length != 40 || leVal (slice bs 0 4) != 0x464E4152 || leVal (slice bs 4 1) != 1 || decide (1 < scope), .rangeFault),
   (!s.assayRight route role (scope == 1) (leVal (slice bs 6 2)), .keyFault),
   (decide (quoteMax ≤ s.trust.quotes.length) || s.isBanked || s.activating, .busyRetry)]

/-- Give a reply to the carrier of its request. -/
def State.assayReply (s : State) (route : Route) (session : Nat) (bs : List Byte) : State :=
  if session = 0 then (match route with | .doe ld => s.emit (.doe ld bs) | .pyvas n => s.sendMgt n 7 bs | r => s.emit (.assay r bs))
  else
    let padded := bs ++ List.replicate (280 - bs.length) 0
    { s with mgmt := { s.mgmt with sessions := modWhere (·.id == session) (fun x => { x with assay := padded }) s.mgmt.sessions } }

/-- Judge a request; one that passes starts a quote over the present state. `session` is 0 outside VOP. -/
def State.assay (s : State) (route : Route) (session : Nat) (role : Option Nat) (bs : List Byte) : State :=
  match firstFail (s.assayChecks route role bs) with
  | some st => s.assayReply route session (assayHead st)
  | none =>
    let body := s.quoteBody (leVal (slice bs 5 1) == 1) (leVal (slice bs 6 2)) (slice bs 8 32)
    { s with trust := { s.trust with
        quotes := s.trust.quotes ++ [⟨s.trust.nextQuote, route, session, body⟩], nextQuote := s.trust.nextQuote + 1 } }

/-- A request over DOE or Pyvas MGT (R238); on a VOP route, the open session of that route asks. -/
def execAssayRequest (route : Route) (m : AssayMsg) (s : State) : Host.Outcome State Fault Refusal :=
  .next <|
    if !s.node.powered then s
    else match route with
      | .doe ld => if s.linkCarries ld then s.assay route 0 none m.bytes else s
      | .pyvas n =>
        if m.via.src ≠ n ∨ m.via.payload ≠ m.bytes then s
        else s.receive m.via .mgt 7 fun s => s.accepted.assay route 0 none m.bytes
      | _ => match s.mgmt.sessions.find? (·.route == route) with
        | some x => s.assay route x.id (some x.role) m.bytes
        | none => s

def execQuoteReady (id : Nat) (s : State) : Host.Outcome State Fault Refusal :=
  .next <|
    match s.trust.quotes.find? (·.id == id) with
    | none => s
    | some q =>
      let s := { s with trust := { s.trust with quotes := dropWhere (·.id == id) s.trust.quotes } }
      s.assayReply q.route q.session (assayHead .ok ++ q.body ++ deviceSign q.body)

/-! ### Firmware commands of the mailbox (R423) -/

/-- Staging that no session holds: the mailbox's own. -/
def mailboxSession : Nat := 0

/-- A command of the management LD. -/
def State.fwRow (s : State) (ld op : Nat) (go : State → State) : State :=
  s.mailboxRow ld op fun s => if ld = s.mgmtLd then go s else s.mbox ld rcUnsupported

def execGetFwInfo (ld : Nat) (s : State) : Host.Outcome State Fault Refusal :=
  .next <| s.fwRow ld 0x0200 fun s =>
    s.mbox ld rcSuccess (Config.cxlPayload 0x0200 [2, b2n s.trust.runningB, b2n s.trust.activeB, s.slotVersion false, s.slotVersion true])

/-- Stage bytes of one object for a session. -/
def Mgmt.stage (m : Mgmt) (session idx k : Nat) (bs : List (Nat × Byte)) : Mgmt :=
  let mine := fun x : Staged => x.session == session && x.index == idx && x.sub == k
  let old := ((m.staged.find? mine).map (·.val)).getD []
  let offs := bs.map (·.1)
  { m with staged := dropWhere mine m.staged ++ [⟨session, idx, k, dropWhere (fun x => offs.contains x.1) old ++ bs⟩] }

/-- What a session has staged for an index. -/
def Mgmt.changes (m : Mgmt) (session idx : Nat) : Changes :=
  (m.staged.filter fun x => x.session == session && x.index == idx).map fun x => (x.sub, x.val)

/-- A session gives up its staged values of an index. -/
def Mgmt.unstage (m : Mgmt) (session idx : Nat) : Mgmt :=
  { m with staged := dropWhere (fun x : Staged => x.session == session && x.index == idx) m.staged }

def State.modMgmt (s : State) (f : Mgmt → Mgmt) : State := { s with mgmt := f s.mgmt }

/-- Return code of a firmware status. -/
def fwCode : Status → Nat
  | .ok => rcSuccess | .busyRetry => rcBusy | _ => rcInvalid

def execTransferFw (ld off : Nat) (bytes : List Byte) (last : Bool) (s : State) : Host.Outcome State Fault Refusal :=
  .next <| s.fwRow ld 0x0201 fun s =>
    if s.activating ∨ s.mgmt.staged.any (fun x => x.index == 0x7100 && x.session != mailboxSession) then s.mbox ld rcBusy
    else if stageBytes < off + bytes.length then s.mbox ld rcInvalid
    else
      let s := (s.modMgmt fun m => m.stage mailboxSession 0x7100 6 (bytes.zipIdx.map fun x => (off + x.2, x.1))).setScalar 0x7100 stageState 1
      let s := s.modLd ld fun l => { l with transfer := !last }
      if last then
        let c := s.mgmt.changes mailboxSession 0x7100
        let r := (s.modMgmt fun m => m.unstage mailboxSession 0x7100).commitStage c
        r.2.mbox ld (fwCode r.1)
      else s.mbox ld rcSuccess

/-- STAGE_STATE goes back to empty when the bytes being written have been discarded. -/
def State.restStage (s : State) : State :=
  if s.scalar 0x7100 stageState = 1 ∧ !s.mgmt.staged.any (·.index == 0x7100) then s.setScalar 0x7100 stageState 0 else s

/-- End the sessions and setups that satisfy the predicates, and discard what they have staged (R388, R393). -/
def State.endSessionsIf (s : State) (p : Session → Bool) (q : Setup → Bool) : State :=
  let gone := (s.mgmt.sessions.filter p).map (·.id)
  (s.modMgmt fun m =>
    { m with sessions := dropWhere p m.sessions, setups := dropWhere q m.setups,
             staged := dropWhere (fun x => gone.contains x.session) m.staged }).restStage

/-- End every session and setup (R388, R424). -/
def State.endSessions (s : State) : State := s.endSessionsIf (fun _ => true) fun _ => true

def execActivateFw (ld : Nat) (online : Bool) (s : State) : Host.Outcome State Fault Refusal :=
  .next <| s.fwRow ld 0x0202 fun s =>
    let r := s.activate (if online then 1 else 2)
    let s := r.2.mbox ld (fwCode r.1)
    if online ∧ r.1 = .ok then s.endSessions else s

end Sys2Proof.Machine
end

