-- ==== Sys2Proof/Machine/Governor.lean ====
section
/-! DEFINITION. Sys2Proof/Machine/Governor.lean: the voltage governor, its limits, and the thermal inputs (R464-R467, R449, R456). -/

namespace Sys2Proof.Machine

open Sys2Proof

/-! ### Exact values of F32 objects -/

/-- A stored F32 as an exact number. -/
def State.ratObj (s : State) (idx k : Nat) : Rat := f32Rat (BitVec.ofNat 32 (s.scalar idx k))

/-! ### Limits (R464, R465) -/

/-- A setpoint limit in mV: one of 600 to 850 in steps of 5, as its nearest F32. -/
def vcoreStep (x : F32) : Bool := (List.range 51).any fun i => ratF32 ((600 + 5 * i : Nat) / 1000) == x

def between32 (x : F32) (lo hi : Rat) : Bool := decide (lo ≤ f32Rat x) && decide (f32Rat x ≤ hi)

/-- VCORE_MIN lies from 0.60 to VCORE_MAX; 0.60 is the F32 of that name. -/
def vminOk (lo hi : F32) : Bool := between32 lo (f32Rat (ratF32 (600 / 1000))) (f32Rat hi)

/-- The rules of an index as it would stand. -/
def State.limitsOk (s : State) (idx : Nat) (c : Changes) : Bool :=
  let w := fun k => BitVec.ofNat 32 (s.would c idx k)
  match idx with
  | 0x2100 =>
    let p := s.variant.designPower
    vcoreStep (w 3) && vminOk (w 4) (w 3) && decide (p ≤ 2 * s.would c idx 5) && decide (s.would c idx 5 ≤ p)
  | _ => between32 (w 1) 85 105 && between32 (w 2) 85 95

/-- COMMIT of 0x2100 or 0x2102. -/
def State.commitLimits (s : State) (idx : Nat) (c : Changes) : Status × State :=
  s.commitChecked idx c [(!s.limitsOk idx c, .rangeFault)]

/-! ### Sensors (R402, R464) -/

/-- Sensor `i` lies on a fitted die. -/
def State.sensorFitted (s : State) (i : Nat) : Bool :=
  if i < 8 then true else if i < 12 then decide ((i - 8) / 2 < s.variant.ioDies) else decide (i - 12 < s.variant.stackCount)

def State.sensors (s : State) : List Nat := (List.range 20).filter s.sensorFitted

/-- THERM_OFFSET of a sensor, in 0.001 °C. -/
def State.thermOffset (s : State) (i : Nat) : Int := int32 (s.scalar 0x2001 (i + 1))

/-- TEMP_i, in 0.001 °C. -/
def State.temp (s : State) (i : Nat) : Int := if s.sensorFitted i then s.gov.temps.getD i 0 + s.thermOffset i else 0

/-- The sensor lies on a stack. -/
def onStack (i : Nat) : Bool := decide (12 ≤ i)

/-- A limit of a sensor's die, in 0.001 °C: `k` is the logic limit's subindex, the stack limit's is the next. -/
def State.dieLimit (s : State) (k i : Nat) : Rat := 1000 * s.ratObj 0x2102 (if onStack i then k + 1 else k)

def limThrottle : Nat := 1
def limTrip : Nat := 3
def limResume : Nat := 5

/-- Every die lies below its resume limit. -/
def State.allResumed (s : State) : Bool := s.sensors.all fun i => decide ((s.temp i : Rat) < s.dieLimit limResume i)

def State.setTemp (s : State) (i : Nat) (t : Int) : State := { s with gov := { s.gov with temps := s.gov.temps.set i (t - s.thermOffset i) } }

/-! ### The governor (R466) -/

/-- Smallest margin to a throttle point, in 0.001 °C. -/
def State.margin (s : State) : Rat :=
  match s.sensors.map fun i => s.dieLimit limThrottle i - (s.temp i : Rat) with
  | [] => 0
  | x :: xs => xs.foldl min x

/-- The used entries of the governor table: TMARGIN in 0.1 °C and mV. -/
def State.govTable (s : State) : List (Int × Nat) :=
  ((govEntries (s.octets 0x2002 1 0 256)).takeWhile fun e => e.2.1 != 0).map fun e => (e.1, e.2.1)

/-- VCORE of the entry with the greatest TMARGIN at or below the margin, else of the first. -/
def State.tableMv (s : State) : Nat :=
  let t := s.govTable
  let first := (t.head?.map (·.2)).getD 600
  (t.filter fun e => decide ((100 * e.1 : Int) ≤ s.margin)).foldl (fun _ e => e.2) first

/-- Period of a rise, 1 ms. -/
def risePeriod : Nat := 1000000

/-- What the power loop asks for, in mV. -/
def State.powerMv (s : State) : Rat :=
  let cap := 1000 * s.scalar 0x2100 5
  if cap < s.gov.power then s.gov.vset - 5
  else if 100 * s.gov.power < 97 * cap ∧ s.gov.lastRise + risePeriod ≤ s.now then s.gov.vset + 5
  else s.gov.vset

def State.vmaxMv (s : State) : Rat := 1000 * s.ratObj 0x2100 3
def State.vminMv (s : State) : Rat := 1000 * s.ratObj 0x2100 4

/-- The setpoint limit as the multiple of 5 mV that its F32 stands for. -/
def nearestMv (x : Rat) : Rat := ((x + 1 / 2).floor : Rat)

/-- GOV_CAUSE bits 0 to 2. -/
def govBits (vt : Rat) (vp vmax : Rat) : BitVec 32 :=
  let b1 := decide (vp < vmax) && decide (vp < vt)
  putBit (putBit (putBit 0 govThermal (decide (vt < vmax))) govPower b1) govLimit (decide (vmax < vt) && !b1)

/-- The setpoint of one step (DEDUCED, log 55). -/
def govern (vt vp vmax : Rat) : Rat := max 600 (min 850 (min vmax (min vt vp)))

/-- Time under throttle up to now. -/
def State.throttleTime (s : State) : Nat :=
  if s.gov.cause.getLsbD govThermal || s.gov.cause.getLsbD govPower then s.now - s.gov.lastTick else 0

/-- A failed transaction leaves the setpoint; one that succeeds sets it, unless the hardware holds 0.60 V. -/
def State.sendMv (s : State) (v : Rat) (failed : Bool) : State :=
  if failed then
    { s.count 0x2100 9 with node := { s.node with alertAvs := true }, gov := { s.gov with cause := putBit s.gov.cause govAvsFault true } }
  else
    let v := if s.node.critHold then 600 else v
    let s := s.emit (.avs v)
    { s with node := { s.node with alertAvs := false }
             gov := { s.gov with cause := putBit s.gov.cause govAvsFault false, lastRise := if s.gov.vset < v then s.now else s.gov.lastRise,
                                 vset := v } }

def execGovernorTick (temps : List Int) (power meas avsFailed : Nat) (s : State) : Host.Outcome State Fault Refusal :=
  .next <|
    if !s.node.powered then s
    else
      let s := s.count 0x2100 8 s.throttleTime
      let s := { s with gov := { s.gov with temps := temps, power := power, meas := meas, lastTick := s.now } }
      let vt : Rat := s.tableMv
      let vmax := nearestMv s.vmaxMv
      let vp := max s.vminMv s.powerMv
      let was := s.gov.cause.getLsbD govThermal
      let bits := govBits vt vp vmax
      let s := { s with gov := { s.gov with cause := putBit bits govAvsFault (s.gov.cause.getLsbD govAvsFault) } }
      let s := s.sendMv (govern vt vp vmax) (decide (3 ≤ avsFailed))
      if bits.getLsbD govThermal && !was then s.raise srcThermalLimit else s

/-! ### Trip and critical temperature (R467) -/

/-- Set the THERMAL cause, which cuts a drain in progress (R450). -/
def State.thermalCause (s : State) : State :=
  let s := s.setCause causeThermal true
  { s with node := { s.node with thermCut := true } }

def execDieTripLimit (sensor : Nat) (temp : Int) (s : State) : Host.Outcome State Fault Refusal :=
  .next <|
    if !s.node.powered ∨ 20 ≤ sensor ∨ !s.sensorFitted sensor then s
    else
      let s := s.setTemp sensor temp
      if s.dieLimit limTrip sensor ≤ (temp : Rat) then s.thermalCause else s

def execCriticalTemperature (sensor : Nat) (temp : Int) (s : State) : Host.Outcome State Fault Refusal :=
  .next <|
    if !s.node.powered ∨ 20 ≤ sensor ∨ !s.sensorFitted sensor then s
    else
      let s := s.setTemp sensor temp
      if (temp : Rat) < 1000 * s.ratObj 0x2102 7 then s
      else
        let s := s.thermalCause
        { s with node := { s.node with critHold := true }, gov := { s.gov with vset := 600 } }

def execCriticalHoldEnd (s : State) : Host.Outcome State Fault Refusal :=
  .next <| if s.node.powered ∧ s.node.critHold ∧ s.allResumed then { s with node := { s.node with critHold := false } } else s

/-- THERM_TRIP_N. It is a pin source; its stuck bit clears when the pin goes inactive (R456). -/
def execThermTripNChange (active : Bool) (s : State) : Host.Outcome State Fault Refusal :=
  .next <|
    if !s.node.powered then s.setPin pinThermTrip active
    else
      let was := s.node.pins.getLsbD pinThermTrip
      let s := s.setPin pinThermTrip active
      if active then
        let s := s.thermalCause
        if was then s else s.raise srcThermTrip
      else { s with node := { s.node with stuck := putBit s.node.stuck stuckThermTrip false } }

def execThermTripStuck (s : State) : Host.Outcome State Fault Refusal :=
  .next <|
    if s.node.powered ∧ s.node.pins.getLsbD pinThermTrip ∧ !s.node.stuckDone then
      ({ s with node := { s.node with stuck := putBit s.node.stuck stuckThermTrip true, stuckDone := true } }).raise srcStuckInput
    else s

/-- ALERT_N is driven low (R364, R413, R463, R466, R467). -/
def State.alert (s : State) : Bool :=
  s.node.alertRecovery || s.node.alertAvs || s.node.alertClk || s.node.critHold ||
  (List.range 128).any fun src => rtAlert (s.routeEntry src) && s.pendOf src && !s.maskOf src

end Sys2Proof.Machine
end

