-- ==== Sys2Proof/Machine/Reset.lean ====
section
/-! DEFINITION. Sys2Proof/Machine/Reset.lean: power, start-up, the banked state, warm reset, resets of one logical device, and the
reference clocks (R413, R445-R457, R463). -/

namespace Sys2Proof.Machine

open Sys2Proof

/-! ### Bank causes and the states around them (R449, R452, R453) -/

/-- Change the node record. -/
def State.modNode (s : State) (f : Node → Node) : State := { s with node := f s.node }

/-- Every port in service trains anew. -/
def State.trainPorts (s : State) : State :=
  ((List.range s.variant.ports).filter fun p => s.inService .port p).foldl (fun s p => s.reportPort p .training 0) s

/-- NODE_RST_N asks for a warm reset that may proceed (R453). -/
def State.rstDue (s : State) : Bool := s.node.warmPending && !s.node.pins.getLsbD pinNodeRst

/-- A warm reset is due and not yet in progress; one that an activation holds up waits for it (R457). -/
def State.warmDue (s : State) : Bool :=
  !s.node.warmRunning && !s.activating && !s.recalibrating && (s.causeSet causeWarmReset || s.rstDue)

/-- Causes that keep the node banked: a warm reset whose steps are over holds the exit up no more. -/
def State.heldBy (s : State) : BitVec 32 :=
  let c := s.node.causes
  if s.node.warmRunning then
    let c := putBit c causeWarmReset false
    if s.node.warmPending then c else putBit c causeNodeRst false
  else c

/-- Exit begins: T_x (R452). -/
def State.beginExit (s : State) : State :=
  let s := (s.modNode fun n => { n with phase := .exiting }).trainWith fun k => k / 256 == 0x2003 || k / 256 == 0x2004
  s.trainPorts

/-! ### Warm reset (R453) -/

def unitClasses : List UnitClass :=
  [.core, .crucible, .engine, .walker, .nearBank, .port, .remoteEngine, .stack, .lowerCtl, .prefixUnit, .control]

/-- Every unit resets and runs its self-test (R400); that of a port in service is its training. -/
def State.testUnits (s : State) : State :=
  let s := unitClasses.foldl (fun s c => (List.range (s.variant.count c)).foldl (fun s u => s.setOper c u .testing) s) s
  ((List.range s.variant.ports).filter fun p => !s.adminOut .port p).foldl (fun s p => s.reportPort p .training 0) s

/-- LD_COUNT and MGMT_LD take effect (R337). -/
def State.applyLds (s : State) : State :=
  let s := (s.setScalar 0x3240 4 (s.scalar 0x3240 1)).setScalar 0x3240 5 (s.scalar 0x3240 2)
  let n := s.ldCount
  let s := s.setOct 0x3240 3 0 (BitVec.ofNat 8 s.mgmtLd)
  ((List.range 4096).filter fun t => decide (n ≤ s.tenantLd t)).foldl (fun s t => s.setOct 0x3240 3 t 0xFF) s

/-- Every connection passes RESET to CLOSED, with its ledger and its window slots. -/
def State.dropConns (s : State) : State :=
  let s := s.fab.conns.foldl (fun s c =>
    let s := s.resetConn c.num .timeout
    match s.conn c.num with | some c => s.removeConn c | none => s) s
  { s with fab := { s.fab with windows := [] } }

/-- The event controller's pending bits read 0, its masks 1, and every CURPRIO 0xFF. -/
def Events.cleared (e : Events) : Events :=
  { e with pend := 0, fpend := 0, mask := BitVec.allOnes 2048, fmask := BitVec.allOnes 64, waiting := [],
           targets := e.targets.map fun t => { t with curprio := 0xFF }, corePrio := List.replicate 8 0xFF, edges := [0, 0, 0, 0] }

/-- Steps 2 to 4 of R453 (DEDUCED, log 57). -/
def State.warmSteps (s : State) : State :=
  let s := s.endSessions.dropConns
  let s := ({ s with wqs := [], cqs := [], ev := s.ev.cleared } : State).raiseLevels
  let s := s.testUnits.applyLds
  s.modNode fun n => { n with warmRunning := true, warmPending := false, linkUp := false }

/-- What follows in the banked state once a cause has changed: a warm reset that is due, and the exit. -/
def State.bankSettle (s : State) : State :=
  if s.node.phase ≠ .banked then s
  else
    let s := if s.warmDue then s.warmSteps else s
    if s.heldBy = 0 then s.beginExit else s

/-- A cause clears. -/
def State.clearCause (s : State) (i : Nat) : State := (s.setCause i false).bankSettle

/-! ### Entry (R450) -/

/-- An ANNEAL in progress ends with CONTEXT_LOST, and its quench proceeds (R333). -/
def State.endAnneals (s : State) : State :=
  s.reclaims.foldl (fun s x => match s.comp x.slot with | some c => (s.quenchLoan c .contextLost).2 | none => s) s

def execBankedEntry (s : State) : Host.Outcome State Fault Refusal :=
  .next <|
    if !s.node.powered ∨ s.node.phase ≠ .running ∨ !s.banking then s
    else
      let s := s.endAnneals.endRuns
      let s := (s.modNode fun n => { n with phase := .entering, bankedAt := s.clk.ltime }).setScalar 0x3010 0x19 0
      (s.count 0x3010 0x16).raise srcBankedEntry

/-- Requests still held on this node. -/
def State.heldReqs (s : State) : List Req := s.reqs.filter Req.live

/-- Connections with outgoing requests still outstanding move to RESET (R450 step 3). -/
def State.resetBusy (s : State) : State :=
  (s.fab.conns.filter fun c => !(s.sentOn c.num).isEmpty).foldl (fun s c => s.resetConn c.num .timeout) s

/-- Every other request ends with CONTEXT_LOST; a target request is answered at once. -/
def State.loseAll (s : State) : State :=
  let s := s.heldReqs.foldl (fun s q => s.abandon q.id .contextLost) s
  (s.reqs.filter fun q => match q.origin with | .remote _ _ => true | _ => false).foldl (fun s q => s.finish q.id) s

/-- Tier moves and swap traffic are abandoned, so every frame keeps one valid place (R209). -/
def State.stopMoves (s : State) : State :=
  let s := s.mem.frames.foldl (fun s f => s.stopMigration f) s
  let s := (s.seqs.filter (·.state == .preempting)).foldl (fun s q => s.swapOutFailed q) s
  (s.seqs.filter (·.state == .restoring)).foldl (fun s q => s.failRestore q.idx .contextLost) s

/-- Units stop at their step boundaries; host lines already accepted complete (R359). -/
def State.stopUnits (s : State) : State :=
  let s := s.finishSteps fun _ => true
  let lines := s.eng.units.flatMap (·.lines)
  let us := s.eng.units.map fun u => { u with step := none, queue := [], owed := 0, cut := false, begun := [], lines := [], buffer := [] }
  let cs := s.eng.cores.map fun c => { c with piece := none }
  let stores := s.eng.stores
  let s := { s with eng := { s.eng with units := us, cmds := [], cores := cs, coreQueue := [], stores := [] } }
  let s := stores.foldl (fun s a => if a.write.isSome then ((s.vendorRecord a.ld vcLtFull true a.tenant a.dpa a.addr).emit (.hostDone a.ld)).endHostWalk a
    else (s.serveLine a).endHostWalk a) s
  (s.serveLines (lines.filter fun a => match a with | .host _ => true | .remote _ | .fetch _ _ _ _ _ => false)).2

/-- Steps 3 and 4 of entry, up to T_b; the ports drop to their banked lanes (DEDUCED, log 56). -/
def State.enterBanked (s : State) : State :=
  let lost := s.heldReqs.length
  let s := s.resetBusy.loseAll
  let s := (s.merges.foldl (fun s x => s.dropMerge x .contextLost) s).stopMoves.stopUnits
  let s := s.setScalar 0x3010 0x19 (lost % 2 ^ 32)
  (s.modNode fun n => { n with phase := .banked, coreHeld := true, selfRefresh := true, thermCut := false }).trainPorts

def execDrainBoundExpiry (s : State) : Host.Outcome State Fault Refusal :=
  .next <| if s.node.powered ∧ s.node.phase = .entering then s.enterBanked.bankSettle else s

/-! ### Exit (R452) -/

/-- Dynamic capacity responses recorded while the node was banked take effect (R451). -/
def Ld.applyRecorded (gone : Nat → List Nat) (l : Ld) : Ld := { l.recorded.foldl (fun l x => l.respond gone x) l with recorded := [] }

/-- Firmware sets the current priorities of the control cores, to what it chooses (R368); sources that waited for a core are routed again (R371). -/
def State.setCorePrios (s : State) : State :=
  let x := (List.range 8).foldl (fun (a : List (BitVec 8) × State) _ => let (b, s) := a.2.drawBits 8; (a.1 ++ [b], s)) ([], s)
  ({ x.2 with ev := { x.2.ev with corePrio := x.1 } } : State).rerouteWaiting fun _ => true

/-- The end of a warm reset; firmware sets the priorities of its cores anew (R368, DEDUCED, log 57). -/
def State.warmEnd (s : State) : State :=
  if !s.node.warmRunning then s
  else
    let s := (s.setCause causeWarmReset false).count 0x3010 0x18
    let s := if s.node.warmPending then s else s.setCause causeNodeRst false
    (s.modNode fun n => { n with warmRunning := false }).setCorePrios

/-- Step 3: the core is released, BANKED_EXIT is raised and pending events are routed. -/
def State.release (s : State) : State :=
  let s := s.warmEnd
  let s := s.count 0x3010 0x17 (s.now - s.node.bankedAt.toNat)
  let s := s.modNode fun n => { n with phase := .running, coreHeld := false, selfRefresh := false, clkWait := false }
  let s := { s with lds := s.lds.map fun (l : Ld) => l.applyRecorded (s.goneBlocks l.n) }
  (s.raise srcBankedExit).rerouteWaiting fun _ => true

/-- The exit waits: FABREF is lost, or has returned since the node was banked and a port in service still trains (R472, DEDUCED, log 57). -/
def State.exitWaits (s : State) : Bool :=
  !s.clk.fabref || (s.node.clkWait && (List.range s.variant.ports).any fun p => s.inService .port p && s.portStatus p == .training)

/-- The step that ends the exit; a cause set meanwhile returns the node to BANKED. -/
def execBankedExit (s : State) : Host.Outcome State Fault Refusal :=
  .next <|
    if !s.node.powered ∨ s.node.phase ≠ .exiting then s
    else if s.heldBy = 0 ∧ !s.warmDue then (if s.exitWaits then s else s.release)
    else (s.modNode fun n => { n with phase := .banked }).trainPorts.bankSettle

/-! ### Causes (R449, R453) -/

/-- A write of BANK_CMD. -/
def State.bankCmd (s : State) (v : Nat) : Status × State :=
  if v = 1 then (.ok, s.setCause causeManagement true)
  else if v = 0 then (.ok, s.clearCause causeManagement)
  else (.rangeFault, s)

/-- A write of WARM_RESET. -/
def State.warmReset (s : State) (v : Nat) : Status × State :=
  if v ≠ 1 then (.rangeFault, s)
  else if s.activating then (.busyRetry, s)
  else (.ok, (s.setCause causeWarmReset true).bankSettle)

def execForceHoldChange (active : Bool) (s : State) : Host.Outcome State Fault Refusal :=
  .next <|
    if !s.node.powered then s.setPin pinForceHold active
    else
      let was := s.node.pins.getLsbD pinForceHold
      let s := s.setPin pinForceHold active
      if active then
        let s := s.setCause causeForceHold true
        if was then s else s.raise srcForceHold
      else s.clearCause causeForceHold

def execNodeRstNAssert (s : State) : Host.Outcome State Fault Refusal :=
  .next <|
    if s.node.pins.getLsbD pinNodeRst then s
    else if !s.node.powered then s.setPin pinNodeRst true
    else ((s.setPin pinNodeRst true).setCause causeNodeRst true).modNode fun n => { n with warmPending := true }

/-- On release the pending warm reset proceeds; one in progress completes first. -/
def execNodeRstNRelease (s : State) : Host.Outcome State Fault Refusal :=
  .next <|
    if !s.node.pins.getLsbD pinNodeRst then s
    else if !s.node.powered then s.setPin pinNodeRst false
    else
      let s := s.setPin pinNodeRst false
      let s := if s.node.warmRunning && s.node.warmPending && s.node.phase == .banked then s.warmEnd else s
      s.bankSettle

/-! ### Commands whose end clears a cause (R405, R416, R476) -/

def execThermalClearTimer (s : State) : Host.Outcome State Fault Refusal :=
  .next <|
    if !s.node.powered ∨ s.node.pins.getLsbD pinThermTrip then s
    else
      let s := { s with node := { s.node with stuckDone := false } }
      if s.causeSet causeThermal ∧ s.allResumed then
        let s := s.clearCause causeThermal
        { s with node := { s.node with thermCut := false } }
      else s

def execActivationDone (failed : Option Status) (s : State) : Host.Outcome State Fault Refusal :=
  .next <|
    if !s.node.powered ∨ !s.activating ∨ s.node.phase ≠ .banked then s
    else
      let s := match failed.orElse (fun _ => s.bootBad s.idleSlot) with
        | none =>
          let s := s.bootSlot s.idleSlot
          let s := { s with trust := { s.trust with activeB := s.trust.runningB } }
          (((s.count 0x7100 0xD).setScalar 0x7100 activateState 2).setScalar 0x7100 stageState 0).flashWrite
        | some st =>
          let s := s.bootSlot s.trust.runningB
          ((s.setScalar 0x7100 activateState 3).setScalar 0x7100 stageState 3).setScalar 0x7100 stageReject st.code
      s.clearCause causeActivation

def execRecalibrateDone (measured : List (Nat × List Byte)) (failed : BitVec 4) (s : State) : Host.Outcome State Fault Refusal :=
  .next <|
    if !s.node.powered ∨ s.node.recal = 0 ∨ s.node.phase ≠ .banked then s
    else
      let groups := (List.range 4).filter s.node.recal.getLsbD
      let bad := groups.filter failed.getLsbD
      let s := (groups.filter fun g => !failed.getLsbD g).foldl (fun s g => s.storeGroup measured g) s
      let s := (s.setScalar 0x2006 3 (sumOf (2 ^ ·) bad)).setScalar 0x2006 2 (if bad.isEmpty then 2 else 3)
      { s with node := { s.node with recal := 0 } }.clearCause causeRecalibrate

/-! ### Power and start-up (R413, R445, R447, R448) -/

/-- Is a stored scalar one of the flash? -/
def flashKey (v : Variant) (k : Nat) : Bool := match objAt v (k / 256) (k % 256) with | some o => o.flash | none => false

/-- A physical unit of the fault list that serves a logical unit is replaced by a spare, or leaves it FAULTED. -/
def State.loadFault (s : State) (x : UnitClass × Nat) : State :=
  match (List.range (s.variant.count x.1)).find? fun u => s.physOf x.1 u == some x.2 with
  | none => s
  | some u =>
    match s.sparesFor x.1 u with
    | p :: _ => s.setSpare x.1 u (some p)
    | [] => (s.setSpare x.1 u none).setUnitRec { cls := x.1, unit := u, oper := .faulted }

/-- What power-down leaves: the flash, the fuses and the levels at the pins (R379, R445). Commands that wait, what the node has sent,
and the count of free values are the model's own. -/
def State.flashOnly (s : State) : State :=
  let s0 : State := { pending := s.pending, free := s.free + 2, out := s.out, variant := s.variant }
  let lost := s.flt.flashList
  let s0 : State := { s0 with
    objs := s.objs.filter fun x => flashKey s.variant x.1
    octs := s.octs.filter fun x => flashKey s.variant (x.1 / octSpan)
    tenants := s0.tenants.map fun t => { t with key := s.free }
    node := { pins := s.node.pins, metaKey := s.free + 1 }
    trust := { keyRevoked := s.trust.keyRevoked, rollback := s.trust.rollback, lifecycle := s.trust.lifecycle, slotA := s.trust.slotA,
               slotB := s.trust.slotB, activeB := s.trust.activeB }
    flt := { flashList := lost, failed := s.flt.failed, retired := (lost.map fun r => (r.tier == 0, r.unit, r.location)).dedup }
    fab := { ports := s.fab.ports.map fun p => { p := p.p, bad := p.bad } } }
  let s0 := s0.flt.failed.foldl State.loadFault s0
  let s0 := s0.modMem fun m => { m with tpages := [] }
  ((s0.addRoot 0).getD s0).count 0x4000 3

/-- The slots that the boot ROM tries, in order (R413, R445). -/
def State.bootOrder (s : State) : List Bool :=
  let first := s.trust.activeB != s.node.straps.getLsbD 16
  [first, !first]

/-- The node stays in recovery: the core is held and ALERT_N is low. -/
def State.enterRecovery (s : State) : State :=
  ({ s.endSessions with trust := { s.trust with record := [], running := 0 } }).modNode fun n =>
    { n with recovery := true, coreHeld := true, alertRecovery := true, phase := .starting }

/-- Boot the first slot that its manifest does not rule out. -/
def State.boot (s : State) : State :=
  match s.bootOrder.find? fun b => (s.bootBad b).isNone with
  | some b => s.bootSlot b
  | none => s.enterRecovery

/-- The rising edge of PWRGOOD: straps are sampled and the local counter starts at 0; then steps 2 to 5 of R447 (DESIGN CHOICE, log 9). -/
def execPwrgoodRise (straps : BitVec 32) (s : State) : Host.Outcome State Fault Refusal :=
  .next <|
    if s.node.powered ∧ (s.node.ready ∨ s.node.phase ≠ .starting) then s
    else
      let s := s.flashOnly.modNode fun n => { n with straps := straps &&& 0x1FFFF }
      let pin := fun i => s.node.pins.getLsbD i
      let s := if pin pinForceHold then s.setCause causeForceHold true else s
      let s := if pin pinThermTrip then s.setCause causeThermal true else s
      let s := if pin pinNodeRst then (s.setCause causeNodeRst true).modNode fun n => { n with warmPending := true } else s
      (s.setScalar 0x2006 2 0).applyLds.boot.raiseLevels

/-- PWRGOOD has been low for 1 us: power-down. -/
def execPwrgoodFall (s : State) : Host.Outcome State Fault Refusal :=
  .next <| if s.node.powered then s.flashOnly.modNode fun n => { n with powered := false, coreHeld := true } else s

def execRecoveryEntry (s : State) : Host.Outcome State Fault Refusal :=
  .next <| if s.node.powered ∧ s.node.phase = .starting ∧ !s.node.ready then s.enterRecovery else s

/-- Step 10 of R447; with a bank cause present the node is banked (R448) (DESIGN CHOICE, log 13). -/
def execReady (s : State) : Host.Outcome State Fault Refusal :=
  .next <|
    if !s.node.powered ∨ s.node.phase ≠ .starting ∨ s.node.ready ∨ s.node.recovery then s
    else
      let banked := s.banking
      let s := s.modNode fun n => { n with
        ready := true, readyTime := s.clk.ltime, phase := if banked then .banked else .running, coreHeld := banked, selfRefresh := banked,
        bankedAt := s.clk.ltime }
      (s.setCorePrios.raise srcReady).bankSettle

/-! ### Resets of one logical device (R454, R455) -/

/-- Queues of an LD are destroyed; a queue whose started requests still run stays without completions until they end (DEDUCED, log 72). -/
def State.killQueues (s : State) (ld : Nat) : State :=
  let busy := fun n => s.reqs.any (·.origin == .queue n)
  let s := s.wake .waitCount
  { s with
    wqs := (s.wqs.filter fun w => w.ld != ld || busy w.num).map fun w => if w.ld = ld then { w with dead := true, holder := none } else w
    cqs := dropWhere (·.ld == ld) s.cqs }

/-- MSI-X and configuration state as PCIe resets them; a background command runs on, its result discarded. -/
def Ld.functionReset (l : Ld) : Ld :=
  { l with busMaster := false, msixOn := false, msixMask := false, vecMask := BitVec.allOnes 2048, pba := 0, vectors := [],
           aer := { l.aer with reportNonFatal := false, reportFatal := false }, mbox := {}, transfer := false,
           discard := l.background.any (fun b => !b.reported), background := l.background.filter fun b => !b.reported }

/-- Sources of an LD are masked with their pending bits kept. -/
def State.maskSources (s : State) (ld : Nat) : State :=
  ((List.range 2048).filter fun src => s.sourceLd src == ld).foldl State.bankMask s

/-- Targets of an LD read CURPRIO 0xFF. -/
def State.resetTargets (s : State) (ld : Nat) : State :=
  { s with ev := { s.ev with targets := modWhere (fun t => bit (s.targets ld) t.t) (fun t => { t with curprio := 0xFF }) s.ev.targets } }

/-- Mailbox staging of firmware ends with the mailbox. -/
def State.dropTransfer (s : State) (ld : Nat) : State :=
  if ld = s.mgmtLd then s.modMgmt fun m => { m with staged := dropWhere (·.session == mailboxSession) m.staged } else s

def State.functionReset (s : State) (ld : Nat) : State :=
  (((((s.killQueues ld).dropTransfer ld).modLd ld Ld.functionReset).maskSources ld).resetTargets ld)

def execFunctionLevelReset (ld : Nat) (s : State) : Host.Outcome State Fault Refusal :=
  .next <| if s.linkCarries ld then s.functionReset ld else s

/-- What a loan offers anew: its bytes but for the blocks withdrawn for errors. -/
def State.offerAgain (s : State) (c : Comp) : State :=
  match c.region with
  | none => s
  | some (ld, r) =>
    (s.modLd ld fun l => { l with extents := dropWhere (·.region == r) l.extents }).offerParts c 0 (s.scalar (0x5000 + c.slot) 0xB)

def State.cxlReset (s : State) (ld : Nat) : State :=
  let s := (s.functionReset ld).modLd ld fun l => { l with decoders := [{}, {}, {}, {}], recorded := [] }
  (s.comps.filter fun c => c.state == .active && (match c.region with | some x => x.1 == ld | none => false)).foldl State.offerAgain s

def execCxlReset (ld : Nat) (s : State) : Host.Outcome State Fault Refusal :=
  .next <| if s.linkCarries ld then s.cxlReset ld else s

def execPerstNAssert (s : State) : Host.Outcome State Fault Refusal :=
  .next <|
    if s.node.pins.getLsbD pinPerst then s
    else if !s.node.powered then s.setPin pinPerst true
    else ((List.range s.ldCount).foldl State.cxlReset (s.setPin pinPerst true)).modNode fun n => { n with linkUp := false }

def execPerstNRelease (s : State) : Host.Outcome State Fault Refusal :=
  .next (s.setPin pinPerst false)

/-! ### Reference clocks (R463) -/

def execFabrefLoss (s : State) : Host.Outcome State Fault Refusal :=
  .next <|
    if !s.node.powered ∨ !s.clk.fabref then s
    else
      let s := (({ s with clk := { s.clk with fabref := false } }).count 0x2100 10).modNode fun n => { n with alertClk := true }
      (List.range s.variant.ports).foldl (fun s p => s.reportPort p .down 0) s

def execFabrefReturn (s : State) : Host.Outcome State Fault Refusal :=
  .next <|
    if !s.node.powered ∨ s.clk.fabref then s
    else (({ s with clk := { s.clk with fabref := true } }).modNode fun n =>
      { n with alertClk := false, clkWait := n.phase != NodePhase.running && n.phase != NodePhase.starting }).trainPorts

def execPeRefclkLoss (s : State) : Host.Outcome State Fault Refusal :=
  .next <| if s.node.powered then ({ s with clk := { s.clk with refclk := false } }).modNode fun n => { n with linkUp := false } else s

end Sys2Proof.Machine
end

