-- ==== Sys2Proof/Machine/Dictionary.lean ====
section
/-! DEFINITION. Sys2Proof/Machine/Dictionary.lean: what the objects read as (R377, R378, R392): the stored ones, and those that the
node computes from its state. -/

namespace Sys2Proof.Machine

open Sys2Proof

/-! ### Units and spares (R396, R442) -/

/-- OPER of a class. -/
def State.operBytes (s : State) (k : Nat) (n : Nat) : List Byte :=
  match unitClassAt k with
  | some (c, _, _) => (List.range n).map fun u => BitVec.ofNat 8 (if u < s.variant.count c then (s.oper c u).code else 0)
  | none => List.replicate n 0

/-- MISMATCHES: units now in disagreement. -/
def State.mismatches (s : State) : Nat := (s.eng.oper.filter (·.mismatch)).length

def spareByte (base : Nat) : Option Nat → Byte
  | some p => BitVec.ofNat 8 (p - base)
  | none => 0xFF

/-- SPARE_CORES. -/
def State.spareCores (s : State) : List Byte := (List.range 96).map fun u => spareByte 0 (s.physOf .core u)

/-- SPARE_NEARBANK. -/
def State.spareNearBank (s : State) : List Byte :=
  (List.range 1024).map fun u => if u < s.variant.count .nearBank then spareByte (136 * (u / 128)) (s.physOf .nearBank u) else 0xFF

/-- SPARE_LANES: a lane that is out is served by the spare, or by none. -/
def State.spareLanes (s : State) : List Byte :=
  (List.range 64).map fun i =>
    let p := i / 8
    let l := i % 8
    let flag : Byte := if s.rehearses rehLane i then 0x80 else 0
    if s.variant.ports ≤ p then 0xFF
    else if (s.lanesOut p).getLsbD l then (if (s.port p).spareFor = some l then flag ||| 8 else 0xFF)
    else flag ||| BitVec.ofNat 8 l

/-- The lane spare of a port is left. -/
def State.laneSpare (s : State) (p : Nat) : Bool := decide (p < s.variant.ports) && !(s.lanesOut p).getLsbD 8 && (s.port p).spareFor.isNone

/-- Near-bank spares of a stack. -/
def State.stackSpares (s : State) (k : Nat) : Nat := if 128 * k < s.variant.count .nearBank then (s.sparesFor .nearBank (128 * k)).length else 0

/-- SPARES_LEFT. -/
def State.sparesLeft (s : State) : List Byte :=
  [BitVec.ofNat 8 (s.sparesFor .core 0).length] ++ (List.range 8).map (fun k => BitVec.ofNat 8 (s.stackSpares k)) ++
  (List.range 8).map fun p => BitVec.ofNat 8 (b2n (s.laneSpare p))

/-- A bit of FAULT_LIST's bitset. -/
def State.faultBit (s : State) (i : Nat) : Bool :=
  if i < 104 then s.flt.failed.contains (.core, i)
  else if 128 ≤ i ∧ i < 200 then decide ((i - 128) / 9 < s.variant.ports) && (s.port ((i - 128) / 9)).bad.getLsbD ((i - 128) % 9)
  else false

/-- FAULT_LIST. -/
def State.faultList (s : State) : List Byte :=
  (List.range 256).map fun i =>
    if 32 ≤ i ∧ i < 40 then BitVec.ofNat 8 (s.flt.failed.filter fun x => x.1 == .nearBank && x.2 / 136 == i - 32).length
    else BitVec.ofNat 8 (sumOf (fun b => 2 ^ b * b2n (s.faultBit (8 * i + b))) (List.range 8))

/-- A retirement record (R433). -/
def RetireRec.bytes (x : RetireRec) : List Byte :=
  leBytes 8 x.time.toNat ++ leBytes 1 x.cause ++ leBytes 1 x.tier ++ leBytes 2 x.tenant ++ leBytes 2 x.unit ++ leBytes 2 x.lines ++
  leBytes 4 x.location ++ leBytes 4 x.frame ++ leBytes 8 x.address

/-- HEALTH (R442). -/
def State.health (s : State) : BitVec 32 :=
  let v := s.variant
  let exhausted := (s.sparesFor .core 0).isEmpty || (List.range v.stackCount).any (fun k => v.nearBank && s.stackSpares k == 0) ||
    (List.range v.ports).any fun p => !s.laneSpare p
  let storm := s.flt.ceTimes.any fun x => decide (10000 < (x.2.2.filter fun t => decide (s.now < t + lossSpan)).length)
  let h := putBit s.flt.health healthSpareExhausted exhausted
  let h := putBit h healthUnitFaulted (s.eng.oper.any (·.oper == .faulted))
  let h := putBit h healthMirrorDegraded (!s.mem.stalls.isEmpty || !s.mem.lost.isEmpty)
  let h := putBit h healthCeStorm storm
  let h := putBit h healthRehearsing (!s.flt.rehearsals.isEmpty)
  putBit h healthChannelLost (!s.flt.lost.isEmpty)

def execGetHealthInfo (ld : Nat) (s : State) : Host.Outcome State Fault Refusal := .next <| s.mboxReport ld 0x4200 [s.health.toNat]

/-- Burnish passes that every channel, or package, has completed. -/
def State.burnPasses (s : State) (upper : Bool) : Nat :=
  let n := if upper then s.variant.channels else s.variant.packages
  match (List.range n).map fun u => (s.burn upper u).passes with
  | [] => 0
  | x :: xs => xs.foldl min x

/-- PACE_MIN: the smallest reading of the last 60 s. -/
def State.paceMin (s : State) : BitVec 32 :=
  leastF32 (s.flt.paceNode :: (s.flt.paceHist.filter fun y => decide (s.now ≤ y.1 + paceSpan)).map (·.2))

/-! ### Tenants and compositions (R312, R319, R320, R325) -/

/-- Saturating 32-bit field. -/
def sat32 (x : Nat) : Nat := min x (2 ^ 32 - 1)

def Sample.bytes (x : Sample) : List Byte :=
  let last := x.hist.headD (0, 0)
  let top := fun f : Nat × Nat → Nat => x.hist.foldl (fun a y => max a (f y)) 0
  leBytes 4 (sat32 last.1) ++ leBytes 4 (sat32 (top (·.1))) ++ leBytes 4 (sat32 last.2) ++ leBytes 4 (sat32 (top (·.2)))

/-- SCHED_SAMPLES. -/
def Tenant.schedSamples (x : Tenant) : List Byte :=
  leBytes 8 x.sampleTime.toNat ++ (List.range 8).flatMap fun i => (x.samples.getD i {}).bytes

/-- Byte-ns as MiB·ms, rounded down. -/
def mibMs (x : Nat) : Nat := x / (1048576 * 1000000)

/-- METERS of a composition. -/
def State.compMeters (s : State) (c : Comp) : List Byte :=
  let m := c.meters
  padTo 128 ([s.now, m.egress, m.coreNs, m.nbNs, m.ltBytes, mibMs m.upperRes, mibMs m.lowerRes, mibMs m.swapRes, m.requests, s.now - m.since].flatMap (leBytes 8))

/-- METERS of a tenant: residency alone. -/
def State.tenantMeters (s : State) (x : Tenant) : List Byte :=
  let r := fun i => mibMs (x.residue.getD i 0)
  padTo 128 ([s.now, 0, 0, 0, 0, r 0, r 1, r 2, 0, 0].flatMap (leBytes 8))

/-! ### Values -/

/-- CORES of an entry of ROUTES is the firmware's (R364). -/
def State.routesByte (s : State) (i : Nat) : Byte :=
  if i % 16 = 7 then (if i / 16 < 0x80 then Config.routeCores (i / 16) else 0) else s.octByte 0x3300 1 i

/-- Bytes of an OCTETS object. -/
def State.octetsValue (s : State) (idx sub n : Nat) : List Byte :=
  if 0x3000 ≤ idx ∧ idx < 0x300B ∧ sub = 2 then s.operBytes (idx - 0x3000) n
  else if 0x4000 ≤ idx ∧ idx < 0x5000 ∧ sub = 0x38 then (s.tenant (idx - 0x4000)).elim (List.replicate n 0) Tenant.schedSamples
  else if 0x4000 ≤ idx ∧ idx < 0x5000 ∧ sub = 0x48 then (s.tenant (idx - 0x4000)).elim (List.replicate n 0) s.tenantMeters
  else if 0x5000 ≤ idx ∧ idx < 0x5400 ∧ sub = 0x10 then (s.comp (idx - 0x5000)).elim (List.replicate n 0) s.compMeters
  else match idx, sub with
    | 0x1011, 2 => padTo n (s.trust.record.flatMap Measured.bytes)
    | 0x1011, 3 => digestBytes s.trust.running
    | 0x3300, 1 => (List.range n).map s.routesByte
    | 0x3300, 3 => s.ev.edges
    | 0x6000, 3 => s.flt.pace.flatMap fun x => leBytes 4 x.toNat
    | 0x6000, 0x10 => s.spareCores
    | 0x6000, 0x11 => s.spareNearBank
    | 0x6000, 0x12 => s.spareLanes
    | 0x6000, 0x13 => s.sparesLeft
    | 0x6000, 0x14 => s.faultList
    | 0x6000, 0x18 => padTo n (s.flt.flashList.flatMap fun x => slice x.bytes 8 16)
    | 0x6000, 0x19 => padTo n (s.flt.log.flatMap RetireRec.bytes)
    | _, _ => s.octets idx sub 0 n

def NodePhase.code : NodePhase → Nat
  | .starting => 0 | .running => 1 | .entering => 2 | .banked => 3 | .exiting => 4

/-- BANKED_TOTAL, with the time of the banked state in progress. -/
def State.bankedTime (s : State) : Nat :=
  s.bankedTotal + if s.node.phase = .entering ∨ s.node.phase = .banked ∨ s.node.phase = .exiting then s.now - s.node.bankedAt.toNat else 0

/-- PLCA_NODE_ID: the straps' while the flash holds none (R381, R445). -/
def State.plcaNodeId (s : State) : Nat :=
  let v := s.scalar 0x1100 3
  if v = 0 then s.node.straps.toNat % 256 else v - 1

/-- Node objects. -/
def State.nodeObj (s : State) (sub : Nat) : Nat :=
  match sub with
  | 1 => s.mismatches
  | 0x10 => s.node.phase.code
  | 0x11 => b2n s.node.ready
  | 0x12 => s.node.causes.toNat
  | 0x15 => s.node.readyTime.toNat
  | 0x17 => s.bankedTime
  | 0x1A => s.node.straps.toNat
  | 0x1B => s.node.pins.toNat
  | 0x1C => s.node.stuck.toNat
  | _ => s.scalar 0x3010 sub

/-- Volts or degrees of a thousandth scale. -/
def milli32 (x : Rat) : Nat := (ratF32 (x / 1000)).toNat

def State.governorObj (s : State) (sub : Nat) : Nat :=
  match sub with
  | 1 => milli32 (if s.node.critHold then 600 else s.gov.vset)
  | 2 => milli32 s.gov.meas
  | 6 => milli32 s.gov.power
  | 7 => s.gov.cause.toNat
  | 8 => s.scalar 0x2100 8 + s.throttleTime
  | _ => s.scalar 0x2100 sub

/-- TEMP_i and TEMP_HOT. -/
def State.tempObj (s : State) (sub : Nat) : Nat :=
  if sub = 0x15 then
    match s.sensors.map s.temp with
    | [] => 0
    | x :: xs => milli32 (xs.foldl max x : Int)
  else if s.sensorFitted (sub - 1) then milli32 (s.temp (sub - 1)) else 0

def State.healthObj (s : State) (sub : Nat) : Nat :=
  match sub with
  | 1 => s.now
  | 2 => s.flt.paceNode.toNat
  | 4 => s.paceMin.toNat
  | 5 => s.scalar 0x6000 5 + s.lowTime
  | 6 => s.health.toNat
  | 0x29 => s.burnPasses true
  | 0x2A => s.burnPasses false
  | _ => s.scalar 0x6000 sub

/-- Tier figures (R201). -/
def State.tierObj (s : State) (sub : Nat) : Nat :=
  let low := s.mem.frames.filter fun f => match f.place with | .lower _ => true | _ => false
  match sub with
  | 1 => s.upperFree
  | 2 => 4096 * (s.lowerFree - s.ltReserve)
  | 3 => sumOf (·.size) low
  | 4 => sumOf (fun f => 64 * s.frameTotal f.num) low
  | _ => s.scalar 0x6100 sub

def State.prefixObj (s : State) (sub : Nat) : Nat :=
  match sub with
  | 1 => s.ps.length
  | 8 => (s.ps.map fun e => (s.ps.filter (·.bank == e.bank)).length).foldl max 0
  | 9 => (s.ps.filter PsSlot.spilled).length
  | _ => s.scalar 0x6200 sub

/-- Scalars of a tenant; KEY_GEN of one that is FREE reads its default (R312). -/
def State.tenantNumber (s : State) (t sub : Nat) : Nat :=
  match sub with
  | 1 => s.tenantCode t
  | 3 => if (s.tenant t).isSome then s.tenantObj t 3 else 0
  | 5 => (s.tenant t).elim 0 (·.root)
  | 0xF => s.framesUsed t
  | _ => s.scalar (0x4000 + t) sub

def State.compNumber (s : State) (k sub : Nat) : Nat :=
  match sub with
  | 5 => (s.comp k).elim 0 (·.state.code)
  | 7 => s.compEpoch k
  | 8 => match (s.comp k).bind (·.oldMap) with | some m => m.epoch | none => s.compEpoch k
  | 9 => s.oldInflight k
  | 0xA => s.inflight k
  | _ => s.scalar (0x5000 + k) sub

def State.firmwareObj (s : State) (sub : Nat) : Nat :=
  let t := s.trust
  match sub with
  | 1 => b2n t.runningB
  | 2 => s.slotVersion false
  | 3 => s.slotSvn false
  | 4 => s.slotVersion true
  | 5 => s.slotSvn true
  | 0xB => t.rollback
  | 0xE => t.keyRevoked.toNat
  | _ => s.scalar 0x7100 sub

/-- Value of a scalar object. -/
def State.number (s : State) (idx sub : Nat) : Nat :=
  if sub = 0 then highestSub (indexObjs s.variant idx)
  else if 0x4000 ≤ idx ∧ idx < 0x5000 then s.tenantNumber (idx - 0x4000) sub
  else if 0x5000 ≤ idx ∧ idx < 0x5400 then s.compNumber (idx - 0x5000) sub
  else if 0x3200 ≤ idx ∧ idx < 0x3208 ∧ sub = 1 then (s.portStatus (idx - 0x3200)).code
  else if 0x3200 ≤ idx ∧ idx < 0x3208 ∧ sub = 2 then (if idx - 0x3200 < s.variant.ports then (s.port (idx - 0x3200)).width else 0)
  else match idx with
    | 0x1011 => s.trust.record.length
    | 0x1100 => if sub = 3 then s.plcaNodeId else if sub = 0xA then s.mgmt.sessions.length else s.scalar 0x1100 sub
    | 0x2005 => if sub = 2 then s.calPending else s.scalar 0x2005 sub
    | 0x2100 => s.governorObj sub
    | 0x2101 => s.tempObj sub
    | 0x3010 => s.nodeObj sub
    | 0x6000 => s.healthObj sub
    | 0x6100 => s.tierObj sub
    | 0x6200 => s.prefixObj sub
    | 0x6400 => if sub = 1 then (s.fab.conns.filter (·.cached)).length else if sub = 6 then s.fab.regions.length else s.scalar 0x6400 sub
    | 0x6500 => if sub = 4 then s.evWaiting else s.scalar 0x6500 sub
    | 0x7000 => if sub = 2 then s.flt.rehearsals.length else s.scalar 0x7000 sub
    | 0x7100 => s.firmwareObj sub
    | _ => s.scalar idx sub

/-- The characters of VENDOR_NAME (R381). -/
def vendorName : List Byte := "Vialhild Semiconductor".toList.map fun c => BitVec.ofNat 8 c.toNat

/-- Value of a UTF8 object: its text, without a terminator. -/
def State.textValue (s : State) (idx sub n : Nat) : List Byte :=
  if idx = 0x1000 ∧ sub = 1 then vendorName else (s.octets idx sub 0 n).takeWhile (· != 0)

/-- What is staged for an object, by whichever session holds its index (R393). -/
def State.stagedFor (s : State) (idx sub : Nat) : List (Nat × Byte) :=
  ((s.mgmt.staged.find? fun x => x.index == idx && x.sub == sub).map (·.val)).getD []

/-- Bytes with staged ones laid over them. -/
def overlay (bs : List Byte) (st : List (Nat × Byte)) : List Byte :=
  if st.isEmpty then bs else bs.zipIdx.map fun x => (st.lookup x.2).getD x.1

/-- What a READ returns, as its wire bytes: zeros of a WO object, the staged value of an RWC object (R10, R377, R378). Scalars go
most significant byte first. -/
def State.value (s : State) (idx sub : Nat) (o : Obj) : List Byte :=
  if o.acc = .wo then List.replicate o.ty.bytes 0
  else
    let st := s.stagedFor idx sub
    match o.ty with
    | .octets n => overlay (s.octetsValue idx sub n) st
    | .utf8 n => s.textValue idx sub n
    | t => (overlay (leBytes t.bytes (s.number idx sub)) st).reverse

end Sys2Proof.Machine
end

