-- ==== Sys2Proof/Machine/Commit.lean ====
section
/-! DEFINITION. Sys2Proof/Machine/Commit.lean: what a WRITE stores at once, and what a COMMIT applies, index by index (R261, R306,
R381, R390, R392, R393, R396, R446). -/

namespace Sys2Proof.Machine

open Sys2Proof

/-! ### Settings without a chapter of their own -/

/-- Replace the staged value of a scalar. -/
def Changes.setVal (c : Changes) (k v : Nat) (n : Nat) : Changes :=
  c.map fun x => if x.1 = k then (k, (leBytes n v).zipIdx.map fun y => (y.2, y.1)) else x

/-- COMMIT of 0x1100 (R381). PLCA_NODE_ID is kept plus one, 0 standing for the straps (DEDUCED, log 64). -/
def State.commitComm (s : State) (c : Changes) : Status × State :=
  let w := s.would c 0x1100
  let bad := (c.has 1 && bit (s.wouldByte c 0x1100 1 0).toNat 0) || (c.has 3 && w 3 == 255) || !s.ranged c 0x1100 4 1 255 ||
    !s.ranged c 0x1100 5 1 255 || !s.ranged c 0x1100 7 1 255 || (c.has 8 && w 8 % 8 == 0)
  if bad then (.rangeFault, s)
  else (.ok, s.applyChanges 0x1100 (c.setVal 3 (w 3 + 1) 1))

/-- A management key slot holds a key (R390). -/
def State.keySlot (s : State) (i : Nat) : List Byte := s.octets 0x1101 (i + 1) 0 97

/-- All four slots are empty. -/
def State.noKeys (s : State) : Bool := (List.range 4).all fun i => allZero (s.keySlot i)

/-- COMMIT of 0x1101: the slots must not all be left empty (R390). -/
def State.commitKeys (s : State) (c : Changes) : Status × State :=
  if (List.range 4).all fun i => allZero (s.wouldBytes c 0x1101 (i + 1) 0 97) then (.rangeFault, s) else (.ok, s.applyChanges 0x1101 c)

/-- COMMIT of a fabric port's addresses (R232). -/
def State.commitPort (s : State) (idx : Nat) (c : Changes) : Status × State :=
  if c.has 3 && bit (s.wouldByte c idx 3 0).toNat 0 then (.rangeFault, s) else (.ok, s.applyChanges idx c)

/-- COMMIT of the transport settings (R261). -/
def State.commitTransport (s : State) (c : Changes) : Status × State :=
  if !s.ranged c 0x3210 1 0 4095 || !s.ranged c 0x3210 3 1024 65535 || !s.ranged c 0x3210 5 0 4094 then (.rangeFault, s)
  else (.ok, s.applyChanges 0x3210 c)

/-! ### What a WRITE of an RWC object judges -/

/-- The bytes that a write brings an RWC object at an offset keep the rule that its chapter states of the value alone (R377, R378). Rules that
hold a value against other objects, and those of the chapters that say the COMMIT fails (R312, R320, R339, R364, R402, R404, R465), are the
COMMIT's (R393) (DEDUCED, log 60). -/
def State.writeOk (s : State) (idx sub off : Nat) (bs : List Byte) : Bool :=
  let v := leVal bs
  let w := BitVec.ofNat 32 v
  let within := fun lo hi : Nat => decide (lo ≤ v) && decide (v ≤ hi)
  let group := off == 0 && bit (bs.headD 0).toNat 0
  if 0x3200 ≤ idx ∧ idx < 0x3208 then sub != 3 || !group
  else match idx, sub with
    | 0x1100, 1 => !group
    | 0x1100, 3 => within 0 254
    | 0x1100, 4 | 0x1100, 5 | 0x1100, 7 => within 1 255
    | 0x1100, 8 => v % 8 != 0
    | 0x2001, _ => thermOk v
    | 0x2100, 3 => vcoreStep w
    | 0x2100, 4 => vminOk w (ratF32 (850 / 1000))
    | 0x2100, 5 => within ((s.variant.designPower + 1) / 2) s.variant.designPower
    | 0x2102, 1 => between32 w 85 105
    | 0x2102, 2 => between32 w 85 95
    | 0x3210, 1 => within 0 4095
    | 0x3210, 3 => within 1024 65535
    | 0x3210, 5 => within 0 4094
    | 0x3240, 1 => within 1 16
    | _, _ => true

/-! ### RW objects -/

/-- The range of an RW object, by its Meaning column (R201, R261, R306, R381, R396, R446). -/
def State.rwRange (s : State) (idx sub : Nat) : Nat × Nat :=
  match idx, sub with
  | 0x1100, 9 => (1000000000, 3600000000000)
  | 0x3010, 3 => (1000000, 60000000000)
  | 0x3010, 0x1D => (100000, 100000000)
  | 0x3210, 8 => (5000, 1000000)
  | 0x3210, 9 => (max 1000000 (s.scalar 0x3210 8), 4000000)
  | 0x3210, 0xA => (s.scalar 0x3210 0xB, 1600000)
  | 0x3210, 0xB => (10, 10000)
  | 0x3210, 0xC => (500, 100000)
  | 0x3210, 0xD => (1, 100000)
  | 0x3210, 0xE => (100000, 100000000)
  | 0x3210, 0xF => (1, 512)
  | 0x3210, 0x10 => (500, 100000)
  | 0x3210, 0x11 => (max 10000 (s.scalar 0x3210 0x10), 10000000)
  | 0x3210, 0x12 => (200, 20000)
  | 0x3220, 1 => (10000, 10000000)
  | 0x3400, 1 => (3, min 49 (s.scalar 0x3400 2 - 1))
  | 0x3400, 2 => (max 4 (s.scalar 0x3400 1 + 1), 50)
  | 0x3400, 3 => (1, 255)
  | 0x3400, 4 => (1000000, 10000000000)
  | 0x3400, 5 => (0, 100)
  | 0x3400, 6 => (5000, 1000000)
  | 0x3400, 7 => (1, 10)
  | _, _ => (0, 2 ^ 64 - 1)

/-- A WRITE of an RW object takes effect at once (R392). -/
def State.writeRw (s : State) (idx sub : Nat) (o : Obj) (v : Nat) : Status × State :=
  let r := s.rwRange idx sub
  if v < r.1 ∨ r.2 < v then (.rangeFault, s)
  else
    let s := s.setScalar idx sub v
    (.ok, if o.flash then s.flashWrite else s)

/-- A WRITE of a WO object, by `role` over a session (R320, R403, R420, R422, R446). -/
def State.writeWo (s : State) (route : Route) (session role : Nat) (idx sub : Nat) (bs : List Byte) : Status × State :=
  let v := beVal bs
  if 0x5000 ≤ idx then if idx = 0x7100 then (if sub = 9 then s.activate v else s.rollbackCommit v)
    else if sub = 0xE then s.writeExportKey (idx - 0x5000) bs else s.writeQuenchNow (idx - 0x5000) v
  else match idx, sub with
    | 0x1012, _ => ((firstFail (s.assayChecks route (some role) bs)).getD .ok, s.assay route session (some role) bs)
    | 0x2006, _ => s.recalibrate v
    | 0x3010, 0x13 => s.bankCmd v
    | _, _ => s.warmReset v

/-! ### COMMIT by index -/

/-- Apply what is staged for one index, by the rules of its chapter. -/
def State.commitIndex (s : State) (idx : Nat) (c : Changes) : Status × State :=
  if 0x4000 ≤ idx ∧ idx < 0x5000 then s.commitTenant (idx - 0x4000) c
  else if 0x5000 ≤ idx ∧ idx < 0x5400 then s.commitComp (idx - 0x5000) c
  else if 0x7001 ≤ idx ∧ idx < 0x7011 then s.commitSlot (idx - 0x7001) c
  else if 0x2000 ≤ idx ∧ idx < 0x2005 then s.commitCalibration idx c
  else if 0x3000 ≤ idx ∧ idx < 0x300B then
    match unitClassAt (idx - 0x3000) with
    | some (k, _, _) => s.commitAdmin k c
    | none => (.ok, s)
  else if 0x3200 ≤ idx ∧ idx < 0x3208 then s.commitPort idx c
  else if 0x3230 ≤ idx ∧ idx < 0x3240 then s.commitLd (idx - 0x3230) c
  else match idx with
    | 0x1100 => s.commitComm c
    | 0x1101 => s.commitKeys c
    | 0x2100 | 0x2102 => s.commitLimits idx c
    | 0x3210 => s.commitTransport c
    | 0x3240 => s.commitLdConfig c
    | 0x3300 => s.commitRoutes c
    | 0x7000 => s.commitRehearsal c
    | 0x7100 => s.commitStage c
    | _ => (.ok, s.applyChanges idx c)

/-- An object of a die, stack, package or port that the variant lacks (R232, R401). -/
def objAbsent (v : Variant) (idx sub : Nat) : Bool :=
  if 0x3200 ≤ idx ∧ idx < 0x3208 then decide (v.ports ≤ idx - 0x3200)
  else match idx with
    | 0x2000 => decide (v.ports ≤ if sub < 0x41 then (sub - 1) / 8 else sub - 0x41)
    | 0x2001 => decide (9 ≤ sub) && (if sub < 13 then decide (v.ioDies ≤ (sub - 9) / 2) else decide (v.stackCount ≤ sub - 13))
    | 0x2003 => decide (v.stackCount ≤ sub - 1)
    | 0x2004 => decide (v.packages ≤ sub - 1)
    | _ => false

end Sys2Proof.Machine
end

