-- ==== Sys2Proof/Machine/Manage.lean ====
section
/-! DEFINITION. Sys2Proof/Machine/Manage.lean: VOP frames, sessions, and the operations of R384 (R383-R395, R413). -/

namespace Sys2Proof.Machine

open Sys2Proof

/-! ### Frames (R383, R387) -/

def opRead : Nat := 1
def opWrite : Nat := 2
def opCommit : Nat := 3
def opBlockRead : Nat := 4
def opBlockWrite : Nat := 5
def opSubscribe : Nat := 6
def opNotify : Nat := 7
def opHello : Nat := 0x10
def opProof : Nat := 0x11
def opClose : Nat := 0x12

/-- Operations that a manager sends. -/
def vopOps : List Nat := [opRead, opWrite, opCommit, opBlockRead, opBlockWrite, opSubscribe, opHello, opProof, opClose]

def flagReply : Nat := 0x80
def flagLast : Nat := 0x40

/-- The 28 bytes of a header. -/
def vopHead (ver op flags st session seq index sub offset len : Nat) : List Byte :=
  leBytes 1 ver ++ leBytes 1 op ++ leBytes 1 flags ++ leBytes 1 st ++ beBytes 4 session ++ beBytes 8 seq ++ beBytes 2 index ++
  leBytes 1 sub ++ [0] ++ beBytes 4 offset ++ beBytes 2 len ++ [0, 0]

/-- Header and payload of a received frame, over which its tag is taken. -/
def vopCovered (f : VopFrame) : List Byte :=
  vopHead f.ver f.op f.flags 0 f.session f.seq f.index f.sub f.offset f.len ++ f.payload

/-- A frame of the node under a session's key, or with a zero tag. -/
def vopSeal (key : Option (List Byte)) (bs : List Byte) : List Byte :=
  bs ++ match key with | some k => beBytes 16 (vopTag k false bs).toNat | none => List.replicate 16 0

/-- Flags of a reply. -/
def replyFlags (last : Bool) : Nat := flagReply + if last then flagLast else 0

/-- The reply to a frame. -/
def vopReply (f : VopFrame) (key : Option (List Byte)) (st : Status) (index : Nat) (value : List Byte) (last : Bool) : List Byte :=
  vopSeal key (vopHead 1 f.op (replyFlags last) st.code f.session f.seq index f.sub f.offset value.length ++ value)

/-- An untagged reply. -/
def vopPlain (f : VopFrame) (st : Status) (value : List Byte := []) : List Byte := vopReply f none st f.index value false

/-! ### Rights (R381, R388, R389) -/

/-- MGMT_ROUTES leaves a route enabled. -/
def State.routeOn (s : State) : Route → Bool
  | .mgmtPort => bit (s.scalar 0x1100 8) 0
  | .mailbox _ => bit (s.scalar 0x1100 8) 1
  | .pyvas _ => bit (s.scalar 0x1100 8) 2
  | .doe _ => false

/-- Routes of a role. -/
def State.roleRoute (s : State) (role : Nat) : Route → Bool
  | .mgmtPort => role == 0
  | .mailbox ld => if role = 0 then ld == s.mgmtLd else s.tenantLd role == ld
  | .pyvas _ => role == 0
  | .doe _ => false

/-- Indices that SESSION 0 may read. -/
def openIndex (idx : Nat) : Bool := decide (0x1000 ≤ idx) && decide (idx < 0x1300)

/-- A role may read an index. -/
def State.mayRead (s : State) (role idx : Nat) : Bool :=
  role == 0 || openIndex idx || idx == 0x4000 + role ||
  (decide (0x5000 ≤ idx) && decide (idx < 0x5400) && s.scalar idx 2 == role)

/-- A role may write an object: the owner any, a tenant an assay request (R420) (DEDUCED, log 60). -/
def mayWrite (role idx sub : Nat) : Bool := role == 0 || (idx == 0x1012 && sub == 1)

/-! ### Operations (R384, R392-R395) -/

/-- What an operation answers. -/
structure Answer where
  st : Status
  state : State
  value : List Byte := []
  last : Bool := false
  /-- INDEX of the reply, where it is not the request's. -/
  index : Option Nat := none

/-- Value that a session reads (R420). -/
def State.valueFor (s : State) (x : Session) (idx sub : Nat) (o : Obj) : List Byte :=
  if idx = 0x1012 ∧ sub = 2 then (if x.assay.isEmpty then List.replicate 280 0 else x.assay) else s.value idx sub o

/-- Bytes of value that one frame carries. -/
def vopMax : Nat := 1024

def State.vopRead (s : State) (x : Session) (f : VopFrame) : Answer :=
  match objAt s.variant f.index f.sub with
  | none => ⟨.rangeFault, s, [], false, none⟩
  | some o =>
    if !s.mayRead x.role f.index then ⟨.keyFault, s, [], false, none⟩
    else if vopMax < o.ty.bytes then ⟨.rangeFault, s, [], false, none⟩
    else ⟨.ok, s, s.valueFor x f.index f.sub o, false, none⟩

/-- Another session holds the index (R393). -/
def State.heldByOther (s : State) (session idx : Nat) : Bool := s.mgmt.staged.any fun y => y.index == idx && y.session != session

/-- A WRITE that takes effect at once, unless another session holds the index (R393): R378's checks come first (DEDUCED, log 60). -/
def State.unlessHeld (s : State) (x : Session) (f : VopFrame) (r : Status × State) : Answer :=
  if r.1 = .ok ∧ s.heldByOther x.id f.index then ⟨.busyRetry, s, [], false, none⟩ else ⟨r.1, r.2, [], false, none⟩

/-- Stage bytes of an object from an offset; writes of reserved bits are ignored (R9). -/
def State.stage (s : State) (session idx sub off : Nat) (t : OTy) (bs : List Byte) : State :=
  let s := s.modMgmt fun m => m.stage session idx sub (keptBytes t idx sub off bs)
  if idx = 0x7100 then s.setScalar 0x7100 stageState 1 else s

def State.vopWrite (s : State) (x : Session) (f : VopFrame) : Answer :=
  let no := fun st => (⟨st, s, [], false, none⟩ : Answer)
  match objAt s.variant f.index f.sub with
  | none => no .rangeFault
  | some o =>
    if !mayWrite x.role f.index f.sub then no .keyFault
    else if o.acc = .const ∨ o.acc = .ro ∨ !o.ty.lengthOk f.payload.length ∨ vopMax < o.ty.bytes then no .rangeFault
    else if objAbsent s.variant f.index f.sub then no .unitAbsent
    else
      let bs := o.ty.fromWire f.payload
      if !o.ty.valueOk bs then no .rangeFault
      else match o.acc with
        | .rwc =>
          if !s.writeOk f.index f.sub 0 bs then no .rangeFault
          else if s.heldByOther x.id f.index then no .busyRetry
          else ⟨.ok, s.stage x.id f.index f.sub 0 o.ty bs, [], false, none⟩
        | .rw => s.unlessHeld x f (s.writeRw f.index f.sub o (leVal bs))
        | _ => s.unlessHeld x f (s.writeWo x.route x.id x.role f.index f.sub f.payload)

/-- Change a session's record, while it is open. -/
def State.modSession (s : State) (n : Nat) (f : Session → Session) : State :=
  s.modMgmt fun m => { m with sessions := modWhere (·.id == n) f m.sessions }

/-- Is a snapshot one of the object that a frame names? -/
def namesSnap (f : VopFrame) (p : Nat × Nat × List Byte) : Bool := p.1 == f.index && p.2.1 == f.sub

/-- The bytes that a BLOCK_READ reads from: a snapshot, or the object as it stands where OFFSET 0 has taken none (DEDUCED, log 35, log 61). -/
def State.snapshot (s : State) (x : Session) (f : VopFrame) (o : Obj) : List Byte :=
  match x.snaps.find? (namesSnap f) with
  | some p => if f.offset = 0 then s.valueFor x f.index f.sub o else p.2.2
  | none => s.valueFor x f.index f.sub o

/-- A session's snapshots after a BLOCK_READ (R394). -/
def keepSnaps (x : Session) (f : VopFrame) (last : Bool) (all : List Byte) : List (Nat × Nat × List Byte) :=
  if last then dropWhere (namesSnap f) x.snaps
  else if f.offset = 0 then (f.index, f.sub, all) :: dropWhere (namesSnap f) x.snaps
  else x.snaps

def State.vopBlockRead (s : State) (x : Session) (f : VopFrame) : Answer :=
  let no := fun st => (⟨st, s, [], false, none⟩ : Answer)
  match objAt s.variant f.index f.sub with
  | none => no .rangeFault
  | some o =>
    let n := beVal f.payload
    if !s.mayRead x.role f.index then no .keyFault
    else if !o.ty.isOctets ∨ f.payload.length ≠ 2 ∨ n = 0 ∨ vopMax < n ∨ o.ty.bytes < f.offset + n then no .rangeFault
    else
      let all := s.snapshot x f o
      let last := f.offset + n == o.ty.bytes
      let s := s.modSession x.id fun y => { y with snaps := keepSnaps y f last all }
      ⟨.ok, s, slice all f.offset n, last, none⟩

def State.vopBlockWrite (s : State) (x : Session) (f : VopFrame) : Answer :=
  let no := fun st => (⟨st, s, [], false, none⟩ : Answer)
  match objAt s.variant f.index f.sub with
  | none => no .rangeFault
  | some o =>
    if !mayWrite x.role f.index f.sub then no .keyFault
    else if !o.ty.isOctets ∨ o.acc ≠ .rwc ∨ o.ty.bytes < f.offset + f.payload.length then no .rangeFault
    else if objAbsent s.variant f.index f.sub then no .unitAbsent
    else if !s.writeOk f.index f.sub f.offset f.payload then no .rangeFault
    else if s.heldByOther x.id f.index then no .busyRetry
    else ⟨.ok, s.stage x.id f.index f.sub f.offset o.ty f.payload, [], false, none⟩

/-- COMMIT of one index that the session may hold. A BUSY_RETRY in the banked state leaves the values staged (R408, DEDUCED, log 35). -/
def State.commitOne (s : State) (session idx : Nat) (discard : Bool) : Status × State :=
  if s.heldByOther session idx then (.busyRetry, s)
  else
    let c := s.mgmt.changes session idx
    if c.isEmpty then (.ok, s)
    else
      let free := s.modMgmt fun m => m.unstage session idx
      if discard then (.ok, free.restStage)
      else
        let r := free.commitIndex idx c
        if r.1 = .busyRetry ∧ s.isBanked then (.busyRetry, s) else r

/-- Indices that a session holds, in ascending order. -/
def State.heldIndices (s : State) (session : Nat) : List Nat :=
  (((s.mgmt.staged.filter (·.session == session)).map (·.index)).dedup).mergeSort fun a b => decide (a ≤ b)

/-- COMMIT of every held index: the lowest that fails is reported. -/
def State.commitAll (s : State) (session : Nat) (discard : Bool) : Option (Status × Nat) × State :=
  (s.heldIndices session).foldl (fun a idx =>
    let r := a.2.commitOne session idx discard
    (if a.1.isNone ∧ r.1 ≠ .ok then some (r.1, idx) else a.1, r.2)) (none, s)

def State.vopCommit (s : State) (x : Session) (f : VopFrame) : Answer :=
  let no := fun st => (⟨st, s, [], false, none⟩ : Answer)
  let v := beVal f.payload
  if f.index ≠ 0xFFFF ∧ (indexObjs s.variant f.index).isEmpty then no .rangeFault
  else if x.role ≠ 0 then no .keyFault
  else if f.payload.length ≠ 1 ∨ 1 < v then no .rangeFault
  else if f.index = 0xFFFF then
    match s.commitAll x.id (v == 1) with
    | (some (st, idx), s) => ⟨st, s, [], false, some idx⟩
    | (none, s) => ⟨.ok, s, [], false, none⟩
  else let r := s.commitOne x.id f.index (v == 1); ⟨r.1, r.2, [], false, none⟩

/-- Subscriptions of one session. -/
def subMax : Nat := 64

def State.vopSubscribe (s : State) (x : Session) (f : VopFrame) : Answer :=
  let no := fun st => (⟨st, s, [], false, none⟩ : Answer)
  let t := beVal (f.payload.drop 1)
  let kind := beVal (f.payload.take 1)
  let mine := fun u : Subscription => u.index == f.index && u.sub == f.sub
  match objAt s.variant f.index f.sub with
  | none => no .rangeFault
  | some o =>
    if !s.mayRead x.role f.index then no .keyFault
    else if f.payload.length ≠ 9 ∨ 1 < kind ∨ (kind = 0 ∧ (t < 10000000 ∨ 3600000000000 < t)) then no .rangeFault
    else if kind = 1 then ⟨.ok, s.modSession x.id fun y => { y with subs := dropWhere mine y.subs }, [], false, none⟩
    else if subMax ≤ (dropWhere mine x.subs).length then no .capacity
    else
      let v := s.valueFor x f.index f.sub o
      let u : Subscription := { index := f.index, sub := f.sub, interval := t, seen := v, last := v, changed := s.now }
      ⟨.ok, s.modSession x.id fun y => { y with subs := dropWhere mine y.subs ++ [u] }, [], false, none⟩

/-- An operation of an open session. -/
def State.vopDo (s : State) (x : Session) (f : VopFrame) : Answer :=
  if f.op = opRead then s.vopRead x f
  else if f.op = opWrite then s.vopWrite x f
  else if f.op = opCommit then s.vopCommit x f
  else if f.op = opBlockRead then s.vopBlockRead x f
  else if f.op = opBlockWrite then s.vopBlockWrite x f
  else if f.op = opSubscribe then s.vopSubscribe x f
  else if f.op = opClose then ⟨.ok, s.endSessionsIf (·.id == x.id) fun _ => false, [], false, none⟩
  else ⟨.rangeFault, s, [], false, none⟩

/-! ### Sessions (R385-R390) -/

def sessionMax : Nat := 16
def setupMax : Nat := 4

/-- An ID that no session or setup has, never 0. -/
def State.freshSession (s : State) : Nat :=
  let used := s.mgmt.sessions.map (·.id) ++ s.mgmt.setups.map (·.id)
  (((List.range 32).map fun i => (s.mgmt.nextId + i) % 2 ^ 32).find? fun n => n != 0 && !used.contains n).getD 1

/-- HELLO: the nonce and the ephemeral private key are the node's random choice (DEDUCED, log 59). -/
def State.vopHello (s : State) (f : VopFrame) : List Byte × State :=
  let role := beVal (f.payload.take 2)
  match firstFail [(f.payload.length != 133 || decide (4096 ≤ role), .rangeFault), (!s.roleRoute role f.route, .keyFault),
      (decide (setupMax ≤ s.mgmt.setups.length), .busyRetry)] with
  | some st => (vopPlain f st, s)
  | none =>
    let id := s.freshSession
    let (nonce, s) := s.drawBytes 32
    let (secret, s) := s.drawBits 384
    let secret := privateKey secret.toNat
    let body := beBytes 4 id ++ nonce ++ (curveG.mul secret).bytes
    let reply := body ++ deviceSign (f.payload ++ body)
    (vopPlain f .ok reply, s.modMgmt fun m =>
      { m with setups := m.setups ++ [⟨id, role, f.route, f.payload, reply, secret⟩], nextId := (id + 1) % 2 ^ 32 })

/-- A frame of SESSION 0 (R388, R413). -/
def State.vopOpen (s : State) (f : VopFrame) : List Byte × State :=
  let me : Session := { id := mailboxSession, role := 0, route := f.route, key := [] }
  if f.op = opHello ∧ !s.node.recovery then s.vopHello f
  else if f.op = opRead ∧ (openIndex f.index ∨ (s.node.recovery ∧ f.index = 0x7100)) then
    let r := s.vopRead me f
    (vopPlain f r.st r.value, r.state)
  else if s.node.recovery ∧ f.op = opBlockWrite ∧ f.index = 0x7100 ∧ f.sub = 6 then
    let r := s.vopBlockWrite me f
    (vopPlain f r.st, r.state)
  else if s.node.recovery ∧ f.op = opCommit ∧ f.index = 0x7100 then
    let c := s.mgmt.changes mailboxSession 0x7100
    let bs := s.wouldBytes c 0x7100 6 0 (c.length 6)
    let s1 := s.modMgmt fun m => m.unstage mailboxSession 0x7100
    if f.payload.length ≠ 1 ∨ 1 < beVal f.payload then (vopPlain f .rangeFault, s)
    else if beVal f.payload = 1 then (vopPlain f .ok, s1.restStage)
    else match firstFail (s.imageChecks bs) with
      | some st => (vopPlain f st, (s1.setScalar 0x7100 stageState 3).setScalar 0x7100 stageReject st.code)
      | none =>
        let s2 := (((s1.flashWrite.setSlot false (imageOf bs)).setScalar 0x7100 stageState 0).setScalar 0x7100 stageReject 0).bootSlot false
        (vopPlain f .ok, s2.modNode fun n => { n with recovery := false, alertRecovery := false, coreHeld := false })
  else (vopPlain f .keyFault, s)

/-- The signed bytes of a setup (R386 step 3). -/
def Setup.signed (u : Setup) : List Byte := u.hello ++ u.reply

/-- The keys of the session that a setup opens: Nm ‖ Nn, the ECDH product with Qm, and "VOP1" with the session ID (R387). A Qm that is no point of
the curve is used by its coordinates (DESIGN CHOICE, log 59). -/
def Setup.key (u : Setup) : List Byte :=
  hkdf96 (slice u.hello 2 32 ++ slice u.reply 4 32) (ecdh u.secret (slice u.hello 34 97)) ([0x56, 0x4F, 0x50, 0x31] ++ u.reply.take 4)

/-- The proof is good: by a management key, or a tenant's (R390, R391). -/
def State.proofOk (s : State) (u : Setup) (p : List Byte) : Bool :=
  let slot := leVal (p.take 1)
  let key := if u.role = 0 then s.keySlot slot else s.octets (0x4000 + u.role) 0x10 0 97
  p.length == 97 && (u.role != 0 || decide (slot < 4)) && !allZero key && ecdsaVerify key u.signed (p.drop 1)

/-- An enrolment (R390). -/
def State.enrolOk (s : State) (u : Setup) (p : List Byte) : Bool :=
  let key := slice p 1 97
  p.length == 194 && u.role == 0 && u.route == .mgmtPort && s.noKeys && leVal (p.take 1) == 0 && onCurve key &&
  ecdsaVerify key u.signed (p.drop 98)

/-- A setup becomes an open session. -/
def State.openSession (s : State) (u : Setup) (f : VopFrame) : List Byte × State :=
  let key := u.key
  let reply := vopReply f (some key) .ok f.index [] false
  let x : Session :=
    { id := u.id, role := u.role, route := u.route, key := key, mac := f.mac, lastSeq := f.seq, reply := reply, lastAt := s.clk.ltime }
  (reply, (s.modMgmt fun m => { m with sessions := m.sessions ++ [x], setups := dropWhere (·.id == u.id) m.setups }).count 0x6700 1)

/-- A frame under a session in setup. -/
def State.vopProof (s : State) (u : Setup) (f : VopFrame) : Option (List Byte) × State :=
  if f.route ≠ u.route ∨ f.op ≠ opProof then (none, s.count 0x6700 5)
  else if vopTag u.key true (vopCovered f) ≠ f.tag then (none, s.count 0x6700 3)
  else if sessionMax ≤ s.mgmt.sessions.length then (some (vopPlain f .capacity), s)
  else if s.proofOk u f.payload then let r := s.openSession u f; (some r.1, r.2)
  else if s.enrolOk u f.payload then
    let r := ((s.setOctets 0x1101 1 0 (slice f.payload 1 97)).flashWrite).openSession u f
    (some r.1, r.2)
  else
    (some (vopPlain f .keyFault), (s.modMgmt fun m => { m with setups := dropWhere (·.id == u.id) m.setups }).count 0x6700 2)

/-- What follows once the reply has been sent: sessions end by an activation (R424), and on a route that has been disabled (R408). -/
def State.afterReply (s : State) (f : VopFrame) (st : Status) : State :=
  let act := f.op == opWrite && f.index == 0x7100 && f.sub == 9 && st == .ok && beVal f.payload == 1
  let s := if act then s.endSessions else s
  s.endSessionsIf (fun x => !s.routeOn x.route) fun u => !s.routeOn u.route

/-- A frame under an open session (R385, R387, R388). -/
def State.vopSession (s : State) (x : Session) (f : VopFrame) : Option (List Byte) × State :=
  if f.route ≠ x.route then (none, s.count 0x6700 5)
  else if vopTag x.key true (vopCovered f) ≠ f.tag then (none, s.count 0x6700 3)
  else if f.seq < x.lastSeq then (none, s.count 0x6700 4)
  else
    let s := s.modSession x.id fun y => { y with lastAt := s.clk.ltime, mac := f.mac }
    if f.seq = x.lastSeq then (some x.reply, s)
    else
      let a := s.vopDo x f
      let reply := vopReply f (some x.key) a.st (a.index.getD f.index) a.value a.last
      let s := a.state.modSession x.id fun y => { y with lastSeq := f.seq, reply := reply }
      (some reply, s.afterReply f a.st)

/-- Judge a frame: its reply, if it has one, and the state after it (DEDUCED, log 58). -/
def State.vop (s : State) (f : VopFrame) : Option (List Byte) × State :=
  if !s.routeOn f.route ∧ !s.node.recovery then (none, s)
  else if f.ver ≠ 1 ∨ !vopOps.contains f.op ∨ vopMax < f.len then (none, s.count 0x6700 5)
  else if bit f.flags 7 then (none, s)
  else if f.session = 0 then let r := s.vopOpen f; (some r.1, r.2)
  else match s.mgmt.sessions.find? (·.id == f.session) with
    | some x => s.vopSession x f
    | none =>
      match s.mgmt.setups.find? (·.id == f.session) with
      | some u => s.vopProof u f
      | none => (none, s.count 0x6700 3)

/-! ### Carriers (R350, R382, R463) -/

/-- The frame as its carrier brings it: header, payload and tag (R383). -/
def vopBytes (f : VopFrame) : List Byte := vopCovered f ++ beBytes 16 f.tag.toNat

/-- A VOP frame as the management port sends it: an untagged Ethernet frame of EtherType 0x88B5 from MGMT_MAC, padded to the least length of
an Ethernet frame (R382, DEDUCED, log 62). -/
def State.mgmtFrame (s : State) (peer : BitVec 48) (bs : List Byte) : List Byte :=
  beBytes 6 peer.toNat ++ s.octets 0x1100 1 0 6 ++ beBytes 2 0x88B5 ++ bs ++ List.replicate (46 - bs.length) 0

/-- A frame arrives on its route, and its reply goes back; over Pyvas both are MGT packets (R238, R239). While FABREF is lost the management
port sends nothing. -/
def State.vopArrive (s : State) (f : VopFrame) : State :=
  if !s.node.powered then s
  else match f.route with
    | .mgmtPort =>
      match s.vop f with
      | (some r, s1) => if s1.clk.fabref then s1.emit (.vop .mgmtPort (s.mgmtFrame f.mac r)) else s1
      | (none, s1) => s1
    | .mailbox ld =>
      if s.linkCarries ld ∧ !s.node.recovery then let r := (s.mboxTake ld 0xC000).vop f; r.2.mbox ld rcSuccess (r.1.getD []) else s
    | .pyvas n =>
      if s.node.recovery ∨ f.via.src ≠ n ∨ f.via.payload ≠ vopBytes f then s
      else s.receive f.via .mgt 6 fun s =>
        if !s.managerOk f.via then s.count 0x6300 7
        else match s.accepted.vop f with
        | (some r, s) => s.replyTo f.via { cls := .mgt, type := 6, dst := n, comp := f.via.comp, epoch := f.via.epoch, payload := r }
        | (none, s) => s
    | .doe _ => s

/-- A frame of the given operation and index belongs to a row; another is not this row's (DESIGN CHOICE, log 5). -/
def State.vopRow (s : State) (f : VopFrame) (op : Nat) (idx : Nat → Bool) : State := if f.op = op ∧ idx f.index then s.vopArrive f else s

/-- An index lies in a run. -/
def inRun (lo n : Nat) (idx : Nat) : Bool := decide (lo ≤ idx) && decide (idx < lo + n)

/-! ### Rows -/

/-- Frames of unlisted operations come by this row too (R383). -/
def execVopRead (f : VopFrame) (s : State) : Host.Outcome State Fault Refusal :=
  .next <| if vopOps.contains f.op then s.vopRow f opRead fun _ => true else s.vopArrive f

def execVopWrite (f : VopFrame) (s : State) : Host.Outcome State Fault Refusal := .next <| s.vopRow f opWrite fun _ => true

def execVopCommit (f : VopFrame) (s : State) : Host.Outcome State Fault Refusal := .next <| s.vopRow f opCommit fun _ => true

def execBlockRead (f : VopFrame) (s : State) : Host.Outcome State Fault Refusal := .next <| s.vopRow f opBlockRead fun _ => true

def execBlockWrite (f : VopFrame) (s : State) : Host.Outcome State Fault Refusal := .next <| s.vopRow f opBlockWrite fun _ => true

def execSubscribe (f : VopFrame) (s : State) : Host.Outcome State Fault Refusal := .next <| s.vopRow f opSubscribe fun _ => true

def execHello (f : VopFrame) (s : State) : Host.Outcome State Fault Refusal := .next <| s.vopRow f opHello fun _ => true

def execProof (f : VopFrame) (s : State) : Host.Outcome State Fault Refusal := .next <| s.vopRow f opProof fun _ => true

def execClose (f : VopFrame) (s : State) : Host.Outcome State Fault Refusal := .next <| s.vopRow f opClose fun _ => true

/-- The mailbox's payload is the frame: one whose payload is not LEN bytes long is of the wrong length (R349). -/
def execVopFrame (ld : Nat) (f : VopFrame) (s : State) : Host.Outcome State Fault Refusal :=
  .next <|
    if s.linkCarries ld ∧ !s.node.recovery ∧ f.payload.length ≠ f.len then (s.mboxTake ld 0xC000).mbox ld rcLength
    else s.vopArrive { f with route := .mailbox ld }

def execTenantAdminCommit (f : VopFrame) (s : State) : Host.Outcome State Fault Refusal := .next <| s.vopRow f opCommit (inRun 0x4000 0x1000)

def execTenantLimitsCommit (f : VopFrame) (s : State) : Host.Outcome State Fault Refusal := .next <| s.vopRow f opCommit (inRun 0x4000 0x1000)

def execCompositionAdminCommit (f : VopFrame) (s : State) : Host.Outcome State Fault Refusal := .next <| s.vopRow f opCommit (inRun 0x5000 0x400)

def execMapCommit (f : VopFrame) (s : State) : Host.Outcome State Fault Refusal := .next <| s.vopRow f opCommit (inRun 0x5000 0x400)

def execQuenchNow (f : VopFrame) (s : State) : Host.Outcome State Fault Refusal :=
  .next <| s.vopRow f opWrite fun idx => inRun 0x5000 0x400 idx && f.sub == 0xF

def execExportKeyWrite (f : VopFrame) (s : State) : Host.Outcome State Fault Refusal :=
  .next <| s.vopRow f opWrite fun idx => inRun 0x5000 0x400 idx && f.sub == 0xE

def execApertureCommit (f : VopFrame) (s : State) : Host.Outcome State Fault Refusal := .next <| s.vopRow f opCommit (inRun 0x3230 16)

def execLdConfigCommit (f : VopFrame) (s : State) : Host.Outcome State Fault Refusal := .next <| s.vopRow f opCommit (inRun 0x3230 17)

def execRoutesCommit (f : VopFrame) (s : State) : Host.Outcome State Fault Refusal := .next <| s.vopRow f opCommit (· == 0x3300)

def execUnitAdminCommit (f : VopFrame) (s : State) : Host.Outcome State Fault Refusal := .next <| s.vopRow f opCommit (inRun 0x3000 7)

def execCalibrationCommit (f : VopFrame) (s : State) : Host.Outcome State Fault Refusal := .next <| s.vopRow f opCommit (inRun 0x2000 5)

def execRecalibrate (f : VopFrame) (s : State) : Host.Outcome State Fault Refusal :=
  .next <| s.vopRow f opWrite fun idx => idx == 0x2006 && f.sub == 1

def execRehearsalCommit (f : VopFrame) (s : State) : Host.Outcome State Fault Refusal := .next <| s.vopRow f opCommit (inRun 0x7000 17)

def execStageCommit (f : VopFrame) (s : State) : Host.Outcome State Fault Refusal := .next <| s.vopRow f opCommit (· == 0x7100)

def execActivate (f : VopFrame) (s : State) : Host.Outcome State Fault Refusal :=
  .next <| s.vopRow f opWrite fun idx => idx == 0x7100 && f.sub == 9

def execRollbackCommit (f : VopFrame) (s : State) : Host.Outcome State Fault Refusal :=
  .next <| s.vopRow f opWrite fun idx => idx == 0x7100 && f.sub == 0xC

def execBankCmd (f : VopFrame) (s : State) : Host.Outcome State Fault Refusal :=
  .next <| s.vopRow f opWrite fun idx => idx == 0x3010 && f.sub == 0x13

def execWarmReset (f : VopFrame) (s : State) : Host.Outcome State Fault Refusal :=
  .next <| s.vopRow f opWrite fun idx => idx == 0x3010 && f.sub == 0x14

def execGovernorLimitsCommit (f : VopFrame) (s : State) : Host.Outcome State Fault Refusal :=
  .next <| s.vopRow f opCommit fun idx => idx == 0x2100 || idx == 0x2102 || idx == 0x2002

/-! ### Time-driven rows (R386, R388, R395) -/

def execSessionIdleExpiry (sid : Nat) (s : State) : Host.Outcome State Fault Refusal :=
  .next <| if s.node.powered then s.endSessionsIf (·.id == sid) fun _ => false else s

def execSessionSetupTimeout (sid : Nat) (s : State) : Host.Outcome State Fault Refusal :=
  .next <|
    if s.node.powered ∧ s.mgmt.setups.any (·.id == sid) then
      (s.modMgmt fun m => { m with setups := dropWhere (·.id == sid) m.setups }).count 0x6700 2
    else s

/-- Values longer than this are notified without their bytes. -/
def notifyMax : Nat := 1016

/-- A NOTIFY frame: the time of the change, then the value. -/
def Session.notifyFrame (x : Session) (u : Subscription) (time : Nat) (value : List Byte) : List Byte :=
  let body := beBytes 8 time ++ if notifyMax < value.length then [] else value
  vopSeal (some x.key) (vopHead 1 opNotify 0 0 x.id x.ownSeq u.index u.sub 0 body.length ++ body)

/-- Send a frame of the node's own on a route. -/
def State.sendVop (s : State) (r : Route) (mac : BitVec 48) (bs : List Byte) : State :=
  match r with
  | .pyvas n => s.sendMgt n 6 bs
  | .mgmtPort => s.emit (.vop .mgmtPort (s.mgmtFrame mac bs))
  | r => s.emit (.vop r bs)

/-- The node can send a frame of its own on a route: a mailbox takes none (DEDUCED, log 62). -/
def State.canSend (s : State) : Route → Bool
  | .mgmtPort => s.clk.fabref
  | .pyvas n => (s.pathTo n).isSome
  | _ => false

/-- A subscription looks at its object: a value that differs from the last one has changed at this reading of the counter (R395). -/
def State.look (s : State) (x : Session) (u : Subscription) : Subscription :=
  match objAt s.variant u.index u.sub with
  | some o =>
    let v := s.valueFor x u.index u.sub o
    if v = u.last then u else { u with last := v, changed := s.now }
  | none => u

/-- Every subscription looks at its object; one whose object has stopped existing for its role ends (R395). -/
def State.watchSubs (s : State) : State :=
  if s.mgmt.sessions.all (·.subs.isEmpty) then s
  else
    let watch := fun x : Session => { x with subs := (x.subs.filter fun u => s.mayRead x.role u.index).map (s.look x) }
    { s with mgmt := { s.mgmt with sessions := s.mgmt.sessions.map watch } }

/-- NOTIFY of one subscription, with the local time of the change. -/
def State.notifySub (s : State) (x : Session) (u : Subscription) (o : Obj) : State :=
  let v := s.valueFor x u.index u.sub o
  if v = u.seen ∨ u.lastSent.any (fun t => decide (s.now < t + u.interval)) then s
  else
    let time := (s.look x u).changed
    let mine := fun w : Subscription => w.index == u.index && w.sub == u.sub
    let sent := fun w : Subscription => { w with seen := v, lastSent := some s.now, last := v, changed := time }
    let s := s.modSession x.id fun y => { y with ownSeq := y.ownSeq + 1, subs := modWhere mine sent y.subs }
    if s.canSend x.route then (s.sendVop x.route x.mac (x.notifyFrame u time v)).count 0x6700 6 else s.count 0x6700 7

/-- A subscription ends when its object stops existing for the role. -/
def execNotify (sid sub : Nat) (s : State) : Host.Outcome State Fault Refusal :=
  .next <|
    if !s.node.powered then s
    else match s.mgmt.sessions.find? (·.id == sid) with
      | none => s
      | some x =>
        match x.subs[sub]? with
        | none => s
        | some u =>
          match objAt s.variant u.index u.sub with
          | some o => if s.mayRead x.role u.index then s.notifySub x u o
              else s.modSession sid fun y => { y with subs := dropWhere (fun w => w.index == u.index && w.sub == u.sub) y.subs }
          | none => s

end Sys2Proof.Machine
end

