-- ==== Sys2Proof/Machine/Registers.lean ====
section
/-! DEFINITION. Sys2Proof/Machine/Registers.lean: what a host reads of an LD's configuration space (R334, R336) and of its BAR0 and BAR2
(R344, R345), and what the FM API of the FM-owned LD reports (R334). Bit positions that the spec does not give are those of CXL 3.1 and PCIe
(PRESUMED, log 12). -/

namespace Sys2Proof.Machine

open Sys2Proof

/-! ### Configuration space (R334, R336) -/

/-- Vendor ID and Device ID at offset 0, and the class code at offset 9: Type 3 memory device. -/
def State.configIds (s : State) : List Byte := leBytes 2 0x1FC5 ++ leBytes 2 s.variant.deviceId
def pciClass : List Byte := leBytes 3 0x050210

/-- A DVSEC: the capability header, Vendor ID, revision and length, DVSEC ID, and its registers from offset 0x0A on. -/
def dvsec (vendor rev id : Nat) (body : List Byte) : List Byte :=
  leBytes 2 0x0023 ++ leBytes 2 (1 + 16 * (Config.capNext id).toNat) ++ leBytes 2 vendor ++ leBytes 2 (rev + 16 * (10 + body.length)) ++ leBytes 2 id ++ body

def cxlVendor : Nat := 0x1E98
def nodeVendor : Nat := 0x1FC5

/-- Bytes `[a, b)` of a capability that the spec does not give. -/
def freeBytes (id a b : Nat) : List Byte := (List.range (b - a)).map fun i => Config.capByte id (a + i)

/-- The CXL Device DVSEC: no CXL.cache, CXL.io, CXL.mem, CXL Reset, multiple logical devices. -/
def deviceDvsec : List Byte := dvsec cxlVendor 3 0 (leBytes 2 (2 + 4 + 0x80 + 0x2000) ++ freeBytes 0 12 0x3C)

/-- The Flex Bus Port DVSEC: no CXL.cache, CXL.io, CXL.mem, no 68-byte flits, multiple logical devices, no port-based routing. -/
def flexBusDvsec : List Byte := dvsec cxlVendor 2 7 (leBytes 2 (2 + 4 + 0x40) ++ freeBytes 7 12 0x20)

/-- Where the component registers and the device registers stand in BAR0 (R344). -/
def componentAt : Nat := 0
def deviceAt : Nat := 0x10000

/-- An entry of the Register Locator: BAR, kind of block, offset. -/
def locator (bar kind off : Nat) : List Byte := leBytes 8 (bar + 256 * kind + off)
def locatorDvsec : List Byte := dvsec cxlVendor 0 8 (leBytes 2 0 ++ locator 0 1 componentAt ++ locator 0 3 deviceAt)

/-- The MLD DVSEC: up to 16 logical devices. -/
def mldDvsec : List Byte := dvsec cxlVendor 0 9 (leBytes 2 16 ++ leBytes 2 0 ++ leBytes 2 0)

/-- The DVSECs of an LD's view of configuration space; the node's own is that of R336. -/
def State.dvsecs (s : State) (ld : Nat) : List (List Byte) :=
  [deviceDvsec, flexBusDvsec, locatorDvsec, mldDvsec, dvsec nodeVendor 0 1 (leBytes 2 0 ++ s.nodeDvsec ld)]

/-! ### BAR0 (R344) -/

/-- The registers of an HDM decoder: base, size, interleave ways 1 with the target type host-only, Commit, Committed and Error Not Committed, and
the DPA skip. -/
def Decoder.bytes (d : Decoder) : List Byte :=
  leBytes 8 d.base ++ leBytes 8 d.size ++
  leBytes 4 (512 * b2n (d.committed || d.error) + 1024 * b2n d.committed + 2048 * b2n d.error + 4096) ++ leBytes 8 d.skip ++ leBytes 4 0

/-- A header of the component capability array: ID, version and place. -/
def capHeader (id version place : Nat) : List Byte := leBytes 4 (id + 65536 * version + 2 ^ 20 * place)

def rasPlace : Nat := 0x40
def linkPlace : Nat := 0xA0
def hdmPlace : Nat := 0x100

/-- The component registers: the capability array, the RAS capability with nothing recorded, the link capability, and the 4 HDM decoders. -/
def Ld.componentRegs (l : Ld) : List (Nat × List Byte) :=
  [(0x1000, leBytes 4 (1 + 65536 + 2 ^ 20 + 3 * 2 ^ 24) ++ capHeader 2 3 rasPlace ++ capHeader 4 2 linkPlace ++ capHeader 5 3 hdmPlace),
   (0x1000 + rasPlace, leBytes 4 0 ++ freeBytes 0x102 4 12 ++ leBytes 4 0 ++ freeBytes 0x102 16 0x58),
   (0x1000 + linkPlace, freeBytes 0x104 0 0x38),
   (0x1000 + hdmPlace, leBytes 4 2 ++ leBytes 4 (2 * b2n (l.decoders.any (·.committed))) ++ leBytes 8 0 ++ l.decoders.flatMap Decoder.bytes)]

/-- A header of the device capability array: ID, version, offset and length. -/
def deviceCap (id off len : Nat) : List Byte := leBytes 2 id ++ leBytes 2 1 ++ leBytes 4 off ++ leBytes 4 len ++ leBytes 4 0

/-- Event Status of an LD: a bit for each log that holds a record. -/
def Ld.eventStatus (l : Ld) : Nat := ((List.range 5).map fun k => 2 ^ k * b2n (l.log.any (·.log == k))).sum

/-- The device capabilities array with Device Status, the primary mailbox and Memory Device Status; Device Status stands behind the array
(DESIGN CHOICE, log 12). -/
def Ld.deviceRegs (l : Ld) : List Byte :=
  leBytes 8 (2 ^ 16 + 2 ^ 24 + 3 * 2 ^ 32) ++ leBytes 8 0 ++ deviceCap 1 0x40 8 ++ deviceCap 2 0x1000 (32 + 4096) ++ deviceCap 0x4000 0x800 8 ++
  leBytes 8 l.eventStatus

/-- Memory Device Status: Media Status Ready or Not Ready, and the mailbox interface (R336). -/
def State.memoryStatus (s : State) : List Byte := leBytes 8 (4 * b2n s.mediaReady + 16)

/-- The primary mailbox's registers: capabilities (4 KiB of payload), control, command, status, and background command status. The doorbell reads 0:
a command is answered in its own row. -/
def Ld.mboxRegs (l : Ld) : List Byte :=
  let busy := l.background.any fun b => !b.reported
  leBytes 4 (12 + 64) ++ leBytes 4 0 ++ leBytes 8 (l.mbox.op + 65536 * l.mbox.output.length) ++ leBytes 8 (b2n busy + 2 ^ 32 * l.mbox.rc) ++
  leBytes 8 ((l.background.map fun b => b.op + 65536 * (if b.reported then 100 else 0)).getD 0)

/-- BAR0 of an LD as its pieces and their offsets. -/
def State.bar0 (s : State) (ld : Nat) : List (Nat × List Byte) :=
  let l := s.ld ld
  (l.componentRegs.map fun p => (componentAt + p.1, p.2)) ++
  [(deviceAt, l.deviceRegs), (0x10800, s.memoryStatus), (0x11000, l.mboxRegs), (0x11020, l.mbox.output.take 4096), (0x20000, s.bar0Ltime),
   (0x40000, (List.range 2048).flatMap l.msixEntry), (0x48000, leBytes 256 l.pba.toNat)]

/-- A byte of pieces; 0 elsewhere. -/
def pieceByte (ps : List (Nat × List Byte)) (off : Nat) : Byte :=
  ((ps.find? fun p => decide (p.1 ≤ off) && decide (off < p.1 + p.2.length)).map fun p => p.2.getD (off - p.1) 0).getD 0

def State.bar0Byte (s : State) (ld off : Nat) : Byte := pieceByte (s.bar0 ld) off

/-! ### BAR2 (R345) -/

/-- What a host reads at an aligned offset of an LD's BAR2: the doorbell pages, and the event pages of chapter 13. -/
def State.bar2 (s : State) (ld off : Nat) : Nat := if off / 0x4000000 < 2 then s.bar2Word ld off else s.eventWord ld off

/-! ### The FM API of the FM-owned LD (R334) -/

/-- Get LD Info: memory size and count of LDs. The size is the sum of their static capacities (DESIGN CHOICE, log 46). -/
def State.fmLdInfo (s : State) : List Byte :=
  leBytes 8 ((List.range s.ldCount).map s.volatileBytes).sum ++ leBytes 2 s.ldCount ++ leBytes 1 0

/-- Get LD Allocations: for LDs `start` to `start + limit - 1`, their static capacity in units of 256 MiB. APERTURES set it, and so does
Set LD Allocations, which has no row of its own (DESIGN CHOICE, log 46). -/
def State.fmLdAllocations (s : State) (start limit : Nat) : List Byte :=
  let lds := ((List.range s.ldCount).drop start).take limit
  leBytes 1 s.ldCount ++ leBytes 1 0 ++ leBytes 1 start ++ leBytes 1 lds.length ++
  lds.flatMap fun ld => leBytes 8 (s.volatileBytes ld / mib256) ++ leBytes 8 0

end Sys2Proof.Machine
end

