-- ==== Sys2Proof/Machine/Dispatch.lean ====
section
/-! DEFINITION. Sys2Proof/Machine/Dispatch.lean: the meaning of each command, one arm per row of the table. -/

namespace Sys2Proof.Machine

open Sys2Proof

def exec (i : Instr) (s : State) : Host.Outcome State Fault Refusal :=
  match i with
  | .geomDefine r => Sys2Proof.Machine.execGeomDefine r s
  | .geomRelease r => Sys2Proof.Machine.execGeomRelease r s
  | .seqCreate r => Sys2Proof.Machine.execSeqCreate r s
  | .append r dma => Sys2Proof.Machine.execAppend r dma s
  | .fork r => Sys2Proof.Machine.execFork r s
  | .seqPin r => Sys2Proof.Machine.execSeqPin r s
  | .seqPreempt r => Sys2Proof.Machine.execSeqPreempt r s
  | .seqRestore r => Sys2Proof.Machine.execSeqRestore r s
  | .restoreFailed seq st => Sys2Proof.Machine.execRestoreFailed seq st s
  | .seqDestroy r => Sys2Proof.Machine.execSeqDestroy r s
  | .seqTruncate r => Sys2Proof.Machine.execSeqTruncate r s
  | .seqQuery r => Sys2Proof.Machine.execSeqQuery r s
  | .seqFence r => Sys2Proof.Machine.execSeqFence r s
  | .seqFenceTimeout r => Sys2Proof.Machine.execSeqFenceTimeout r s
  | .pageShare r => Sys2Proof.Machine.execPageShare r s
  | .map r => Sys2Proof.Machine.execMap r s
  | .unmap r => Sys2Proof.Machine.execUnmap r s
  | .remap r => Sys2Proof.Machine.execRemap r s
  | .quarantineEnd item => Sys2Proof.Machine.execQuarantineEnd item s
  | .attend r => Sys2Proof.Machine.execAttend r s
  | .nearBankStepEnd unit => Sys2Proof.Machine.execNearBankStepEnd unit s
  | .refreshDue unit => Sys2Proof.Machine.execRefreshDue unit s
  | .broadcastCommandComplete r => Sys2Proof.Machine.execBroadcastCommandComplete r s
  | .crucibleMergeDone r => Sys2Proof.Machine.execCrucibleMergeDone r s
  | .mergeOpen r => Sys2Proof.Machine.execMergeOpen r s
  | .mergeSubmit r dma => Sys2Proof.Machine.execMergeSubmit r dma s
  | .mergeClose r => Sys2Proof.Machine.execMergeClose r s
  | .mergeAbort r => Sys2Proof.Machine.execMergeAbort r s
  | .mergeTimeout slot => Sys2Proof.Machine.execMergeTimeout slot s
  | .tsRebuild r => Sys2Proof.Machine.execTsRebuild r s
  | .tsRead r => Sys2Proof.Machine.execTsRead r s
  | .touchstoneErrorRebuild frame inWord => Sys2Proof.Machine.execTouchstoneErrorRebuild frame inWord s
  | .gatherReduce r => Sys2Proof.Machine.execGatherReduce r s
  | .ewise r => Sys2Proof.Machine.execEwise r s
  | .norm r => Sys2Proof.Machine.execNorm r s
  | .optStep r => Sys2Proof.Machine.execOptStep r s
  | .cast r => Sys2Proof.Machine.execCast r s
  | .tierMoveUp r => Sys2Proof.Machine.execTierMoveUp r s
  | .tierMoveDown r => Sys2Proof.Machine.execTierMoveDown r s
  | .tierMoveHold r => Sys2Proof.Machine.execTierMoveHold r s
  | .heatPeriodExpiry => Sys2Proof.Machine.execHeatPeriodExpiry s
  | .demotionStart => Sys2Proof.Machine.execDemotionStart s
  | .promotionStart frame => Sys2Proof.Machine.execPromotionStart frame s
  | .migrationSwitch frame => Sys2Proof.Machine.execMigrationSwitch frame s
  | .lowerUnitRmw frame off bytes => Sys2Proof.Machine.execLowerUnitRmw frame off bytes s
  | .imageCompaction frame => Sys2Proof.Machine.execImageCompaction frame s
  | .lowerSectorWaitEnd x => Sys2Proof.Machine.execLowerSectorWaitEnd x s
  | .ltReadLimitExpiry x => Sys2Proof.Machine.execLtReadLimitExpiry x s
  | .privilegedReadRetry id ok time => Sys2Proof.Machine.execPrivilegedReadRetry id ok time s
  | .swapOutFrameDone frame => Sys2Proof.Machine.execSwapOutFrameDone frame s
  | .swapOutFailure frame => Sys2Proof.Machine.execSwapOutFailure frame s
  | .restoreFrameReadDone frame hdr decodes => Sys2Proof.Machine.execRestoreFrameReadDone frame hdr decodes s
  | .restoreDmaTimeout frame => Sys2Proof.Machine.execRestoreDmaTimeout frame s
  | .psInsert r => Sys2Proof.Machine.execPsInsert r s
  | .psRemove r => Sys2Proof.Machine.execPsRemove r s
  | .psSearch r => Sys2Proof.Machine.execPsSearch r s
  | .psPurge r => Sys2Proof.Machine.execPsPurge r s
  | .reqDataRx p => Sys2Proof.Machine.execReqDataRx p s
  | .reqMergeRx p => Sys2Proof.Machine.execReqMergeRx p s
  | .rspDataRx p => Sys2Proof.Machine.execRspDataRx p s
  | .rspEndRx p => Sys2Proof.Machine.execRspEndRx p s
  | .missReplyRx p => Sys2Proof.Machine.execMissReplyRx p s
  | .sackRx p => Sys2Proof.Machine.execSackRx p s
  | .creditAskRx p => Sys2Proof.Machine.execCreditAskRx p s
  | .fenceAckRx p => Sys2Proof.Machine.execFenceAckRx p s
  | .compAckRx p => Sys2Proof.Machine.execCompAckRx p s
  | .keepaliveRx p => Sys2Proof.Machine.execKeepaliveRx p s
  | .connSetupRx p => Sys2Proof.Machine.execConnSetupRx p s
  | .connAcceptRx p => Sys2Proof.Machine.execConnAcceptRx p s
  | .connCloseRx p => Sys2Proof.Machine.execConnCloseRx p s
  | .connResetRx p => Sys2Proof.Machine.execConnResetRx p s
  | .pauseFrameRx port => Sys2Proof.Machine.execPauseFrameRx port s
  | .retransmitTimerExpiry conn space psn => Sys2Proof.Machine.execRetransmitTimerExpiry conn space psn s
  | .responseTimerExpiry r => Sys2Proof.Machine.execResponseTimerExpiry r s
  | .sackDelayExpiry conn space => Sys2Proof.Machine.execSackDelayExpiry conn space s
  | .rateUpdate conn peer port mac ip => Sys2Proof.Machine.execRateUpdate conn peer port mac ip s
  | .pathReadmit conn path => Sys2Proof.Machine.execPathReadmit conn path s
  | .creditAskRepeat conn => Sys2Proof.Machine.execCreditAskRepeat conn s
  | .backoffExpiry r => Sys2Proof.Machine.execBackoffExpiry r s
  | .keepalivePeriod port node => Sys2Proof.Machine.execKeepalivePeriod port node s
  | .peerBankedTimeout node => Sys2Proof.Machine.execPeerBankedTimeout node s
  | .connSetupResend conn => Sys2Proof.Machine.execConnSetupResend conn s
  | .connCloseResend conn => Sys2Proof.Machine.execConnCloseResend conn s
  | .connResetQuietEnd conn => Sys2Proof.Machine.execConnResetQuietEnd conn s
  | .connNumberRelease conn => Sys2Proof.Machine.execConnNumberRelease conn s
  | .portTrainingDone port partnerBanked => Sys2Proof.Machine.execPortTrainingDone port partnerBanked s
  | .portLinkDown port lost => Sys2Proof.Machine.execPortLinkDown port lost s
  | .piDoorbellWrite ld q v => Sys2Proof.Machine.execPiDoorbellWrite ld q v s
  | .cqCiDoorbellWrite ld q v => Sys2Proof.Machine.execCqCiDoorbellWrite ld q v s
  | .workEntryStart q e => Sys2Proof.Machine.execWorkEntryStart q e s
  | .requestEnd r => Sys2Proof.Machine.execRequestEnd r s
  | .remoteRequest r dma => Sys2Proof.Machine.execRemoteRequest r dma s
  | .write r dma => Sys2Proof.Machine.execWrite r dma s
  | .read r dma => Sys2Proof.Machine.execRead r dma s
  | .writeImm r dma => Sys2Proof.Machine.execWriteImm r dma s
  | .fadd r => Sys2Proof.Machine.execFadd r s
  | .swap r => Sys2Proof.Machine.execSwap r s
  | .cas r => Sys2Proof.Machine.execCas r s
  | .cas128 r dma => Sys2Proof.Machine.execCas128 r dma s
  | .ledgerQuery r => Sys2Proof.Machine.execLedgerQuery r s
  | .fence r => Sys2Proof.Machine.execFence r s
  | .waitCount r => Sys2Proof.Machine.execWaitCount r s
  | .waitCountTimeout r => Sys2Proof.Machine.execWaitCountTimeout r s
  | .connect r => Sys2Proof.Machine.execConnect r s
  | .disconnect r => Sys2Proof.Machine.execDisconnect r s
  | .reg r => Sys2Proof.Machine.execReg r s
  | .revoke r => Sys2Proof.Machine.execRevoke r s
  | .winBind r => Sys2Proof.Machine.execWinBind r s
  | .contextFetchDone conn => Sys2Proof.Machine.execContextFetchDone conn s
  | .contextWriteback die => Sys2Proof.Machine.execContextWriteback die s
  | .windowRead ld tenant addr => Sys2Proof.Machine.execWindowRead ld tenant addr s
  | .windowWrite ld tenant addr line => Sys2Proof.Machine.execWindowWrite ld tenant addr line s
  | .winLimitExpiry op => Sys2Proof.Machine.execWinLimitExpiry op s
  | .winsyncRead ld tenant => Sys2Proof.Machine.execWinsyncRead ld tenant s
  | .quench r => Sys2Proof.Machine.execQuench r s
  | .anneal r => Sys2Proof.Machine.execAnneal r s
  | .annealDeadlineExpiry slot => Sys2Proof.Machine.execAnnealDeadlineExpiry slot s
  | .zeroingDone tenant => Sys2Proof.Machine.execZeroingDone tenant s
  | .tenantAdminCommit f => Sys2Proof.Machine.execTenantAdminCommit f s
  | .compositionAdminCommit f => Sys2Proof.Machine.execCompositionAdminCommit f s
  | .compositionFreed slot => Sys2Proof.Machine.execCompositionFreed slot s
  | .mapCommit f => Sys2Proof.Machine.execMapCommit f s
  | .compMapReleased slot => Sys2Proof.Machine.execCompMapReleased slot s
  | .quenchNow f => Sys2Proof.Machine.execQuenchNow f s
  | .exportKeyWrite f => Sys2Proof.Machine.execExportKeyWrite f s
  | .tenantLimitsCommit f => Sys2Proof.Machine.execTenantLimitsCommit f s
  | .schedSample => Sys2Proof.Machine.execSchedSample s
  | .cxlMemRead ld hpa => Sys2Proof.Machine.execCxlMemRead ld hpa s
  | .cxlMemWrite ld hpa line poison => Sys2Proof.Machine.execCxlMemWrite ld hpa line poison s
  | .hdmDecoderCommit ld dec base size skip ways => Sys2Proof.Machine.execHdmDecoderCommit ld dec base size skip ways s
  | .apertureCommit f => Sys2Proof.Machine.execApertureCommit f s
  | .ldConfigCommit f => Sys2Proof.Machine.execLdConfigCommit f s
  | .identify ld => Sys2Proof.Machine.execIdentify ld s
  | .backgroundOperationStatus ld => Sys2Proof.Machine.execBackgroundOperationStatus ld s
  | .getSupportedLogs ld => Sys2Proof.Machine.execGetSupportedLogs ld s
  | .getLog ld off len => Sys2Proof.Machine.execGetLog ld off len s
  | .getEventRecords ld log => Sys2Proof.Machine.execGetEventRecords ld log s
  | .clearEventRecords ld log handles all => Sys2Proof.Machine.execClearEventRecords ld log handles all s
  | .getEventInterruptPolicy ld => Sys2Proof.Machine.execGetEventInterruptPolicy ld s
  | .setEventInterruptPolicy ld log entry => Sys2Proof.Machine.execSetEventInterruptPolicy ld log entry s
  | .getFwInfo ld => Sys2Proof.Machine.execGetFwInfo ld s
  | .transferFw ld off bytes last => Sys2Proof.Machine.execTransferFw ld off bytes last s
  | .activateFw ld online => Sys2Proof.Machine.execActivateFw ld online s
  | .getTimestamp ld => Sys2Proof.Machine.execGetTimestamp ld s
  | .setTimestamp ld v => Sys2Proof.Machine.execSetTimestamp ld v s
  | .identifyMemoryDevice ld => Sys2Proof.Machine.execIdentifyMemoryDevice ld s
  | .getHealthInfo ld => Sys2Proof.Machine.execGetHealthInfo ld s
  | .getDynamicCapacityConfiguration ld => Sys2Proof.Machine.execGetDynamicCapacityConfiguration ld s
  | .getDynamicCapacityExtentList ld => Sys2Proof.Machine.execGetDynamicCapacityExtentList ld s
  | .addDynamicCapacityResponse ld ranges => Sys2Proof.Machine.execAddDynamicCapacityResponse ld ranges s
  | .releaseDynamicCapacity ld ranges => Sys2Proof.Machine.execReleaseDynamicCapacity ld ranges s
  | .unsupportedMailboxCommand ld op => Sys2Proof.Machine.execUnsupportedMailboxCommand ld op s
  | .vopFrame ld f => Sys2Proof.Machine.execVopFrame ld f s
  | .queueCreate ld payload => Sys2Proof.Machine.execQueueCreate ld payload s
  | .queueDestroy ld payload => Sys2Proof.Machine.execQueueDestroy ld payload s
  | .areaGrant ld payload => Sys2Proof.Machine.execAreaGrant ld payload s
  | .areaReclaim ld payload => Sys2Proof.Machine.execAreaReclaim ld payload s
  | .reclaim ld payload => Sys2Proof.Machine.execReclaim ld payload s
  | .backgroundCommandDone ld => Sys2Proof.Machine.execBackgroundCommandDone ld s
  | .doeDiscovery ld index => Sys2Proof.Machine.execDoeDiscovery ld index s
  | .cdatTableAccess ld handle => Sys2Proof.Machine.execCdatTableAccess ld handle s
  | .assayRequest route m => Sys2Proof.Machine.execAssayRequest route m s
  | .quoteReady id => Sys2Proof.Machine.execQuoteReady id s
  | .functionLevelReset ld => Sys2Proof.Machine.execFunctionLevelReset ld s
  | .cxlReset ld => Sys2Proof.Machine.execCxlReset ld s
  | .perstNAssert => Sys2Proof.Machine.execPerstNAssert s
  | .perstNRelease => Sys2Proof.Machine.execPerstNRelease s
  | .pendSet ld word v => Sys2Proof.Machine.execPendSet ld word v s
  | .pendClr ld word v => Sys2Proof.Machine.execPendClr ld word v s
  | .maskSet ld word v => Sys2Proof.Machine.execMaskSet ld word v s
  | .maskClr ld word v => Sys2Proof.Machine.execMaskClr ld word v s
  | .fpendSet ld v => Sys2Proof.Machine.execFpendSet ld v s
  | .fpendClr ld v => Sys2Proof.Machine.execFpendClr ld v s
  | .fmaskSet ld v => Sys2Proof.Machine.execFmaskSet ld v s
  | .fmaskClr ld v => Sys2Proof.Machine.execFmaskClr ld v s
  | .curprioWrite ld target v => Sys2Proof.Machine.execCurprioWrite ld target v s
  | .routesCommit f => Sys2Proof.Machine.execRoutesCommit f s
  | .evinPinActive k active => Sys2Proof.Machine.execEvinPinActive k active s
  | .vopRead f => Sys2Proof.Machine.execVopRead f s
  | .vopWrite f => Sys2Proof.Machine.execVopWrite f s
  | .vopCommit f => Sys2Proof.Machine.execVopCommit f s
  | .blockRead f => Sys2Proof.Machine.execBlockRead f s
  | .blockWrite f => Sys2Proof.Machine.execBlockWrite f s
  | .subscribe f => Sys2Proof.Machine.execSubscribe f s
  | .notify sid sub => Sys2Proof.Machine.execNotify sid sub s
  | .hello f => Sys2Proof.Machine.execHello f s
  | .proof f => Sys2Proof.Machine.execProof f s
  | .close f => Sys2Proof.Machine.execClose f s
  | .sessionIdleExpiry sid => Sys2Proof.Machine.execSessionIdleExpiry sid s
  | .sessionSetupTimeout sid => Sys2Proof.Machine.execSessionSetupTimeout sid s
  | .unitAdminCommit f => Sys2Proof.Machine.execUnitAdminCommit f s
  | .unitDrainDone cls unit => Sys2Proof.Machine.execUnitDrainDone cls unit s
  | .drainLimitExpiry cls unit => Sys2Proof.Machine.execDrainLimitExpiry cls unit s
  | .selfTestDone cls unit pass => Sys2Proof.Machine.execSelfTestDone cls unit pass s
  | .calibrationCommit f => Sys2Proof.Machine.execCalibrationCommit f s
  | .recalibrate f => Sys2Proof.Machine.execRecalibrate f s
  | .recalibrateDone measured failed => Sys2Proof.Machine.execRecalibrateDone measured failed s
  | .rehearsalCommit f => Sys2Proof.Machine.execRehearsalCommit f s
  | .rehearsalRunStart slot => Sys2Proof.Machine.execRehearsalRunStart slot s
  | .rehearsalRunEnd slot => Sys2Proof.Machine.execRehearsalRunEnd slot s
  | .stageCommit f => Sys2Proof.Machine.execStageCommit f s
  | .activate f => Sys2Proof.Machine.execActivate f s
  | .activationDone failed => Sys2Proof.Machine.execActivationDone failed s
  | .rollbackCommit f => Sys2Proof.Machine.execRollbackCommit f s
  | .uncorrectableError w => Sys2Proof.Machine.execUncorrectableError w s
  | .correctableError w => Sys2Proof.Machine.execCorrectableError w s
  | .channelLost upper unit => Sys2Proof.Machine.execChannelLost upper unit s
  | .burnishRead upper unit found => Sys2Proof.Machine.execBurnishRead upper unit found s
  | .relocationDone frame => Sys2Proof.Machine.execRelocationDone frame s
  | .contextLostSram r => Sys2Proof.Machine.execContextLostSram r s
  | .pieceOverrun cls unit => Sys2Proof.Machine.execPieceOverrun cls unit s
  | .spareSwitch cls unit => Sys2Proof.Machine.execSpareSwitch cls unit s
  | .paceUpdate paces => Sys2Proof.Machine.execPaceUpdate paces s
  | .pwrgoodRise straps => Sys2Proof.Machine.execPwrgoodRise straps s
  | .pwrgoodFall => Sys2Proof.Machine.execPwrgoodFall s
  | .recoveryEntry => Sys2Proof.Machine.execRecoveryEntry s
  | .ready => Sys2Proof.Machine.execReady s
  | .forceHoldChange active => Sys2Proof.Machine.execForceHoldChange active s
  | .thermTripNChange active => Sys2Proof.Machine.execThermTripNChange active s
  | .thermalClearTimer => Sys2Proof.Machine.execThermalClearTimer s
  | .thermTripStuck => Sys2Proof.Machine.execThermTripStuck s
  | .dieTripLimit sensor temp => Sys2Proof.Machine.execDieTripLimit sensor temp s
  | .criticalTemperature sensor temp => Sys2Proof.Machine.execCriticalTemperature sensor temp s
  | .criticalHoldEnd => Sys2Proof.Machine.execCriticalHoldEnd s
  | .nodeRstNAssert => Sys2Proof.Machine.execNodeRstNAssert s
  | .nodeRstNRelease => Sys2Proof.Machine.execNodeRstNRelease s
  | .bankCmd f => Sys2Proof.Machine.execBankCmd f s
  | .warmReset f => Sys2Proof.Machine.execWarmReset f s
  | .bankedEntry => Sys2Proof.Machine.execBankedEntry s
  | .drainBoundExpiry => Sys2Proof.Machine.execDrainBoundExpiry s
  | .bankedExit => Sys2Proof.Machine.execBankedExit s
  | .fabrefLoss => Sys2Proof.Machine.execFabrefLoss s
  | .fabrefReturn => Sys2Proof.Machine.execFabrefReturn s
  | .peRefclkLoss => Sys2Proof.Machine.execPeRefclkLoss s
  | .governorTick temps power meas avsFailed => Sys2Proof.Machine.execGovernorTick temps power meas avsFailed s
  | .governorLimitsCommit f => Sys2Proof.Machine.execGovernorLimitsCommit f s
  | .registerWrite ld reg v => Sys2Proof.Machine.execRegisterWrite ld reg v s
  | .connResetResend conn => Sys2Proof.Machine.execConnResetResend conn s
  | .bucketRefill tenant res => Sys2Proof.Machine.execBucketRefill tenant res s
  | .attentionCorePieceEnd core => Sys2Proof.Machine.execAttentionCorePieceEnd core s
  | .cxlLinkTrainingDone => Sys2Proof.Machine.execCxlLinkTrainingDone s
  | .msixControlWrite ld w => Sys2Proof.Machine.execMsixControlWrite ld w s
  | .busMasterEnableWrite ld on => Sys2Proof.Machine.execBusMasterEnableWrite ld on s

end Sys2Proof.Machine
end

