-- ==== Sys2Proof/Machine/Time.lean ====
section
/-! DEFINITION. Sys2Proof/Machine/Time.lean: one period of the local counter (R26, DESIGN CHOICE, log 3), the residency that the meters
integrate over it (R324, R325), and what then begins on units and cores (DESIGN CHOICE, log 40). -/

namespace Sys2Proof.Machine

open Sys2Proof

/-- Bytes of a frame in the upper tier, as live image bytes in the lower tier, and in swap (R325). -/
def State.residency (s : State) (f : Frame) : Nat × Nat × Nat :=
  match f.place with
  | .upper _ _ => (f.size, 0, 0)
  | .lower _ => (0, 64 * s.frameTotal f.num, 0)
  | .swap _ c => (0, 0, 4096 * c)

/-- Sum of the residency of the frames that satisfy `p`. -/
def State.residencyOf (s : State) (p : Frame → Bool) : Nat × Nat × Nat :=
  (s.mem.frames.filter p).foldl (fun a f => let r := s.residency f; (a.1 + r.1, a.2.1 + r.2.1, a.2.2 + r.2.2)) (0, 0, 0)

/-- Meters after `dt` ns of a residency. -/
def Meters.integrate (m : Meters) (dt : Nat) (r : Nat × Nat × Nat) : Meters :=
  { m with upperRes := m.upperRes + dt * r.1, lowerRes := m.lowerRes + dt * r.2.1, swapRes := m.swapRes + dt * r.2.2,
           upTo := m.upTo + dt }

/-- The residue of a tenant after `dt` ns (R312, R324). -/
def residueAfter (old : List Nat) (dt : Nat) (r : Nat × Nat × Nat) : List Nat :=
  [old.getD 0 0 + dt * r.1, old.getD 1 0 + dt * r.2.1, old.getD 2 0 + dt * r.2.2]

/-- Integrate every composition's meters, and the tenants' residue, over `dt` ns. -/
def State.integrate (s : State) (dt : Nat) : State :=
  { s with
    comps := s.comps.map fun c => { c with meters := c.meters.integrate dt (s.residencyOf fun f => f.comp == c.slot) }
    tenants := s.tenants.map fun t =>
      { t with residue := residueAfter t.residue dt (s.residencyOf fun f => f.tenant == t.id && f.comp == noComp) } }

/-- One period of the reference, or of the internal oscillator while FABREF is lost (R463); none without power. Work that waits for a unit
or a core begins where it can, held packets leave and subscriptions look at their objects, which changes neither the clock nor the node's phase. -/
def State.tick (s : State) : State :=
  if !s.node.powered then s else
  let c := s.clk.tick
  let s' := (s.watchSubs.integrate (c.ltime - s.clk.ltime).toNat).pump
  { if s.coreRuns then s'.winPump.drainCtl.egress else s'.drainCtl with clk := c, node := s.node }

end Sys2Proof.Machine
end

