-- ==== Sys2Proof/Machine/Step.lean ====
section
/-! DEFINITION. Sys2Proof/Machine/Step.lean: one step takes the command at the front of the queue; with an empty queue one
period of the local counter passes (DESIGN CHOICE, log 3). -/

namespace Sys2Proof.Machine

open Sys2Proof

/-- One step (DESIGN CHOICE, log 74). -/
def step (s : State) : Host.Outcome State Fault Refusal :=
  match s.pending with
  | [] => .next s.tick
  | c :: rest => exec c { s with pending := rest }

/-- The opcode table gives its rows no bits (DESIGN CHOICE, log 18), so no word spells a command. -/
def State.withFetchWord (s : State) (nbits w : Nat) : State :=
  match decodeTableWord nbits w with
  | some c => { s with pending := c :: s.pending }
  | none => s

end Sys2Proof.Machine
end

