-- ==== Sys2Proof/Safety.lean ====
section
/-! DEFINITION. Sys2Proof/Safety.lean: what a sound state of the node is, in the terms that claims use. -/

namespace Sys2Proof.Machine

open Sys2Proof

/-- The stores that keep only what differs from a default hold their canonical form: frame contents, OCTETS bytes and
scalar object values. -/
def State.Canonical (s : State) : Prop :=
  Memory.wf s.mem.data = true ∧ assocWf octDefaultKey s.octs = true ∧ assocWf (scalarDefault s.variant) s.objs = true

/-- Request `r` is `q`, a request with opcode `op` that its own row may run now: started here, not for a peer, the core running, no
privileged read stalled on it, ORDER satisfied, and the lower-tier controllers done with its pieces or no frame there (R16, R187, R266, R314). -/
abbrev State.Runs (s : State) (r : Nat) (q : Req) (op : Nat) : Prop :=
  s.req r = some q ∧ q.phase = .started ∧ q.isLocal = true ∧ q.op = op ∧ s.coreRuns = true ∧ s.stalled r = false ∧ s.orderOk q = true ∧
  s.gateOpen q = true

/-- Request `r` is `q`, a request that edits table entries and may run now, no privileged read of a page that it edits stalled (R209). -/
abbrev State.Edits (s : State) (r : Nat) (q : Req) (op : Nat) : Prop :=
  s.Runs r q op ∧ ((s.editRanges q).any fun x => s.pageStalled q.tenant x.1 x.2) = false

/-- In `t`, request `r` is `q` ended with a status and a result. -/
abbrev State.Ended (t : State) (r : Nat) (q : Req) (st : Status) (res : Nat) : Prop :=
  t.req r = some { q with phase := .ended st res }

/-- In `t`, request `r` is `q`, accepted and waiting. -/
abbrev State.Waits (t : State) (r : Nat) (q : Req) (w : Wait) : Prop :=
  t.req r = some { q with phase := .waiting w, accepted := true }

/-- Request `q` names the live sequence `x` by its handle in bits 175:128 of its entry, and the descriptor of `x` is readable
(R68, R187). -/
abbrev State.NamesSeq (s : State) (q : Req) (x : Seq) : Prop :=
  s.findSeq q.tenant (opHandle q.entry) q.accepted = some x ∧ s.descLost x = false

/-- The request's turn on a sequence has come: no accepted writer or FORK of it is still live (R74, R79, R99). -/
abbrev State.HasTurn (s : State) (q : Req) (h : Nat) : Prop :=
  if q.accepted then s.anyLive q.after = false else s.earlier q (fun y => y.writesInto h || (y.op == opFORK && opHandle y.entry == h)) = []

/-- A FORK's turn on its parent has come: no SEQ_TRUNCATE accepted before it is still live (R99; log 71). -/
abbrev State.HasForkTurn (s : State) (q : Req) (h : Nat) : Prop :=
  if q.accepted then s.anyLive q.after = false else s.earlier q (fun y => y.op == opSEQ_TRUNCATE && opHandle y.entry == h) = []

/-- The child that a FORK request `q` of parent `p` describes (R75). -/
abbrev childOf (q : Req) (p : Seq) : Seq :=
  { idx := 0, gen := 0, tenant := q.tenant, comp := q.comp, geom := p.geom, base := opAddrHigh q.entry, cap := p.cap,
    fills := p.fills.map fun _ => fld q.entry 207 176, rclass := fld q.entry 210 208, parent := p.handle }

/-- What an APPEND request `q` writes into sequence `x` of geometry `g` (R73). -/
abbrev appendOf (q : Req) (x : Seq) (g : Geom) : Append :=
  ⟨x, g, layerRun (apLfirst q.entry) (apLcount q.entry) g.layers, x.fill (apLfirst q.entry), apTokens q.entry, apSrcK q.entry,
    apSrcV q.entry, q.job⟩

/-- The copies of the shared pages among the new frames `l` of an APPEND, issued on `u` (R73 step 2). -/
abbrev State.afterCopies (u : State) (q : Req) (x : Seq) (g : Geom) (l : List ((Nat × Nat) × Nat)) : State :=
  (l.filterMap fun y => (u.pageMap x y.1.1 y.1.2).map fun m => (y, m.frame)).foldl
    (fun s y => s.cowCopy q.job g y.2 y.1.2 (x.fill y.1.1.1 - 256 * y.1.1.2)) (u.modReq q.id fun q => { q with newFrames := l, accepted := true })

/-- An APPEND that has passed its checks in `s` has its frames `l` and may write in `v`: it has just taken them and no copy of a shared page is
under way, or it had taken them and its copies have completed (R73). -/
abbrev State.AppendReady (s : State) (q : Req) (x : Seq) (g : Geom) (v : State) (l : List ((Nat × Nat) × Nat)) : Prop :=
  (q.newFrames ≠ [] ∧ s.hasCmds q.id = false ∧ l = q.newFrames ∧ v = s) ∨
  (q.newFrames = [] ∧ ∃ s1 s2, s.takeTables q.tenant ((s.appendNeeds (appendOf q x g)).flatMap fun lp =>
      tablePagesFor (x.pageAddr g.frame lp.1 lp.2) g.frame (leafLow g.frame)) = some s1 ∧
    allocEach (fun lp s => s.allocPage q.tenant q.comp x.idx lp.1 lp.2 g.frame g.blockBytes) (s.appendNeeds (appendOf q x g)) s1 = .got l s2 ∧
    s.copiesBad (appendOf q x g) = none ∧ s.slotsBad (appendOf q x g) = none ∧ v = s2.afterCopies q x g l ∧ v.hasCmds q.id = false)

/-- The layers of a sequence whose fill lies above `k`. -/
abbrev State.layersAbove (_ : State) (x : Seq) (k : Nat) : List Nat := (List.range x.fills.length).filter fun l => decide (k < x.fill l)

/-- The mappings of sequence `x` in `u` that a SEQ_TRUNCATE to length `k` in `s` clears: the pages at and above `k` of the layers
filled above it (R79). -/
abbrev truncGone (s : State) (x : Seq) (u : State) (k : Nat) : List Mapping :=
  (u.seqMaps x).filter fun m =>
    (s.layersAbove x k).contains (x.pageOf (s.seqFrameBytes x) m.addr).1 &&
      decide (k ≤ 256 * (x.pageOf (s.seqFrameBytes x) m.addr).2)

/-- The work record of a loan operation as dispatch begins (R155). -/
abbrev loanStart (op : Nat) (d : List Byte) (p : LoanPlan) (s : State) : LoanWork :=
  { op := op, desc := d, rows := p.rows.zipIdx.map fun x => (x.2, x.1), outs := p.outs,
    jobs := [], rowsDone := 0,
    fwd := ((if op = nbGATHER then p.outs else p.rows).zipIdx.filter fun x => (s.unitFor x.1.frame).isNone).map (·.2) }

/-- Packet `p` of a class and type passes the port's checks in order (R239): the node is powered, no rehearsal swallows it, its
format is good, it comes to this node from a source that a map admits, and it finds room in its pool (R240). -/
abbrev State.Arrives (s : State) (p : Packet) (cls : PClass) (type : Nat) : Prop :=
  s.node.powered = true ∧ s.rehearses rehPeer p.src = false ∧ s.badFormat p = false ∧ p.cls = cls ∧ p.type = type ∧
  p.dst = s.nodeId ∧ s.sourceOk p = true ∧ (p.crowded = false ∨ p.carries = true)

/-- After `p` has been heard, the node takes packets of its class and its connection is `c`: open or draining, with its context cached (R239 steps 5 to 7). -/
abbrev State.OnConnOf (s : State) (p : Packet) (c : Conn) : Prop :=
  (s.heard p).takes p = true ∧ (s.heard p).conn p.conn = some c ∧ c.peer = p.src ∧ c.tenant = p.tenant ∧ (c.state = .opened ∨ c.state = .draining) ∧ c.cached = true

/-- The state in which a packet on its connection is handled: heard, its context hit counted, its use noted. -/
abbrev State.heardOn (s : State) (p : Packet) (c : Conn) : State :=
  ((s.heard p).count 0x6400 2).modConn c.num fun c => { c with lastUse := (s.heard p).now }

/-- A SACK `p` on connection `c` noted: the window moved, its packets acknowledged, the paths, the round trip and the credit updated
(R242, R245, R248, R249). -/
abbrev ackedBy (s : State) (p : Packet) (c : Conn) : State :=
  let m := sackOf p.payload
  let x := c.send m.space
  let acked := x.outs.filter fun o => o.sent && m.shows o.psn
  (s.heardOn p c).accepted.modConn c.num fun c' =>
    let c' := { c'.setSend m.space { x with cum := m.cum, outs := x.outs.filter fun o => !(o.sent && m.shows o.psn) } with
      paths := c.paths.zipIdx.map fun y =>
        let z := if acked.any (·.path == y.2) then { y.1 with expiries := 0 } else y.1
        if z.carried p then z.learn (s.heardOn p c).accepted.now
            (((s.heardOn p c).accepted.now % seqMod + 2 * seqMod - m.echo - m.dwell) % seqMod) m.space m.rxCe m.rxPkts
          else z }
    let c' := if acked.isEmpty then c'
      else c'.sample (s.heardOn p c).accepted.rtoMin
        (((s.heardOn p c).accepted.now % seqMod + 2 * seqMod - m.echo - m.dwell) % seqMod)
    if m.space = 0 ∧ psnBelow c'.limit m.limit then { c' with limit := m.limit } else c'

/-- Request `q` came from a peer, and its remote operation may run here now, its turn come (R274, R287, R292) and the banks it names
between their units' steps (R174); `u` is the state in which it touches them. -/
abbrev State.AtTarget (s u : State) (r : Nat) (q : Req) (op n psn : Nat) : Prop :=
  s.req r = some q ∧ q.op = op ∧ q.phase = .started ∧ q.remote = none ∧ s.coreRuns = true ∧ s.stalled r = false ∧
  q.origin = .remote n psn ∧ s.turnOf q = true ∧ s.gateOpen q = true ∧ s.blockedBy q = none ∧ u = s.unlined q

/-- The state after an atomic operation: its word answered, its ledger entry written (R296-R298). -/
abbrev atomicDone (s : State) (q : Req) (width old result : Nat) (data : List Byte) : State :=
  let n := (s.rcqOf q).1
  let psn := match s.conn n with
    | some c => (c.srsp.next + if data.isEmpty then 0 else 1) % seqMod
    | none => 0
  let s := s.modConn n fun c => { c with
    ledger := c.ledger.map fun l => l.add { reqId := q.wireId, psn := psn, status := .ok, width := width, old := old } }
  ((s.answer n q.wireId q.epoch data (endEntry q.op (hdrUser q.entry) (hdrReqId q.entry) .ok result) q.age).modReq q.id fun q =>
    { q with answered := true }).endReq q.id .ok result

/-- A VOP frame `f` on the management port, under its open session `x`, with a good tag and a new SEQ (R383-R388). -/
abbrev State.InSession (s : State) (f : VopFrame) (x : Session) : Prop :=
  s.node.powered = true ∧ f.route = .mgmtPort ∧ s.routeOn .mgmtPort = true ∧ f.ver = 1 ∧ f.op ∈ vopOps ∧ f.len ≤ vopMax ∧
  bit f.flags 7 = false ∧ f.session ≠ 0 ∧ s.mgmt.sessions.find? (·.id == f.session) = some x ∧ x.route = .mgmtPort ∧
  vopTag x.key true (vopCovered f) = f.tag ∧ x.lastSeq < f.seq

/-- The state in which a frame under session `x` is carried out: its time and its source address noted (R382, R388). -/
abbrev State.heardIn (s : State) (x : Session) (f : VopFrame) : State := s.modSession x.id fun y => { y with lastAt := s.clk.ltime, mac := f.mac }

/-- The state once an answer to a frame that met state `s0` has been stored under its SEQ and sent (R382, R387). -/
abbrev answered (s0 : State) (x : Session) (f : VopFrame) (a : Answer) : State :=
  let reply := vopReply f (some x.key) a.st (a.index.getD f.index) a.value a.last
  let s := (a.state.modSession x.id fun y => { y with lastSeq := f.seq, reply := reply }).afterReply f a.st
  if s.clk.fabref then s.emit (.vop .mgmtPort (s0.mgmtFrame f.mac reply)) else s

/-- Frame `f` is a COMMIT with value 0 by role 0 of one index whose staged values are the session's own: `c` are the values, and `u`
is the state once they are no longer staged (R389, R393). -/
abbrev State.Commits (s : State) (f : VopFrame) (x : Session) (c : Changes) (u : State) : Prop :=
  f.op = opCommit ∧ x.role = 0 ∧ f.payload = [0] ∧ f.index ≠ 0xFFFF ∧ indexObjs s.variant f.index ≠ [] ∧
  (s.heardIn x f).heldByOther x.id f.index = false ∧ c = (s.heardIn x f).mgmt.changes x.id f.index ∧ c ≠ [] ∧
  u = (s.heardIn x f).modMgmt fun m => m.unstage x.id f.index

/-- Frame `f` is a WRITE by role 0 of object `o` that is there, in a form and with a value that its type allows (R378, R392). -/
abbrev State.Writes (s : State) (f : VopFrame) (x : Session) (o : Obj) : Prop :=
  f.op = opWrite ∧ x.role = 0 ∧ objAt s.variant f.index f.sub = some o ∧ o.acc ≠ .const ∧ o.acc ≠ .ro ∧
  o.ty.lengthOk f.payload.length = true ∧ o.ty.bytes ≤ vopMax ∧ objAbsent s.variant f.index f.sub = false ∧
  o.ty.valueOk (o.ty.fromWire f.payload) = true

end Sys2Proof.Machine
end

