-- ==== Sys2Proof/Certificates/Slice0/Obligations.lean ====
section
/-! DEFINITION. Sys2Proof/Certificates/Slice0/Obligations.lean: the statements for the provers. Statements named ...Complete say
where each command answers a next state and which; the others state rules, frames and whole-machine invariants. -/

open Sys2Proof Sys2Proof.Machine

/-! ### Sequences and mappings (chapter 3) -/

/-- R59, R67: GEOM_DEFINE, GEOM_RELEASE and SEQ_CREATE complete; nothing else of the state changes but what is named. -/
def Obligations.GeometryAndCreateComplete : Prop :=
  (∀ s r q vs s', s.Runs r q opGEOM_DEFINE → q.loan = false → firstFail (geomOf q.tenant q.entry).checks = none →
    s.geom q.tenant (geomOf q.tenant q.entry).id = none →
    s.readScales q.payer (geomOf q.tenant q.entry) (opAddrHigh q.entry) = some (vs, s') →
    ∃ t, exec (.geomDefine r) s = .next t ∧
      t = ({ s' with geoms := s'.geoms ++ [{ geomOf q.tenant q.entry with scales := vs }] }).okReq q
        (geomOf q.tenant q.entry).frame) ∧
  (∀ s r q, s.Runs r q opGEOM_RELEASE → fld q.entry 143 128 < 1024 → (s.geom q.tenant (fld q.entry 143 128)).isSome →
    (∀ x ∈ s.seqs, ¬ (x.tenant = q.tenant ∧ x.geom = fld q.entry 143 128)) →
    ∃ t, exec (.geomRelease r) s = .next t ∧ t.Ended r q .ok 0 ∧ t.geom q.tenant (fld q.entry 143 128) = none ∧
      (∀ t' i, (t', i) ≠ (q.tenant, fld q.entry 143 128) → t.geom t' i = s.geom t' i) ∧
      t = { s with geoms := t.geoms, reqs := t.reqs }) ∧
  (∀ s r q g s' h s'', s.Edits r q opSEQ_CREATE → q.loan = false → s.geom q.tenant (fld q.entry 143 128) = some g →
    0 < fld q.entry 223 192 → fld q.entry 223 192 ≤ maxSeqTokens →
    s.rangeBad q.tenant (opAddrHigh q.entry) (rangeBytes g.layers (ceilDiv (fld q.entry 223 192) 256) g.frame) = false →
    s.tablesLost q.tenant (opAddrHigh q.entry) (rangeBytes g.layers (ceilDiv (fld q.entry 223 192) 256) g.frame) = false →
    s.takeTables q.tenant
      (rangeTables (opAddrHigh q.entry) (rangeBytes g.layers (ceilDiv (fld q.entry 223 192) 256) g.frame)) = some s' →
    s'.enterSeq (newSeq q g) = some (h, s'') →
    ∃ t, exec (.seqCreate r) s = .next t ∧ t = s''.okReq q h)

/-- R69, R80, R96, R294: SEQ_PIN, SEQ_QUERY and SEQ_FENCE end OK with the result their table gives, and a SEQ_FENCE that still waits ends
with TIMEOUT. -/
def Obligations.PinQueryFenceComplete : Prop :=
  (∀ s r q x, s.Runs r q opSEQ_PIN → s.NamesSeq q x → x.state = .active → flag q.entry 176 = true → x.pinned = false →
    s.pinnedBytes q.tenant x ≤ s.tenantObj q.tenant 8 →
    ∃ t, exec (.seqPin r) s = .next t ∧ t.Ended r q .ok 0 ∧ t.seqAt x.idx = some { x with pinned := true } ∧
      t = { s with seqs := t.seqs, reqs := t.reqs }) ∧
  (∀ s r q x, s.Runs r q opSEQ_PIN → s.NamesSeq q x → flag q.entry 176 = false →
    ∃ t, exec (.seqPin r) s = .next t ∧ t.Ended r q .ok (b2n x.pinned) ∧ t.seqAt x.idx = some { x with pinned := false } ∧
      t = { s with seqs := t.seqs, reqs := t.reqs }) ∧
  (∀ s r q x s', s.Runs r q opSEQ_QUERY → s.NamesSeq q x →
    s.writeTenant q.payer (opAddrHigh q.entry) (leBytes 64 (s.seqRecord x)) = .done s' →
    ∃ t, exec (.seqQuery r) s = .next t ∧ t = s'.okReq q 0) ∧
  (∀ s r q, s.Runs r q opSEQ_FENCE → q.accepted = false → (∀ w ∈ s.mem.walks, w.tenant = q.tenant → s.mem.walkEpoch ≤ w.w) →
    ∃ t, exec (.seqFence r) s = .next t ∧ t.Ended r q .ok s.mem.walkEpoch ∧ t = { s with reqs := t.reqs }) ∧
  (∀ s r q f, s.req r = some q → q.phase = .waiting (.fence f) → s.coreRuns = true →
    ∃ t, exec (.seqFenceTimeout r) s = .next t ∧ t.Ended r q .timeout q.count ∧ t = { s with reqs := t.reqs })

/-- R73, R75, R76, R79: FORK, APPEND, PAGE_SHARE and SEQ_TRUNCATE on ACTIVE sequences. An APPEND into shared pages issues their copies first, and
writes once the COPY commands have completed. -/
def Obligations.SequenceDataComplete : Prop :=
  (∀ s r q p n u s' h s'', s.Edits r q opFORK → s.NamesSeq q p → p.state = .active → n = (if q.accepted then min q.count p.length else p.length) →
    u = (s.modReq r fun q => { q with count := if q.accepted then q.count else n }) → u.HasForkTurn q p.handle →
    s.pagesFail p (firstPages p.fills.length (ceilDiv (fld q.entry 207 176) 256)) = none → fld q.entry 207 176 ≤ n → s.swappedNeeded p (firstPages p.fills.length (ceilDiv (fld q.entry 207 176) 256)) = false →
    s.rangeBad q.tenant (opAddrHigh q.entry) (s.seqRange p) = false →
    s.shareFull p [] (firstPages p.fills.length (ceilDiv (fld q.entry 207 176) 256)) = false →
    s.tablesLost q.tenant (opAddrHigh q.entry) (s.seqRange p) = false →
    u.takeTables q.tenant (rangeTables (opAddrHigh q.entry) (s.seqRange p) ++
      (firstPages p.fills.length (ceilDiv (fld q.entry 207 176) 256)).flatMap fun lp =>
        tablePagesFor ((childOf q p).pageAddr (s.seqFrameBytes p) lp.1 lp.2) (s.seqFrameBytes p)
          (leafLow (s.seqFrameBytes p))) = some s' →
    s'.enterSeq (childOf q p) = some (h, s'') →
    ∃ t, exec (.fork r) s = .next t ∧
      t = (s''.sharePages p (childOf q p) (s.seqFrameBytes p)
        ((firstPages p.fills.length (ceilDiv (fld q.entry 207 176) 256)).map fun lp => (lp, lp))).okReq q h) ∧
  (∀ s r q x g bs dma s0 v l s3, s.Edits r q opAPPEND → s.NamesSeq q x → s.geom x.tenant x.geom = some g →
    firstFail (appendChecks q.entry g) = none → s.HasTurn q x.handle → x.state = .active →
    firstFail (fillChecks q.entry x (layerRun (apLfirst q.entry) (apLcount q.entry) g.layers)) = none →
    s.source q (apSrcKey q.entry) (apSrcOffset q.entry)
      ((appendOf q x g).layerBytes * (appendOf q x g).layers.length) dma = .ok (some (bs, s0)) →
    s0.pagesFail x ((appendOf q x g).layers.flatMap fun l => (appendSpans (appendOf q x g).fill (appendOf q x g).tokens).map fun sp => (l, sp.1)) = none →
    s0.swappedNeeded x ((appendOf q x g).layers.map fun l => (l, (appendOf q x g).fill / 256)) = false →
    s0.AppendReady q x g v l →
    ((v.modReq q.id fun q => { q with newFrames := [] }).installFrames (appendOf q x g) l).bind
      (·.appendLayers (appendOf q x g) bs (appendOf q x g).layers) = some s3 →
    ∃ t, exec (.append r dma) s = .next t ∧
      t = (s3.modSeq x.idx fun y => { y with
        fills := setFills (appendOf q x g).layers (x.fill (apLfirst q.entry) + apTokens q.entry) y.fills,
        lastAtt := v.clk.ltime }).okReq q (x.fill (apLfirst q.entry) + apTokens q.entry)) ∧
  (∀ s r q a b s', s.Edits r q opPAGE_SHARE → s.NamesSeq q a →
    s.findSeq q.tenant (fld q.entry 255 208) q.accepted = some b → s.descLost b = false → s.HasTurn q b.handle →
    a.state = .active → b.state = .active → a.geom = b.geom →
    fld q.entry 191 176 < a.fills.length → fld q.entry 271 256 < b.fills.length →
    256 * (fld q.entry 207 192 + 1) ≤ a.fill (fld q.entry 191 176) → b.fill (fld q.entry 271 256) % 256 = 0 →
    b.fill (fld q.entry 271 256) + 256 ≤ b.cap →
    s.pagesFail a [(fld q.entry 191 176, fld q.entry 207 192)] = none →
    s.pagesFail b [(fld q.entry 271 256, b.fill (fld q.entry 271 256) / 256)] = none →
    s.swappedNeeded a [(fld q.entry 191 176, fld q.entry 207 192)] = false →
    s.shareFull a (s.seqFrames b) [(fld q.entry 191 176, fld q.entry 207 192)] = false →
    s.takeTables q.tenant (tablePagesFor
      (b.pageAddr (s.seqFrameBytes b) (fld q.entry 271 256) (b.fill (fld q.entry 271 256) / 256)) (s.seqFrameBytes b)
      (leafLow (s.seqFrameBytes b))) = some s' →
    ∃ t, exec (.pageShare r) s = .next t ∧
      t = ((s'.sharePages a b (s.seqFrameBytes b) [((fld q.entry 191 176, fld q.entry 207 192),
          (fld q.entry 271 256, b.fill (fld q.entry 271 256) / 256))]).modSeq b.idx fun y =>
        { y with fills := setFills [fld q.entry 271 256] (b.fill (fld q.entry 271 256) + 256) y.fills }).okReq q
          (b.fill (fld q.entry 271 256) + 256)) ∧
  (∀ s r q x g k u v, s.Edits r q opSEQ_TRUNCATE → s.NamesSeq q x → s.HasTurn q x.handle → x.state = .active →
    s.geom x.tenant x.geom = some g → k = fld q.entry 207 176 →
    s.pagesFail x (((s.layersAbove x k).flatMap x.pagesOf).filter fun lp => decide (k / 256 ≤ lp.2)) = none →
    (k % 256 = 0 ∨ s.swappedNeeded x ((s.layersAbove x k).map fun l => (l, k / 256)) = false) →
    u = (s.modSeq x.idx fun y => { y with fills := y.fills.map (min k) }) →
    v = (if s.layersAbove x k = [] then u else u.psForget x.handle k) →
    ∃ t, exec (.seqTruncate r) s = .next t ∧
      t = (if k % 256 = 0 then (v.unmapAll (truncGone s x v k) 0).1
        else (v.unmapAll (truncGone s x v k) 0).1.rebuildTails q.job x g k (s.layersAbove x k)).okReq q (v.unmapAll (truncGone s x v k) 0).2)

/-- R84, R86, R81, R473: SEQ_PREEMPT starts the swap-out and ends or waits for it, SEQ_RESTORE starts the restore and waits for it,
SEQ_DESTROY frees the sequence, and a restore that fails leaves the sequence PREEMPTED. -/
def Obligations.PreemptRestoreDestroyComplete : Prop :=
  (∀ s r q x s', s.Runs r q opSEQ_PREEMPT → s.NamesSeq q x → x.state = .active → q.accepted = false →
    s.earlier q (fun y => y.writesInto x.handle) = [] →
    ((s.modSeq x.idx fun y => { y with state := .preempting, moved := 0, starter := some r }).accept r []).startSwapOut x = some s' →
    ((s.modSeq x.idx fun y => { y with state := .preempting, moved := 0, starter := some r }).accept r []).ownFrames x ≠ [] →
    ∃ t, exec (.seqPreempt r) s = .next t ∧ t = (s'.modSeq x.idx fun y => { y with starter := none }).waitReq r (.swapOut x.idx)) ∧
  (∀ s r q x, s.Runs r q opSEQ_PREEMPT → s.NamesSeq q x → x.state = .preempted → q.accepted = false →
    ∃ t, exec (.seqPreempt r) s = .next t ∧ t.Ended r q .ok 0 ∧ t = { s with reqs := t.reqs }) ∧
  (∀ s r q x, s.Runs r q opSEQ_RESTORE → s.NamesSeq q x → x.state = .preempted → s.swappedFrames x ≠ [] →
    ∃ t, exec (.seqRestore r) s = .next t ∧ t.Waits r q (.restore x.idx) ∧
      t.seqAt x.idx = some { x with state := .restoring, moved := 0, starter := some r } ∧
      t = { s with seqs := t.seqs, reqs := t.reqs }) ∧
  (∀ s r q x, s.Runs r q opSEQ_RESTORE → s.NamesSeq q x → x.state = .active → q.accepted = true →
    ∃ t, exec (.seqRestore r) s = .next t ∧ t.Ended r q .ok x.moved ∧ t = { s with reqs := t.reqs }) ∧
  (∀ s r q x, s.Edits r q opSEQ_DESTROY → s.findSeq q.tenant (opHandle q.entry) true = some x → q.accepted = true →
    s.anyLive q.after = false → (x.state = .active ∨ x.state = .preempted) →
    ∃ t, exec (.seqDestroy r) s = .next t ∧ t.seqAt x.idx = none ∧
      t = ({ (s.unmapAll (s.seqMaps x) 0).1.modMem fun m => { m with lost := m.lost.erase (x.tenant, MetaKind.seqDesc, x.idx) } with
              seqs := dropWhere (·.idx == x.idx) (s.unmapAll (s.seqMaps x) 0).1.seqs }).okReq q (s.unmapAll (s.seqMaps x) 0).2) ∧
  (∀ s i x st, s.seqAt i = some x → s.coreRuns = true → x.state = .restoring →
    (st = .capacity ∨ st = .mediaError ∨ st = .timeout) →
    ∃ t, exec (.restoreFailed i st) s = .next t ∧ t.seqAt i = some { x with state := .preempted, starter := none, tried := [], victims := [] } ∧
      (∀ q ∈ s.reqs, q.phase = .waiting (.restore i) → restoreOutcome st q ∈ t.reqs) ∧ t.mem = s.mem)

/-- R95, R98, R100: MAP, UNMAP and REMAP of loan frames, and the end of a quarantine. -/
def Obligations.MappingRowsComplete : Prop :=
  (∀ s r q s1 l s2, s.Edits r q opMAP → 0 < fld q.entry 223 192 → fld q.entry 227 224 ≤ 9 →
    mapAddr q.entry % (granule * 2 ^ fld q.entry 227 224) = 0 →
    mapAddr q.entry + fld q.entry 223 192 * (granule * 2 ^ fld q.entry 227 224) ≤ s.addrLimit q.tenant →
    s.mappedIn q.tenant (mapAddr q.entry) (fld q.entry 223 192 * (granule * 2 ^ fld q.entry 227 224)) = false →
    s.seqRangeIn q.tenant (mapAddr q.entry) (fld q.entry 223 192 * (granule * 2 ^ fld q.entry 227 224)) = false →
    s.framesUsed q.tenant + fld q.entry 223 192 * (granule * 2 ^ fld q.entry 227 224) ≤ s.frameMax q.tenant →
    s.tablesLost q.tenant (mapAddr q.entry) (fld q.entry 223 192 * (granule * 2 ^ fld q.entry 227 224)) = false →
    s.takeTables q.tenant (tablePagesFor (mapAddr q.entry) (fld q.entry 223 192 * (granule * 2 ^ fld q.entry 227 224))
      (leafLow (granule * 2 ^ fld q.entry 227 224))) = some s1 →
    allocEach (fun _ s => s.allocPlain q.tenant q.comp (granule * 2 ^ fld q.entry 227 224) .loan)
      (List.range (fld q.entry 223 192)) s1 = .got l s2 →
    ∃ t, exec (.map r) s = .next t ∧
      t = (l.foldl (fun s p => s.mapFrame q.tenant (mapAddr q.entry + p.1 * (granule * 2 ^ fld q.entry 227 224)) p.2
        (flag q.entry 228) (flag q.entry 229) false) s2).okReq q ((l.head?.map (·.2)).getD 0)) ∧
  (∀ s r q ms, s.Edits r q opUNMAP → 0 < fld q.entry 223 192 → fld q.entry 223 192 ≤ s.mem.maps.length →
    s.loanRun q.tenant (fld q.entry 223 192) (mapAddr q.entry) = some ms →
    mapAddr q.entry + s.runBytes ms ≤ s.addrLimit q.tenant →
    s.regionOver q.tenant (mapAddr q.entry) (s.runBytes ms) = false → s.mapsFail ms = none →
    ∃ t, exec (.unmap r) s = .next t ∧ t = (s.unmapAll ms 0).1.okReq q (s.unmapAll ms 0).2) ∧
  (∀ s r q ms s', s.Edits r q opREMAP → 0 < fld q.entry 287 256 → fld q.entry 287 256 ≤ s.mem.maps.length →
    s.loanRun q.tenant (fld q.entry 287 256) (mapAddr q.entry) = some ms →
    mapAddr q.entry + s.runBytes ms ≤ s.addrLimit q.tenant →
    s.regionOver q.tenant (mapAddr q.entry) (s.runBytes ms) = false → s.mapsFail ms = none →
    (∀ m ∈ moved (fld q.entry 255 192) ms, m.addr % s.frameSize m.frame = 0) →
    fld q.entry 255 192 + s.runBytes ms ≤ s.addrLimit q.tenant →
    s.mappedIn q.tenant (fld q.entry 255 192) (s.runBytes ms) = false →
    s.seqRangeIn q.tenant (fld q.entry 255 192) (s.runBytes ms) = false →
    (fld q.entry 255 192 + s.runBytes ms ≤ mapAddr q.entry ∨ mapAddr q.entry + s.runBytes ms ≤ fld q.entry 255 192) →
    s.tablesLost q.tenant (fld q.entry 255 192) (s.runBytes ms) = false →
    s.takeTables q.tenant ((moved (fld q.entry 255 192) ms).flatMap fun m =>
      tablePagesFor m.addr (s.frameSize m.frame) (leafLow (s.frameSize m.frame))) = some s' →
    ∃ t, exec (.remap r) s = .next t ∧
      t = ((s'.modMem fun m => { m with
          maps := (m.maps.filter fun x => !ms.contains x) ++ moved (fld q.entry 255 192) ms
          walkEpoch := m.walkEpoch + ms.length }).tlbDrop fun e => e.1 == q.tenant && ms.any (·.addr == e.2.1)).okReq q 0) ∧
  (∀ s i q, s.mem.quar.find? (·.id == i) = some q → s.walksPast q.tag = true → s.toBeZeroed q = false →
    ∃ t, exec (.quarantineEnd i) s = .next t ∧ t.mem.quar.find? (·.id == i) = none ∧ t.mem.maps = s.mem.maps ∧
      t.reqs = s.reqs)

/-! ### Attention, near-bank units and merges (chapters 4, 6) -/

/-- R103, R120: an ATTEND that passes its checks is dispatched; when its blocks have all ended its records are merged and
sent. -/
def Obligations.AttendComplete : Prop :=
  (∀ s u r q tb s1 x g blk s2 ps, s.Runs r q opATTEND → q.att = none → firstFail (attendChecks q.entry q.isRemote) = none →
    u = (s.modReq r fun q => { q with row := none }) → u.attInput q 0 (atTable q.entry) (32 * atRows q.entry) = .ok (tb, s1) →
    firstFail (tableChecks q (rowsOf (atRows q.entry) tb)) = none →
    (rowsOf (atRows q.entry) tb).head?.bind (fun x => s1.findSeq q.tenant x.handle q.accepted) = some x →
    s1.descLost x = false → s1.geom x.tenant x.geom = some g → firstFail (geomChecks q.entry g (rowsOf (atRows q.entry) tb)) = none →
    s1.attInput q (32 * atRows q.entry) (atQuery q.entry) (queryBytes q.entry g (rowsOf (atRows q.entry) tb)) = .ok (blk, s2) →
    s2.checkRows q g 0 0 (rowsOf (atRows q.entry) tb) = .ok ps →
    ∃ t, exec (.attend r) s = .next t ∧ t = s2.generate q g ps blk) ∧
  (∀ s r q a, s.req r = some q → q.att = some a → a.busy = [] → a.held = [] → q.phase = .waiting .work → s.coreRuns = true →
    ∃ t, exec (.crucibleMergeDone r) s = .next t ∧ t = s.attendDone q a)

/-- R174, R175, R438: the end of a step charges its time, ends it and passes the boundary; a refresh falls due and the eighth cuts the
step; the end of an attention core's piece is charged and its core takes the next. -/
def Obligations.UnitEventsComplete : Prop :=
  (∀ s u j, (s.nbUnit u).step = some j → s.coreRuns = true →
    ∃ t, exec (.nearBankStepEnd u) s = .next t ∧
      t = ((s.chargeStep 2 j).stepDone j).boundary u) ∧
  (∀ s u j, (s.nbUnit u).step = some j → (s.nbUnit u).owed + 1 < maxOwed →
    ∃ t, exec (.refreshDue u) s = .next t ∧ t.nbUnit u = { s.nbUnit u with owed := (s.nbUnit u).owed + 1 } ∧
      (∀ v, v ≠ u → t.nbUnit v = s.nbUnit v) ∧ t = { s with eng := t.eng }) ∧
  (∀ s u j, (s.nbUnit u).step = some j → (s.nbUnit u).owed + 1 = maxOwed → (s.nbUnit u).cut = false →
    ∃ t, exec (.refreshDue u) s = .next t ∧ (t.nbUnit u).owed = maxOwed ∧ (t.nbUnit u).cut = true) ∧
  (∀ s c j, (s.coreSt c).piece = some j → s.coreRuns = true → s.atLower (fun x => x.item == .core c j.began) = false →
    ∃ t, exec (.attentionCorePieceEnd c) s = .next t ∧
      t = ((((s.chargeStep 1 j).stepDone j).setCore { n := c }).kickCore c).pump)

/-- R157, R161, R162, R163, R164, R166: an NB_EXEC that passes its checks is dispatched by rows, each operation by its own row. -/
def Obligations.LoanOperationsComplete : Prop :=
  (∀ s r q d s1 p s2 c op,
    (c, op) ∈ [(Instr.gatherReduce r, nbGATHER), (.ewise r, nbEWISE), (.norm r, nbNORM), (.optStep r, nbOPT), (.cast r, nbCAST)] →
    s.Runs r q opNB_EXEC →
    nbOp q.entry = op → q.loanWork = none → s.chained q (nbOrdered q.entry) = false → firstFail (s.nbChecks q) = none →
    s.loadTenant q.payer (nbDesc q.entry) 128 = .ok (d, s1) → s1.loanPlan q.payer op d = .ok (p, s2) →
    ∃ t, exec c s = .next t ∧
      t = State.dispatchRows
        (p.frames.foldl (fun s f => s.heatFrame q.tenant f) ((s2.modReq r fun q => { q with
            loanWork := some (loanStart op d p s2), phase := .waiting .work, accepted := true }).modMem
          fun m => { m with walks := m.walks ++ p.frames.map fun f => (⟨r, q.tenant, f, s2.mem.walkEpoch⟩ : Walk) }))
        q op d (p.rows.zipIdx.map fun x => (x.2, x.1))) ∧
  (∀ s r q w, s.req r = some q → q.loanWork = some w → w.jobs = [] → q.phase = .waiting .work → s.coreRuns = true →
    w.op ≠ nbGATHER →
    ∃ t, exec (.broadcastCommandComplete r) s = .next t ∧ t = (s.endWalks r).okReq q (w.rowsDone + w.fwd.length * 2 ^ 32)) ∧
  (∀ s r q w s', s.req r = some q → q.loanWork = some w → w.jobs = [] → q.phase = .waiting .work → s.coreRuns = true →
    w.op = nbGATHER → s.gatherOut q.tenant w w.outs.zipIdx = some s' →
    ∃ t, exec (.broadcastCommandComplete r) s = .next t ∧ t = (s'.endWalks r).okReq q (w.outs.length + w.fwd.length * 2 ^ 32))

/-- R121, R124-R126: MERGE_OPEN, MERGE_SUBMIT, MERGE_CLOSE, MERGE_ABORT and the end of a merge context's time. -/
def Obligations.MergeRowsComplete : Prop :=
  (∀ s r q slot l s', s.Runs r q opMERGE_OPEN → moOfmt q.entry ≤ 1 → 0 < moRecords q.entry → moRecords q.entry ≤ 1048576 →
    0 < moContrib q.entry → moContrib q.entry ≤ 4096 → 16 ≤ moDv q.entry → moDv q.entry ≤ 1024 → moDv q.entry % 16 = 0 →
    moResult q.entry % 8 = 0 → lowestFree (s.merges.map (·.slot)) maxMerges = some slot →
    allocEach (fun size s => s.allocPlain q.tenant q.comp size .accumulator false)
      (accFrames (moRecords q.entry * accRecord (moDv q.entry))) s = .got l s' →
    ∃ (t : State) (x : MergeCtx), exec (.mergeOpen r) s = .next t ∧
      t = ({ s' with merges := s'.merges ++ [x],
                     gens := { s'.gens with merges := assocPut s'.gens.merges slot x.gen 0 } }).okReq q x.id ∧
      x.slot = slot ∧ x.gen = max 1 (assocGet s'.gens.merges slot 0) ∧ x.tenant = q.tenant ∧ x.result = moResult q.entry ∧
      x.records = moRecords q.entry ∧ x.contribs = moContrib q.entry ∧ x.dv = moDv q.entry ∧ x.acc = [] ∧ x.begun = [] ∧
      x.frames = l.map (·.2) ∧ x.deadline = s'.now + 1000 * (if moTimeout q.entry = 0 then 1000000 else moTimeout q.entry)) ∧
  (∀ s r q dma x bs s1 s2, s.Runs r q opMERGE_SUBMIT → 0 < msCount q.entry → msSrcOffset q.entry % 8 = 0 →
    s.findMerge q.tenant (msId q.entry) = some x → x.dv ≠ 0 →
    s.source q (msSrcKey q.entry) (msSrcOffset q.entry) (msCount q.entry * accRecord x.dv) dma = .ok (some (bs, s1)) →
    s1.contribute q.tenant (none, r)
      { id := msId q.entry, contrib := msContrib q.entry, rbase := msRbase q.entry, dv := x.dv,
        recs := recordsOf x.dv (msCount q.entry) bs, final := true } = .ok s2 →
    ∃ t, exec (.mergeSubmit r dma) s = .next t ∧ t = s2.okReq q (msCount q.entry)) ∧
  (∀ s r q x, s.Runs r q opMERGE_CLOSE → s.findMerge q.tenant (msId q.entry) = some x → (x.closing = none ∨ x.closing = some r) →
    ∃ t, exec (.mergeClose r) s = .next t ∧
      t = ((s.modMerge x.slot fun x => { x with closing := some r }).waitReq r (.mergeClose x.slot)).tryClose x.slot) ∧
  (∀ s r q x, s.Runs r q opMERGE_ABORT → s.findMerge q.tenant (msId q.entry) = some x →
    ∃ t, exec (.mergeAbort r) s = .next t ∧ t = (s.dropMerge x .revoked).okReq q 0) ∧
  (∀ s slot, s.coreRuns = true →
    ∃ t, exec (.mergeTimeout slot) s = .next t ∧ t = (s.modMerge slot fun x => { x with timedOut := true }).tryClose slot)

/-- R137, R138, R150: TS_REBUILD, TS_READ and the rebuild after an error. -/
def Obligations.TouchstoneRowsComplete : Prop :=
  (∀ s r q x g, s.Runs r q opTS_REBUILD → s.NamesSeq q x → s.geom x.tenant x.geom = some g →
    layersBad (apLfirst q.entry) (apLcount q.entry) g.layers = false → s.HasTurn q x.handle → x.state = .active →
    s.pagesFail x ((layerRun (apLfirst q.entry) (apLcount q.entry) g.layers).flatMap x.pagesOf) = none →
    s.swappedNeeded x ((layerRun (apLfirst q.entry) (apLcount q.entry) g.layers).flatMap x.pagesOf) = false →
    ∃ t s' a b, exec (.tsRebuild r) s = .next t ∧
      s.rebuildPages q.job x g ((layerRun (apLfirst q.entry) (apLcount q.entry) g.layers).flatMap x.pagesOf) 0 0 = (s', a, b) ∧
      t = s'.okReq q (a + b * 2 ^ 32)) ∧
  (∀ s r q x g s', s.Runs r q opTS_READ → trDest q.entry % 64 = 0 → 0 < trCount q.entry → trCount q.entry ≤ 65536 →
    s.NamesSeq q x → s.geom x.tenant x.geom = some g → trLayer q.entry < g.layers →
    trFirst q.entry + trCount q.entry ≤ x.pmax → x.state = .active →
    s.pagesFail x ((List.range (trCount q.entry)).map fun i => (trLayer q.entry, trFirst q.entry + i)) = none →
    s.writeTenant q.payer (trDest q.entry)
      ((List.range (trCount q.entry)).flatMap fun i => s.touchOut x g (trLayer q.entry) (trFirst q.entry + i)) = .done s' →
    ∃ t, exec (.tsRead r) s = .next t ∧ t = s'.okReq q (trCount q.entry)) ∧
  (∀ s n f w v ps u, s.frame n = some f → f.touch = some w →
    v = (if w.bad then s else s.count 0x6000 0x21).modFrame n (fun f => { f with touch := f.touch.map fun w => { w with bad := true } }) →
    (v.errorRebuild n).drawMirrors = (ps, u) →
    ∃ t, exec (.touchstoneErrorRebuild n true) s = .next t ∧ t = (ps.take 1).foldl (fun s p => s.retireFree p.1 p.2.1 p.2.2 0) u) ∧
  (∀ s n f w v i v' gr, s.frame n = some f → f.touch = some w →
    v = (if w.bad then s else s.count 0x6000 0x21).modFrame n (fun f => { f with touch := f.touch.map fun w => { w with bad := true } }) →
    (if w.block.size ≤ granule then (0, v) else v.draw (blockSpan w.block.size / granule)) = (i, v') → gr = w.block.granule + i →
    ∃ t u, exec (.touchstoneErrorRebuild n false) s = .next t ∧
      u = (v'.mem.frames.filter fun f => f.num != n && f.blockAt w.block.channel gr).foldl
        (fun s f => s.moveBlock f.num) ((v'.retireGranule w.block.channel gr).errorRebuild n) ∧
      t = u.retireRecord
        { time := u.clk.ltime, cause := 0, tier := 0, tenant := f.tenant, unit := w.block.channel, lines := 0,
          location := gr, frame := n, address := 0 })

/-- R216, R218, R221, R287: the prefix unit's rows, on a variant that has it. -/
def Obligations.PrefixRowsComplete : Prop :=
  (∀ s r q x bank slot, s.Runs r q opPS_INSERT → s.variant.prefixUnit = true → s.NamesSeq q x →
    firstFail (s.insertChecks q x) = none → s.psPlace (psTag (piCkey q.entry) (piMkey q.entry)) = some (bank, slot) →
    ∃ (t : State) (e : PsSlot), exec (.psInsert r) s = .next t ∧ t.ps = e :: s.ps ∧ e.bank = bank ∧ e.slot = slot ∧ e.gen = s.psGen bank slot ∧
      e.tenant = q.tenant ∧ e.ckey = piCkey q.entry ∧ e.mkey = piMkey q.entry ∧ e.handle = x.handle ∧ e.page = piPage q.entry ∧
      t.Ended r q .ok e.id ∧ t.mem = s.mem ∧ t.seqs = s.seqs) ∧
  (∀ s r q, s.Runs r q opPS_REMOVE → s.variant.prefixUnit = true →
    s.ps.any (fun e => e.id == prEntry q.entry && e.tenant == q.tenant) = true →
    ∃ t, exec (.psRemove r) s = .next t ∧ t.Ended r q .ok 0 ∧ t.mem = s.mem ∧ t.seqs = s.seqs ∧
      t.ps = s.ps.filter fun e => !(e.id == prEntry q.entry && e.tenant == q.tenant)) ∧
  (∀ s r q u bs s1 xs s2, s.Runs r q opPS_SEARCH → s.variant.prefixUnit = true → u = (s.psForgotten q).psNote q → pqRaddr q.entry % 32 = 0 →
    pqQaddr q.entry % 64 = 0 → 0 < pqCount q.entry → pqCount q.entry ≤ 65536 →
    s.xlateStatus q.tenant (pqQaddr q.entry) (64 * pqCount q.entry) .read = .ok →
    s.xlateStatus q.tenant (pqRaddr q.entry) (32 * pqCount q.entry) .write = .ok →
    u.loadTenant q.payer (pqQaddr q.entry) (64 * pqCount q.entry) = .ok (bs, s1) →
    xs = s.psAnswers q.id q.tenant (pqMkey q.entry) (psQueries (pqCount q.entry) bs) →
    s1.writeTenant q.payer (pqRaddr q.entry) (xs.flatMap fun x => leBytes 32 (s1.psResult x)) = .done s2 →
    ∃ t, exec (.psSearch r) s = .next t ∧
      t = (s2.countLooked q.tenant xs).okReq q ((xs.filter (·.found.isSome)).length + sumOf (·.false_) xs * 2 ^ 32)) ∧
  (∀ s r q, s.Runs r q opPS_PURGE → s.variant.prefixUnit = true →
    ∃ t, exec (.psPurge r) s = .next t ∧
      t.Ended r q .ok (s.ps.filter fun e => e.tenant == q.tenant && e.mkey == piMkey q.entry).length ∧ t.mem = s.mem ∧
      t.ps = s.ps.filter fun e => !(e.tenant == q.tenant && e.mkey == piMkey q.entry)) ∧
  (∀ s r q op c, (c, op) ∈ [(Instr.psInsert r, opPS_INSERT), (.psRemove r, opPS_REMOVE), (.psSearch r, opPS_SEARCH),
      (.psPurge r, opPS_PURGE)] → s.Runs r q op → s.variant.prefixUnit = false →
    ∃ t, exec c s = .next t ∧ t.Ended r q .unitAbsent 0 ∧ t = { s with reqs := t.reqs })

/-! ### Tiers and swap (chapter 7) -/

/-- R184, R196, R197, R198, R199, R202, R203: TIER_MOVE in its three forms, heat, demotion, promotion, the migration switch, writes to and
compaction of lower-tier images. -/
def Obligations.TierRowsComplete : Prop :=
  (∀ s r q c tg, (c, tg) ∈ [(Instr.tierMoveUp r, [0]), (.tierMoveDown r, [1]), (.tierMoveHold r, [2, 3])] →
    s.Runs r q opTIER_MOVE → tmTarget q.entry ∈ tg → s.chained q (tmOrdered q.entry) = false →
    s.framesIn q.tenant (tmAddr q.entry) (tmLen q.entry) = [] → firstFail (s.tierChecks q []) = none → s.tablesLost q.tenant (tmAddr q.entry) (tmLen q.entry) = false →
    s.mapsFail (s.mapsIn q.tenant (tmAddr q.entry) (tmLen q.entry)) = none →
    ∃ t, exec c s = .next t ∧ t.Ended r q .ok 0 ∧ t.mem = s.mem) ∧
  (∀ s r q f s', s.Runs r q opTIER_MOVE → tmTarget q.entry = 0 → s.chained q (tmOrdered q.entry) = false →
    s.framesIn q.tenant (tmAddr q.entry) (tmLen q.entry) = [f] → f.place.isLower = true → f.place.isSwap = false →
    f.mig = none → s.allocStalled f.num = false → tmHold q.entry = false → firstFail (s.tierChecks q []) = none → s.tablesLost q.tenant (tmAddr q.entry) (tmLen q.entry) = false →
    s.mapsFail (s.mapsIn q.tenant (tmAddr q.entry) (tmLen q.entry)) = none →
    s.startUp f (some r) false = some s' →
    ∃ t, exec (.tierMoveUp r) s = .next t ∧
      t = (s'.modReq q.id fun q => { q with tierLeft := [f.num], count := 1 }).waitReq q.id .tier) ∧
  (∀ s r q f s', s.Runs r q opTIER_MOVE → tmTarget q.entry = 1 → s.chained q (tmOrdered q.entry) = false →
    s.framesIn q.tenant (tmAddr q.entry) (tmLen q.entry) = [f] → f.place.isUpper = true → f.place.isSwap = false → f.mig = none →
    s.allocStalled f.num = false → f.kind ≠ .accumulator → tmHold q.entry = false → firstFail (s.tierChecks q []) = none → s.tablesLost q.tenant (tmAddr q.entry) (tmLen q.entry) = false →
    s.mapsFail (s.mapsIn q.tenant (tmAddr q.entry) (tmLen q.entry)) = none →
    (s.modFrame f.num fun f => { f with held := false }).startDown f (some r) none = some s' →
    ∃ t, exec (.tierMoveDown r) s = .next t ∧
      t = (s'.modReq q.id fun q => { q with tierLeft := [f.num], count := 1 }).waitReq q.id .tier) ∧
  (∀ s r q f, s.Runs r q opTIER_MOVE → tmTarget q.entry = 2 → s.chained q (tmOrdered q.entry) = false →
    s.framesIn q.tenant (tmAddr q.entry) (tmLen q.entry) = [f] → f.place.isUpper = true → f.place.isSwap = false → f.mig = none →
    s.allocStalled f.num = false → tmHold q.entry = true → f.held = false → firstFail (s.tierChecks q [f]) = none → s.tablesLost q.tenant (tmAddr q.entry) (tmLen q.entry) = false →
    s.mapsFail (s.mapsIn q.tenant (tmAddr q.entry) (tmLen q.entry)) = none →
    ∃ t, exec (.tierMoveHold r) s = .next t ∧ t.Ended r q .ok 1 ∧
      t.mem.frames = modWhere (·.num == f.num) (fun f => { f with held := true }) s.mem.frames) ∧
  (∀ s, ∃ t, exec .heatPeriodExpiry s = .next t ∧
    t.mem.frames = s.mem.frames.map (fun f => { f with heat := f.heat / 2 }) ∧
    t = { s with mem := { s.mem with frames := t.mem.frames, tpages := t.mem.tpages } }) ∧
  (∀ s, s.coreRuns = true → s.demotionDue = true →
    ∃ t, exec .demotionStart s = .next t ∧ t = (s.modMem fun m => { m with demoting := true }).demoteOne) ∧
  (∀ s n f s', s.frame n = some f → s.coreRuns = true → s.variant.hasLower = true → s.migShare ≠ 0 → f.place.isLower = true →
    f.mig = none → f.swapRun = none → s.promoteHeat ≤ f.heat → s.allocStalled n = false → s.upperAtLeast s.highWm = true →
    s.startUp f none false = some s' →
    ∃ t, exec (.promotionStart n) s = .next t ∧ t = s') ∧
  (∀ s n f m, s.frame n = some f → f.mig = some m → m.reloc = false → s.allocStalled n = false → f.place.isSwap = false →
    s.atLower (fun j => j.item == .frame n && !s.ltStale j) = false →
    (m.moved = true ∨ m.dirty = [] ∨ copyPasses < m.passes) → (m.moved = true ∨ s.switchFits f m = true) →
    ∃ t, exec (.migrationSwitch n) s = .next t ∧ t = ((s.switchFrame f m).promoteNext m).tierEnd) ∧
  (∀ s n f m, s.frame n = some f → f.mig = some m → m.reloc = false → s.allocStalled n = false → f.place.isSwap = false →
    s.atLower (fun j => j.item == .frame n && !s.ltStale j) = false → m.moved = false → m.dirty ≠ [] → m.passes ≤ copyPasses →
    ∃ t, exec (.migrationSwitch n) s = .next t ∧
      t = s.modFrame n fun f => { f with mig := some { m with dirty := [], passes := m.passes + 1 } }) ∧
  (∀ s n f off bs s', s.frame n = some f → f.place.isLower = true → off + bs.length ≤ f.size → s.meetsLoss n off bs.length = false →
    s.writeFrame n off bs = some s' →
    ∃ t, exec (.lowerUnitRmw n off bs) s = .next t ∧ t = s') ∧
  (∀ s n f s', s.frame n = some f → compactDue f = true → f.mig = none → s.allocStalled n = false → s.compact n = some s' →
    ∃ t, exec (.imageCompaction n) s = .next t ∧ t = s')

/-- R185, R186, R187: a wait for sectors ends, a late lower-tier read ends its request with TIMEOUT, and a privileged read retries. -/
def Obligations.TierWaitsComplete : Prop :=
  (∀ s r q, s.req r = some q → q.phase = .waiting .sectors →
    ∃ t, exec (.lowerSectorWaitEnd (.request r)) s = .next t ∧ t.req r = some { q with phase := .started } ∧
      t = { s with reqs := t.reqs }) ∧
  (∀ s u v a l, s.eng.stores = a :: l → u = { s with eng := { s.eng with stores := [] } } →
    v = (u.serveLine a).endHostWalk a →
    ∃ t, exec (.lowerSectorWaitEnd .host) s = .next t ∧
      (v.eng.stores = [] → t = v.serveHeld l) ∧ (v.eng.stores ≠ [] → t = { v with eng := { v.eng with stores := v.eng.stores ++ l } })) ∧
  (∀ s r q, s.req r = some q → s.coreRuns = true → s.variant.hasLower = true → q.live = true → s.readsLower q = true →
    ∃ t, exec (.ltReadLimitExpiry (.request r)) s = .next t ∧ t = (s.count 0x6100 9).abandon r .timeout) ∧
  (∀ s ld hpa, s.coreRuns = true → s.linkCarries ld = true →
    ∃ t, exec (.ltReadLimitExpiry (.host ld hpa)) s = .next t ∧ t = s.lateLoad ld hpa) ∧
  (∀ s k n key r, s.coreRuns = true →
    ∃ t, exec (.ltReadLimitExpiry (.metadata k n key r)) s = .next t ∧ t = s.stallMeta k n key r false) ∧
  (∀ s i x d, s.mem.stalls.find? (·.id == i) = some x →
    ∃ t, exec (.privilegedReadRetry i true d) s = .next t ∧
      t = (((s.count 0x6100 14 d).retireCopies x).modMem fun m => { m with stalls := dropWhere (·.id == i) m.stalls }).tierEnd) ∧
  (∀ s i x d, s.mem.stalls.find? (·.id == i) = some x → x.attempts + 1 < privPasses * x.copies →
    ∃ t, exec (.privilegedReadRetry i false d) s = .next t ∧
      t.mem.stalls.find? (·.id == i) = some { x with attempts := x.attempts + 1 } ∧ t = { s with mem := t.mem }) ∧
  (∀ s i x d, s.mem.stalls.find? (·.id == i) = some x → privPasses * x.copies ≤ x.attempts + 1 →
    ∃ t, exec (.privilegedReadRetry i false d) s = .next t ∧ t = s.metaLost x d)

/-- R205, R207, R208: a frame is out, a swap-out fails, an image is read back, and a read that does not complete fails the restore. -/
def Obligations.SwapRowsComplete : Prop :=
  (∀ s n f q l p a k s', s.frame n = some f → s.ownerOf n = some (q, l, p) → f.swapRun = some (a, k) → f.place.isSwap = false →
    q.state = .preempting → s.entriesStalled f = false → s' = (s.frameOut f q.idx a k).modSeq q.idx (fun q => { q with moved := q.moved + 1 }) →
    ∃ t, exec (.swapOutFrameDone n) s = .next t ∧ t = if (s'.swapping q).isEmpty then s'.swapOutDone q.idx else s') ∧
  (∀ s n f q l p, s.frame n = some f → s.ownerOf n = some (q, l, p) → f.swapRun.isSome = true → f.place.isSwap = false →
    q.state = .preempting →
    ∃ t, exec (.swapOutFailure n) s = .next t ∧ t = s.swapOutFailed q) ∧
  (∀ s n f q l p hdr, s.frame n = some f → s.ownerOf n = some (q, l, p) → s.coreRuns = true → f.place.isSwap = true →
    s.readingBack q = true → s.entriesStalled f = false → s.imageGood f hdr = true →
    ∃ t, exec (.restoreFrameReadDone n hdr true) s = .next t ∧ t = (s.imageRead f (fld hdr 145 128)).2.restoreFrame f q l) ∧
  (∀ s n f q l p hdr, s.frame n = some f → s.ownerOf n = some (q, l, p) → s.coreRuns = true → f.place.isSwap = true →
    s.readingBack q = true → s.entriesStalled f = false →
    ∃ t, exec (.restoreFrameReadDone n hdr false) s = .next t ∧ t = (s.imageRead f (fld hdr 145 128)).2.failRestore q.idx .mediaError) ∧
  (∀ s n f q l p, s.frame n = some f → s.ownerOf n = some (q, l, p) → f.place.isSwap = true → s.readingBack q = true →
    ∃ t, exec (.restoreDmaTimeout n) s = .next t ∧ t = s.failRestore q.idx .timeout)

/-! ### Fabric transport (chapters 9, 10) -/

/-- R123, R242, R246, R249, R281, R291, R292, R293: what each kind of packet does on its connection once it has passed the port's
checks. -/
def Obligations.ConnectionPacketsComplete : Prop :=
  (∀ s p c, s.Arrives p .req 1 → s.OnConnOf p c → (s.heardOn p c).takesReq = true → c.rreq.isDup p.psn = false →
    psnBelow p.psn c.grant = true →
    ∃ t, exec (.reqDataRx p) s = .next t ∧ t = (s.heardOn p c).placeReq c 0 p) ∧
  (∀ s p c, s.Arrives p .req 2 → s.OnConnOf p c → (s.heardOn p c).takesReq = true → c.rmerge.isDup p.psn = false →
    c.rmerge.beyond p.psn = false → (s.heardOn p c).mergeHeld ((s.heardOn p c).homeDie c.num) < mergeSlots →
    ∃ t, exec (.reqMergeRx p) s = .next t ∧ t = (s.heardOn p c).placeReq c 2 p) ∧
  (∀ s p c q o u s', s.Arrives p .rsp 1 → s.OnConnOf p c → (s.heardOn p c).takesRsp = true → c.rrsp.isDup p.psn = false →
    c.rrsp.beyond p.psn = false →
    (s.heardOn p c).awaiting c.num p.reqId = some (q, o) → (s.heardOn p c).holdsEpoch c.comp p.epoch = true →
    p.offset + p.payload.length ≤ o.space →
    u = (s.heardOn p c).modRemote q.id (fun o => { o with rspHop := min o.rspHop p.hoplim }) → u.placeRsp q p.offset p.payload = .done s' →
    ∃ t, exec (.rspDataRx p) s = .next t ∧ t = (s'.placedRsp q p.payload.length).takeRsp c p) ∧
  (∀ s p c q o, s.Arrives p .rsp 2 → p.offset ≠ missOffset → s.OnConnOf p c → (s.heardOn p c).takesRsp = true →
    c.rrsp.isDup p.psn = false → c.rrsp.beyond p.psn = false →
    (s.heardOn p c).awaiting c.num p.reqId = some (q, o) → (s.heardOn p c).holdsEpoch c.comp p.epoch = true →
    ∃ t, exec (.rspEndRx p) s = .next t ∧
      t = ((s.heardOn p c).modRemote q.id fun o => { o with rspHop := min o.rspHop p.hoplim }).takeRsp c p) ∧
  (∀ s p c q o, s.Arrives p .rsp 2 → p.offset = missOffset → s.OnConnOf p c → (s.heardOn p c).takesRsp = true →
    (s.heardOn p c).awaiting c.num p.reqId = some (q, o) →
    (∃ x ∈ c.sreq.outs ++ c.smerge.outs, x.psn = p.psn ∧ x.req = some q.id ∧ x.sent = true) →
    ∃ t, exec (.missReplyRx p) s = .next t ∧
      t = (s.heardOn p c).accepted.modRemote q.id fun x => { x with resends := x.resends.filter (· != p.psn) ++ [p.psn] }) ∧
  (∀ s p c, s.Arrives p .ack 1 → s.OnConnOf p c → (s.heardOn p c).takesRsp = true → 96 ≤ p.payload.length →
    (sackOf p.payload).space ≤ 2 →
    psnBelow (sackOf p.payload).cum (c.send (sackOf p.payload).space).cum = false →
    seqDist (c.send (sackOf p.payload).space).cum (sackOf p.payload).cum ≤
      seqDist (c.send (sackOf p.payload).space).cum (c.send (sackOf p.payload).space).next →
    ∃ t u, exec (.sackRx p) s = .next t ∧ t = (State.flush u c.num (sackOf p.payload).space).closeIfIdle c.num ∧
      u = ((c.send (sackOf p.payload).space).outs.filter (fun o => !(o.sent && (sackOf p.payload).shows o.psn))
          |>.filter ((sackOf p.payload).missing c.mtu)).foldl
        (fun s o => s.resend c.num (sackOf p.payload).space o.psn) (ackedBy s p c)) ∧
  (∀ s p c, s.Arrives p .ack 2 → s.OnConnOf p c → (s.heardOn p c).takesRsp = true → beVal (p.payload.take 4) ≠ 0 →
    ∃ t, exec (.creditAskRx p) s = .next t ∧
      t = ({ s.heardOn p c with fab := { (s.heardOn p c).fab with
              asks := (c.num, beVal (p.payload.take 4), p.age) :: dropWhere (·.1 == c.num) (s.heardOn p c).fab.asks } }
            : State).accepted.assignSlots) ∧
  (∀ s p c, s.Arrives p .ack 3 → s.OnConnOf p c → (s.heardOn p c).takesRsp = true →
    ∃ t, exec (.fenceAckRx p) s = .next t ∧ t = (s.heardOn p c).accepted.silentDone c.num fun _ o => psnBelow o.som p.offset) ∧
  (∀ s p c, s.Arrives p .ack 4 → s.OnConnOf p c → (s.heardOn p c).takesRsp = true →
    ∃ t, exec (.compAckRx p) s = .next t ∧
      t = (s.heardOn p c).accepted.silentDone c.num fun _ o => o.reqId == p.reqId && o.som == p.offset)

/-- R230, R243, R244, R260: KEEPALIVE, CONN_SETUP, CONN_ACCEPT, CONN_CLOSE, CONN_RESET and PAUSE. -/
def Obligations.ManagementPacketsComplete : Prop :=
  (∀ s p, s.Arrives p .mgt 1 →
    ∃ t, exec (.keepaliveRx p) s = .next t ∧
      t.fab.peers.lookup p.src = some (p.payload.take 8, BitVec.ofNat 32 (beVal ((p.payload.drop 8).take 4))) ∧
      t.fab.conns = s.fab.conns ∧ t.reqs = s.reqs) ∧
  (∀ s p k, s.Arrives p .mgt 2 →
    (s.heard p).accepted.fab.conns.find? (fun c => c.peer == p.src && c.setupId == (setupOf p.payload).setupId && !c.setupPkt.isEmpty) = none →
    (s.heard p).accepted.compById p.comp = some k →
    firstFail ((s.heard p).accepted.setupChecks p k ((s.heard p).accepted.tenantObj p.tenant 0xE)) = none →
    ∃ t, exec (.connSetupRx p) s = .next t ∧
      t = (s.heard p).accepted.acceptConn p k ((s.heard p).accepted.tenantObj p.tenant 0xE) (setupOf p.payload)) ∧
  (∀ s p c r, s.Arrives p .mgt 3 → (s.heard p).accepted.conn (setupOf p.payload).initConn = some c → c.state = .setupSent →
    c.peer = p.src → c.setupId = (setupOf p.payload).setupId → (setupOf p.payload).status = Status.ok.code → c.req = some r →
    ∃ t, exec (.connAcceptRx p) s = .next t ∧
      t = ((s.heard p).accepted.modConn c.num fun c => c.join (setupOf p.payload) (setupOf p.payload).accConn).connectDecided r) ∧
  (∀ s p c, s.Arrives p .mgt 4 → (s.heard p).accepted.conn p.conn = some c → c.peer = p.src → c.tenant = p.tenant →
    c.state = .opened →
    ∃ t, exec (.connCloseRx p) s = .next t ∧
      t = (((s.heard p).accepted.lostFromRun c .timeout).modConn c.num fun c => { c with state := .draining, sends := 0, peerClosed := true }).closeIfIdle c.num) ∧
  (∀ s p c, s.Arrives p .mgt 5 →
    (s.heard p).accepted.fab.conns.find? (fun c => c.peer == p.src && c.tenant == p.tenant && c.peerConn == p.conn &&
      (c.state == .opened || c.state == .draining)) = some c →
    ∃ t, exec (.connResetRx p) s = .next t ∧ t = (s.heard p).accepted.resetConn c.num .timeout) ∧
  (∀ s n, n < s.variant.ports → s.node.powered = true →
    ∃ t, exec (.pauseFrameRx n) s = .next t ∧ t = s.count (0x3200 + n) 7)

/-- R242, R248, R250, R251, R252, R256, R259, R260, R291: the transport's timers, the rate rule and the ports. -/
def Obligations.TransportTimersComplete : Prop :=
  (∀ s n sp psn c o, s.conn n = some c → (c.send sp).outs.find? (fun o => o.psn == psn && o.sent) = some o → s.coreRuns = true →
    o.req = none → o.expiries < retryBudget →
    ∃ t, exec (.retransmitTimerExpiry n sp psn) s = .next t ∧
      t = ((s.count 0x6300 4).modConn n fun c =>
        { (c.setSend sp { c.send sp with outs := modWhere (·.psn == psn) (fun x => { x with expiries := x.expiries + 1 }) (c.send sp).outs }) with
          rto := min s.rtoMax (2 * c.rto), paths := c.paths.modify o.path fun p => p.expire s.now s.ccMin }).resend n sp psn) ∧
  (∀ s r q o c, s.req r = some q → q.remote = some o → s.conn o.conn = some c → q.live = true → s.coreRuns = true →
    o.held = false → o.backoff = false → (∀ x ∈ c.sreq.outs ++ c.smerge.outs ++ c.loose, x.req ≠ some r) → o.retries < retryBudget →
    ∃ t, exec (.responseTimerExpiry r) s = .next t ∧
      t = (((s.count 0x6300 4).modConn o.conn fun c =>
        { c with paths := c.paths.modify o.path fun p => p.expire s.now s.ccMin }).modRemote q.id fun x =>
          { x with retries := x.retries + 1 }).resendLast o.conn q o) ∧
  (∀ s n sp c, s.conn n = some c → s.coreRuns = true → c.state = .opened → 0 < (c.recv sp).unsacked → sp ≠ 0 →
    ∃ t, exec (.sackDelayExpiry n sp) s = .next t ∧ t = s.sendSack n sp) ∧
  (∀ s n c port mac ip, s.conn n = some c →
    ∃ t, exec (.rateUpdate n c.peer port mac ip) s = .next t ∧
      t.conn n = some { c with
        paths := c.paths.map fun p =>
          if p.port = port ∧ p.mac = mac ∧ p.ip = ip then
            { p.update (rateFactor (if s.udpFraming then min p.increase.1 p.increase.2 else 0) p.increase.2 (p.queueing s.now) (s.scalar 0x3210 0xC))
                (s.scalar 0x3210 0xD) s.ccMin (s.pathTop p) with base := p.seen }
          else p }) ∧
  (∀ s n i c, s.conn n = some c →
    ∃ t, exec (.pathReadmit n i) s = .next t ∧
      t.conn n = some { c with
        paths := c.paths.modify i fun p =>
          if p.out then { p with out := false, expiries := 0, rises := 0, rate := s.ccInit } else p }) ∧
  (∀ s n c, s.conn n = some c → c.asking = true → c.creditHeld = true → s.coreRuns = true →
    ∃ t, exec (.creditAskRepeat n) s = .next t ∧ t = s.creditAsk c) ∧
  (∀ s r q o, s.req r = some q → q.remote = some o → q.live = true → s.coreRuns = true → o.backoff = true →
    ∃ t, exec (.backoffExpiry r) s = .next t ∧ t = s.launch r) ∧
  (∀ s r q o psn rest, s.req r = some q → q.remote = some o → q.live = true → s.coreRuns = true → o.backoff = false →
    o.resends = psn :: rest → o.retries < retryBudget →
    ∃ t, exec (.backoffExpiry r) s = .next t ∧
      t = ((s.modRemote q.id fun x => { x with retries := x.retries + 1 }).modRemote r fun x => { x with resends := rest }).resend
        o.conn (if o.merge then 2 else 0) psn) ∧
  (∀ s n m, ∃ t, exec (.keepalivePeriod n m) s = .next t ∧
    t = ((s.keepaliveTo n).filter (·.1 == m)).foldl (fun s x =>
      s.transmit { cls := .mgt, type := 1, dst := x.1, comp := s.compId x.2.2.2, epoch := s.compEpoch x.2.2.2,
                   payload := s.keepalivePayload } n x.2.1 x.2.2.1 s.marks) s) ∧
  (∀ (s : State) n, ∀ c ∈ s.fab.conns, ∀ x ∈ c.paths, s.portLive n = true → c.state = .opened → x.port = n →
    (∀ d ∈ s.fab.conns, ∀ y ∈ d.paths, y.port = n → y.mac = x.mac → y.ip = x.ip → y.used + s.scalar 0x3210 0xE ≤ s.now) →
    ∃ k, (c.peer, x.mac, x.ip, k) ∈ s.keepaliveTo n) ∧
  (∀ s n, s.fab.bankedPeers.Nodup →
    ∃ t, exec (.peerBankedTimeout n) s = .next t ∧ n ∉ t.fab.bankedPeers ∧
      (∀ m, m ≠ n → (m ∈ t.fab.bankedPeers ↔ m ∈ s.fab.bankedPeers)) ∧
      t = { s with fab := { s.fab with bankedPeers := t.fab.bankedPeers } })

/-- R229, R243, R251: set-up and close packets sent again and their limits, and the end of RESET and of a number's rest. -/
def Obligations.ConnectionTimersComplete : Prop :=
  (∀ s n c, s.conn n = some c → c.state = .setupSent → c.sends < maxSends →
    ∃ t, exec (.connSetupResend n) s = .next t ∧ t = (s.connSetup c).modConn n fun c => { c with sends := c.sends + 1 }) ∧
  (∀ s n c, s.conn n = some c → c.state = .setupSent → maxSends ≤ c.sends →
    ∃ t, exec (.connSetupResend n) s = .next t ∧ t = s.setupFailed c .timeout) ∧
  (∀ s n c, s.conn n = some c → c.state = .draining → 0 < c.sends → c.sends < maxSends →
    ∃ t, exec (.connCloseResend n) s = .next t ∧ t = (s.connClose c).modConn n fun c => { c with sends := c.sends + 1 }) ∧
  (∀ s n c, s.conn n = some c → c.state = .draining → 0 < c.sends → maxSends ≤ c.sends →
    ∃ t, exec (.connCloseResend n) s = .next t ∧ t = s.resetConn n .timeout) ∧
  (∀ s n c, s.conn n = some c → c.state = .reset →
    ∃ t, exec (.connResetQuietEnd n) s = .next t ∧ t = s.closeConn c c.endStatus) ∧
  (∀ s n, ∃ t, exec (.connNumberRelease n) s = .next t ∧ (∀ x ∈ t.fab.resting, x.num ≠ n) ∧
    (∀ x ∈ s.fab.resting, x.num ≠ n → x ∈ t.fab.resting) ∧ t = { s with fab := { s.fab with resting := t.fab.resting } }) ∧
  (∀ s n c, s.conn n = some c → c.state = .reset → c.sends < resetSends →
    ∃ t, exec (.connResetResend n) s = .next t ∧
      t = (s.sendAck c (s.resetPacket c)).modConn n fun c => { c with sends := c.sends + 1 }) ∧
  (∀ s n u, s.node.powered = true → n < s.variant.ports → s.inService .port n = true → s.clk.fabref = true →
    u = s.takeSpareLane n (spareLane (s.lanesOut n) (s.port n).spareFor) → u.bankedPorts n = false →
    widestMode (badLanes (s.lanesOut n) (spareLane (s.lanesOut n) (s.port n).spareFor)) = 8 →
    ∃ t, exec (.portTrainingDone n false) s = .next t ∧ t = ((u.reportPort n .up 8).capRates n).flushAll) ∧
  (∀ s n, s.node.powered = true → n < s.variant.ports →
    ∃ t, exec (.portLinkDown n 0) s = .next t ∧
      t = ((s.setPort { s.port n with bad := (s.port n).bad ||| 0 }).reportPort n .down 0).reroute n) ∧
  (∀ s n l, s.node.powered = true → n < s.variant.ports → l ≠ 0 →
    ∃ t, exec (.portLinkDown n l) s = .next t ∧
      t = ((s.setPort { s.port n with bad := (s.port n).bad ||| l }).reportPort n .training 0).reroute n)

/-! ### Queues and completions (chapter 10) -/

/-- R267, R346: the doorbells move their indexes inside the ring, and an entry that may start becomes a request. -/
def Obligations.QueueRowsComplete : Prop :=
  (∀ s ld n v w, s.wq n = some w → s.node.powered = true → w.ld = ld → w.dead = false → w.piOk v = true →
    ∃ t, exec (.piDoorbellWrite ld n v) s = .next t ∧ t.wq n = some { w with pi := v } ∧ t = { s with wqs := t.wqs }) ∧
  (∀ s ld n v w, s.wq n = some w → s.node.powered = true → w.ld = ld → w.dead = false → w.piOk v = false →
    ∃ t, exec (.piDoorbellWrite ld n v) s = .next t ∧ t = s.doorbellFault ld w.tenant) ∧
  (∀ s ld n v c, s.cq n = some c → s.node.powered = true → c.ld = ld → c.ciOk v = true →
    ∃ t, exec (.cqCiDoorbellWrite ld n v) s = .next t ∧ t.cq n = some { c with ci := v } ∧ t = { s with cqs := t.cqs }) ∧
  (∀ s n e w, s.wq n = some w → s.mayStart w = true → w.aborting = false → firstFail (s.headerChecks w e) = none →
    usesEngine e = false →
    ∃ t q, exec (.workEntryStart n e) s = .next t ∧ t.reqs = s.reqs ++ [q] ∧ q.id = s.nextReq ∧ q.origin = .queue n ∧
      q.entry = e ∧ q.tenant = w.tenant ∧ q.comp = w.comp ∧ q.phase = .started ∧ t.nextReq = s.nextReq + 1 ∧
      (t.wq n).map (·.ci) = some (w.ci + 1) ∧ t.mem = s.mem) ∧
  (∀ s n e w st, s.wq n = some w → s.mayStart w = true → w.aborting = false → firstFail (s.headerChecks w e) = some st →
    ∃ t q, exec (.workEntryStart n e) s = .next t ∧ t.reqs = s.reqs ++ [q] ∧ q.phase = .ended st 0 ∧
      (t.wq n).map (·.ci) = some (w.ci + 1)) ∧
  (∀ s r q st n, s.req r = some q → q.phase = .ended st n → s.node.powered = true → s.mayReport q = true →
    ∃ t, exec (.requestEnd r) s = .next t ∧ t = s.finish r)

/-- R294, R295: FENCE, WAIT_COUNT and its timeout. -/
def Obligations.QueueOrderComplete : Prop :=
  (∀ s r q, s.Runs r q opFENCE → s.anyLive q.after = false →
    ∃ t, exec (.fence r) s = .next t ∧ t.Ended r q .ok q.after.length ∧ t = { s with reqs := t.reqs }) ∧
  (∀ s r q, s.Runs r q opFENCE → s.anyLive q.after = true →
    ∃ t, exec (.fence r) s = .next t ∧ t.Waits r q .queueFence ∧ t = { s with reqs := t.reqs }) ∧
  (∀ s r q w, s.Runs r q opWAIT_COUNT → s.wq (wcQueue q.entry) = some w → w.tenant = q.tenant → w.dead = false →
    wcN q.entry ≤ w.ended →
    ∃ t, exec (.waitCount r) s = .next t ∧ t.Ended r q .ok w.ended ∧ t = { s with reqs := t.reqs }) ∧
  (∀ s r q w, s.Runs r q opWAIT_COUNT → s.wq (wcQueue q.entry) = some w → w.tenant = q.tenant → w.dead = false →
    w.ended < wcN q.entry →
    ∃ t, exec (.waitCount r) s = .next t ∧ t.Waits r q .waitCount ∧ t = { s with reqs := t.reqs }) ∧
  (∀ s r q n, s.req r = some q → q.origin = .queue n → q.phase = .waiting .waitCount → s.coreRuns = true →
    wcAbort q.entry = false →
    ∃ t, exec (.waitCountTimeout r) s = .next t ∧ t.Ended r q .timeout (s.watched q.entry) ∧ t = { s with reqs := t.reqs })

/-- R274, R287, R288, R289, R299: the remote operations. From a queue they are issued to the peer; at the target they run when their
turn has come. -/
def Obligations.RemoteOperationsComplete : Prop :=
  (∀ s r q n c, s.req r = some q → q.origin = .queue n → q.phase = .started → q.isLocal = false → opcodeRemoteOnly q.op = false →
    q.remote = none → s.coreRuns = true → s.stalled r = false → s.conn (hdrQp q.entry) = some c → q.op ≠ opATTEND →
    q.op ≠ opAPPEND →
    ∃ t, exec (.remoteRequest r []) s = .next t ∧ t = s.issueOn q (hdrQp q.entry) (hdrReqId q.entry) (entryBytes q.entry) 0) ∧
  (∀ s r q n d c op, (c, op) ∈ [(Instr.write r d, opWRITE), (.read r d, opREAD), (.writeImm r d, opWRITE_IMM),
      (.cas128 r d, opCAS128)] → s.req r = some q → q.op = op → q.phase = .started → q.remote = none → s.coreRuns = true →
    s.stalled r = false → q.origin = .queue n → s.gateOpen q = true →
    ∃ t, exec c s = .next t ∧ t = s.issueRemote q d) ∧
  (∀ s r q n c op, (c, op) ∈ [(Instr.fadd r, opFADD), (.swap r, opSWAP), (.cas r, opCAS), (.ledgerQuery r, opLEDGER_QUERY)] →
    s.req r = some q → q.op = op → q.phase = .started → q.remote = none → s.coreRuns = true → s.stalled r = false →
    q.origin = .queue n → s.gateOpen q = true →
    ∃ t, exec c s = .next t ∧ t = s.issueRemote q []) ∧
  (∀ s u r q n psn d g s1 s2, s.AtTarget u r q opWRITE n psn → q.inlineData.length = remLen q.entry →
    u.holdKey q (remRkey q.entry) .remoteW (remRoff q.entry) (remLen q.entry) = .ok (g, s1) →
    s1.putLocal q.payer g (remRoff q.entry) q.inlineData = .done s2 →
    ∃ t, exec (.write r d) s = .next t ∧ t = s.relined q (s2.endReq r .ok (remLen q.entry))) ∧
  (∀ s u r q n psn d g s1 bs s2, s.AtTarget u r q opREAD n psn →
    u.holdKey q (remRkey q.entry) .remoteR (remRoff q.entry) (remLen q.entry) = .ok (g, s1) →
    s1.takeFrom q.payer g (remRoff q.entry) (remLen q.entry) d = .ok (some (bs, s2)) →
    ∃ t, exec (.read r d) s = .next t ∧ t = s.relined q ((s2.modReq r fun q => { q with reply := bs }).endReq r .ok (remLen q.entry))) ∧
  (∀ s u r q n psn d, s.AtTarget u r q opWRITE_IMM n psn → q.inlineData = [] → remLen q.entry = 0 → q.accepted = false →
    u.cqHasFree (u.rcqOf q).2.1 1 = true →
    ∃ t, exec (.writeImm r d) s = .next t ∧
      t = s.relined q (((u.reserveCq (u.rcqOf q).2.1 1).notifyReserved (u.rcqOf q).2.1 opWRITE_IMM .ok (u.rcqOf q).1 (u.rcqOf q).2.2 q.wireId
        (remImm q.entry)).endReq r .ok 0)) ∧
  (∀ s u r q n psn op c new g s1 s2 old s3 s4, s.AtTarget u r q op n psn →
    (c, op, new) ∈ [(Instr.fadd r, opFADD, (leVal old + remOpa q.entry) % 2 ^ 64), (.swap r, opSWAP, remOpa q.entry)] →
    u.holdKey q (remRkey q.entry) .remoteA (remRoff q.entry) 8 = .ok (g, s1) → s1.withLedger n = .got () s2 →
    s2.loadTenant q.payer (g.base + remRoff q.entry) 8 = .ok (old, s3) →
    s3.writeTenant q.payer (g.base + remRoff q.entry) (leBytes 8 new) = .done s4 →
    ∃ t, exec c s = .next t ∧ t = s.relined q (atomicDone s4 q 8 (leVal old) (leVal old) [])) ∧
  (∀ s u r q n psn g s1 s2 old s3 s4, s.AtTarget u r q opCAS n psn →
    u.holdKey q (remRkey q.entry) .remoteA (remRoff q.entry) 8 = .ok (g, s1) → s1.withLedger n = .got () s2 →
    s2.loadTenant q.payer (g.base + remRoff q.entry) 8 = .ok (old, s3) → leVal old = remOpb q.entry →
    s3.writeTenant q.payer (g.base + remRoff q.entry) (leBytes 8 (remOpa q.entry)) = .done s4 →
    ∃ t, exec (.cas r) s = .next t ∧ t = s.relined q (atomicDone s4 q 8 (leVal old) (leVal old) [])) ∧
  (∀ s u r q n psn g s1 s2 old s3, s.AtTarget u r q opCAS n psn →
    u.holdKey q (remRkey q.entry) .remoteA (remRoff q.entry) 8 = .ok (g, s1) → s1.withLedger n = .got () s2 →
    s2.loadTenant q.payer (g.base + remRoff q.entry) 8 = .ok (old, s3) → leVal old ≠ remOpb q.entry →
    s3.xlateStatus q.tenant (g.base + remRoff q.entry) 8 .write = .ok →
    ∃ t, exec (.cas r) s = .next t ∧ t = s.relined q (atomicDone s3 q 8 (leVal old) (leVal old) [])) ∧
  (∀ s u r q n psn d g s1 s2 old s3 s4, s.AtTarget u r q opCAS128 n psn → q.inlineData.length = 32 →
    u.holdKey q (remRkey q.entry) .remoteA (remRoff q.entry) 16 = .ok (g, s1) → s1.withLedger n = .got () s2 →
    s2.loadTenant q.payer (g.base + remRoff q.entry) 16 = .ok (old, s3) → old = q.inlineData.take 16 →
    s3.writeTenant q.payer (g.base + remRoff q.entry) (q.inlineData.drop 16) = .done s4 →
    ∃ t, exec (.cas128 r d) s = .next t ∧ t = s.relined q (atomicDone s4 q 16 (leVal old) 1 old)) ∧
  (∀ s u r q n psn g s1 bs s2, s.AtTarget u r q opLEDGER_QUERY n psn → remLen q.entry = 8 →
    u.holdKey q (remRkey q.entry) .remoteA (remRoff q.entry) 8 = .ok (g, s1) →
    s1.loadTenant q.payer (g.base + remRoff q.entry) 8 = .ok (bs, s2) →
    ∃ t, exec (.ledgerQuery r) s = .next t ∧ t = s.relined q (s2.endReq r .ok (leVal bs)))

/-! ### Connections, regions and the remote window (chapters 9, 10, 12) -/

/-- R276, R277, R279, R280, R283, R285: CONNECT, DISCONNECT, REG, REVOKE, and the connection contexts. -/
def Obligations.ConnectAndRegionComplete : Prop :=
  (∀ s r q c n, s.Runs r q opCONNECT → firstFail (s.connectChecks q) = none → s.compById (cnComp q.entry) = some c →
    s.freeRun (cnRun q.entry) = some n →
    ∃ t, exec (.connect r) s = .next t ∧
      t = ((s.setupRun q c.slot n (cnRun q.entry)).modReq r fun q => { q with count := n }).waitReq r .connect) ∧
  (∀ s r q c, s.Runs r q opDISCONNECT → s.conn (hdrQp q.entry) = some c → c.tenant = q.tenant → c.state = .opened →
    ∃ t, exec (.disconnect r) s = .next t ∧ t = ((s.lostFromRun c .timeout).waitReq r (.disconnect c.num)).drainConn c.num) ∧
  (∀ s r q slot, s.Runs r q opREG → firstFail (s.regChecks q) = none →
    lowestFree (s.fab.regions.map (·.slot)) maxRegions = some slot →
    ∃ t, exec (.reg r) s = .next t ∧ t.Ended r q .ok (slot * 256 + (s.regionGen slot).gen) ∧
      t.fab.regions = s.fab.regions ++ [regionOf q.tenant q.entry slot (s.regionGen slot).gen] ∧ t.mem = s.mem) ∧
  (∀ s r q g, s.Runs r q opREVOKE → q.accepted = false → s.region (rvKey q.entry / 256) = some g → rvKey q.entry % 256 ≠ 0 →
    g.gen = rvKey q.entry % 256 → g.tenant = q.tenant → s.regionUses (rvKey q.entry / 256) = 0 →
    ∃ t, exec (.revoke r) s = .next t ∧ t.Ended r q .ok 0 ∧ t.fab.regions.find? (·.slot == rvKey q.entry / 256) = none) ∧
  (∀ s r q g, s.Runs r q opREVOKE → q.accepted = false → s.region (rvKey q.entry / 256) = some g → rvKey q.entry % 256 ≠ 0 →
    g.gen = rvKey q.entry % 256 → g.tenant = q.tenant → 0 < s.regionUses (rvKey q.entry / 256) →
    ∃ t, exec (.revoke r) s = .next t ∧
      t = ((s.advanceRegion g).modReq r fun y => { y with count := s.regionUses (rvKey q.entry / 256) + 1 }).accept r []) ∧
  (∀ s n c s1 u v, s.conn n = some c → c.fetching = true → s.ctxDmaOk = true → s.contextRoom (s.homeDie n) = some s1 →
    u = s1.modConn n (fun c => { c with cached := true, fetching := false, lastUse := s1.now }) →
    v = (u.reqs.filter fun q => q.live && q.remote.any fun o => o.held && o.conn == n).foldl (fun s q => s.launch q.id) u →
    ∃ t, exec (.contextFetchDone n) s = .next t ∧
      t = (v.fab.missBuf.filter (·.conn == n)).foldl State.rxWaiting
        { v with fab := { v.fab with missBuf := dropWhere (·.conn == n) v.fab.missBuf } }) ∧
  (∀ s d c, s.evictable d = some c → dieContexts ≤ s.cachedOn d →
    s.fab.conns.any (fun c => c.fetching && s.homeDie c.num == d) = true →
    ∃ t, exec (.contextWriteback d) s = .next t ∧ t = (s.modConn c.num fun c => { c with cached := false }).count 0x6400 4)

/-- R301, R302, R303, R347: WIN_BIND, window reads and writes, WINSYNC, and the limit of a window read. -/
def Obligations.WindowRowsComplete : Prop :=
  (∀ s r q, s.Runs r q opWIN_BIND → q.accepted = false → wbRbase q.entry % 64 = 0 → wbNqp q.entry = 0 →
    (∀ o ∈ s.fab.winOps, ¬ (o.tenant = q.tenant ∧ o.slot = wbSlot q.entry)) →
    ∃ t, exec (.winBind r) s = .next t ∧ t.Ended r q .ok 0 ∧ t.window q.tenant (wbSlot q.entry) = none) ∧
  (∀ s r q, s.Runs r q opWIN_BIND → q.accepted = false → wbRbase q.entry % 64 = 0 → 0 < wbNqp q.entry → wbNqp q.entry ≤ 16 →
    s.windowQps q.tenant (wbQp0 q.entry) (wbNqp q.entry) = true →
    (∀ o ∈ s.fab.winOps, ¬ (o.tenant = q.tenant ∧ o.slot = wbSlot q.entry)) →
    ∃ t, exec (.winBind r) s = .next t ∧ t.Ended r q .ok 0 ∧
      t.window q.tenant (wbSlot q.entry) =
        some ⟨q.tenant, wbSlot q.entry, wbRbase q.entry, wbRkey q.entry, wbQp0 q.entry, wbNqp q.entry⟩) ∧
  (∀ s ld n a x w ap c wr ctr, (c, wr, ctr) ∈ [(Instr.windowRead ld n a, (none : Option (BitVec 512)), 0xA),
      (.windowWrite ld n a x, some x, 0xB)] → s.windowAperture ld n = some ap → a < ap.length → s.node.powered = true →
    s.coreRuns = true → s.window n (winSlot a) = some w →
    ∃ t, exec c s = .next t ∧
      t = ({ s.count 0x6400 ctr with
             fab := { s.fab with
               winOps := s.fab.winOps ++ [{ id := s.fab.nextWin, ld := ld, tenant := n, qp := w.qpFor (winOff a),
                                            dpa := ap.base + a, addr := a, slot := w.slot, rbase := w.rbase, rkey := w.rkey,
                                            write := wr }],
               nextWin := s.fab.nextWin + 1 } } : State).winPump) ∧
  (∀ s ld n, s.node.powered = true → s.tenantLd n = ld →
    ∃ t, exec (.winsyncRead ld n) s = .next t ∧
      t = ({ s with fab := { s.fab with
        winSyncs := s.fab.winSyncs ++
          [{ ld := ld, tenant := n,
             waitFor := (s.fab.winOps.filter fun o => o.tenant == n && o.taken && o.write.isSome).map (·.id),
             failed := assocGet s.fab.winFails n 0 }],
        winFails := assocPut s.fab.winFails n 0 0 } } : State).winSyncs) ∧
  (∀ s i o, s.fab.winOps.find? (·.id == i) = some o → o.write = none → o.late = false → o.taken = true →
    ∃ t, exec (.winLimitExpiry i) s = .next t ∧
      t = ((((s.undefLine o.ld).count 0x6400 0xD).vendorRecord o.ld vcWindow false o.tenant o.dpa o.addr).raiseTenant o.tenant
        kindWindow).modWinOp i fun o => { o with late := true })

/-! ### Tenants, compositions and loans (chapter 11) -/

/-- R319, R323, R324, R327, R329, R332: QUENCH, ANNEAL and its deadline, the end of zeroing, a released composition and its old map, and a
scheduler sample. -/
def Obligations.LoanRowsComplete : Prop :=
  (∀ s r q c, s.Runs r q opQUENCH → firstFail (s.reclaimChecks q) = none → s.loanComp q.entry = some c →
    ∃ t, exec (.quench r) s = .next t ∧ t = (s.quenchLoan c .revoked).2.okReq q (s.quenchLoan c .revoked).1) ∧
  (∀ s r q c, s.Runs r q opANNEAL → q.accepted = false → firstFail (s.reclaimChecks q) = none → s.loanComp q.entry = some c →
    firstFail (s.annealChecks q c) = none →
    ∃ t, exec (.anneal r) s = .next t ∧ t = s.annealAccept q c) ∧
  (∀ s r q, s.req r = some q → q.op = opANNEAL → q.accepted = true → q.live = true → s.coreRuns = true →
    ∃ t, exec (.anneal r) s = .next t ∧ t = s.annealGo q) ∧
  (∀ s k c, s.comp k = some c → c.state = .annealing → s.coreRuns = true →
    ∃ t, exec (.annealDeadlineExpiry k) s = .next t ∧ t = (s.quenchLoan c .timeout).2) ∧
  (∀ s n x, s.tenant n = some x → x.state = .zeroing → s.coreRuns = true →
    ∃ t u, exec (.zeroingDone n) s = .next t ∧ u = (s.mem.quar.filter (·.tenant == n)).foldl State.endQuarantine s ∧
      t = ((({ u with tenants := dropWhere (·.id == n) u.tenants } : State).unbindSources n).endTenantSubs n).clearTenant n) ∧
  (∀ s k c, s.comp k = some c → s.node.powered = true → c.state = .releasing → s.mapUses k (fun _ => true) = 0 →
    ∃ t, exec (.compositionFreed k) s = .next t ∧ t = s.freeComp k ∧ t.comp k = none) ∧
  (∀ s k c m, s.comp k = some c → c.oldMap = some m → s.node.powered = true → s.oldInflight k = 0 →
    ∃ t, exec (.compMapReleased k) s = .next t ∧ t = (s.modComp k fun c => { c with oldMap := none }).raise srcCompMapReleased) ∧
  (∀ s, s.node.powered = true →
    ∃ t, exec .schedSample s = .next t ∧ t = { s with tenants := s.tenants.map s.sampleTenant })

/-! ### CXL attachment (chapter 12) -/

/-- R338, R341: host memory accesses through the decoders, and a decoder's COMMIT. -/
def Obligations.CxlAccessComplete : Prop :=
  (∀ s ld hpa dpa, s.linkCarries ld = true → (s.ld ld).decode hpa = some dpa →
    ∃ t, exec (.cxlMemRead ld hpa) s = .next t ∧ t = s.dpaAccess ld dpa none) ∧
  (∀ s ld hpa dpa x, s.linkCarries ld = true → (s.ld ld).decode hpa = some dpa →
    ∃ t, exec (.cxlMemWrite ld hpa x false) s = .next t ∧ t = s.dpaAccess ld dpa (some x)) ∧
  (∀ s ld hpa dpa x, s.linkCarries ld = true → (s.ld ld).decode hpa = some dpa →
    ∃ t, exec (.cxlMemWrite ld hpa x true) s = .next t ∧
      t = ((s.count (0x3230 + ld) 6).logRecord ld logWarn (.media true dpa)).emit (.hostDone ld)) ∧
  (∀ s ld d b n k w, s.ldPresent ld = true → d < 4 → (s.ld ld).decoderOk d b n k w = true →
    ∃ t, exec (.hdmDecoderCommit ld d b n k w) s = .next t ∧
      t = s.modLd ld fun l => { l with decoders := l.decoders.set d { base := b, size := n, skip := k, committed := true } }) ∧
  (∀ s ld d b n k w, s.ldPresent ld = true → d < 4 → (s.ld ld).decoderOk d b n k w = false →
    ((s.ld ld).decoders.getD d {}).committed = false →
    ∃ t, exec (.hdmDecoderCommit ld d b n k w) s = .next t ∧
      t = s.modLd ld fun l => { l with decoders := l.decoders.set d { base := b, size := n, skip := k, error := true } })

/-- R338, R342, R343, R344, R348, R362: the mailbox's standard commands. Each puts its return code and payload into the mailbox of its LD. -/
def Obligations.MailboxStandardComplete : Prop :=
  (∀ s ld, s.linkCarries ld = true →
    (∃ t, exec (.identify ld) s = .next t ∧
      t = (s.mboxTake ld 0x0001).mbox ld rcSuccess (Config.cxlPayload 0x0001 [0x1FC5, s.variant.deviceId, ld])) ∧
    (∃ t, exec (.getSupportedLogs ld) s = .next t ∧ t = (s.mboxTake ld 0x0400).mbox ld rcSuccess (Config.cxlPayload 0x0400 [effectsLog])) ∧
    (∃ t, exec (.identifyMemoryDevice ld) s = .next t ∧
      t = (s.mboxTake ld 0x4000).mbox ld rcSuccess (Config.cxlPayload 0x4000 [s.volatileBytes ld])) ∧
    (∃ t, exec (.getHealthInfo ld) s = .next t ∧
      t = (s.mboxTake ld 0x4200).mbox ld rcSuccess (Config.cxlPayload 0x4200 [s.health.toNat])) ∧
    (∃ t, exec (.getTimestamp ld) s = .next t ∧ t = (s.mboxTake ld 0x0300).mbox ld rcSuccess (leBytes 8 s.timestamp.toNat)) ∧
    (∃ t, exec (.getEventInterruptPolicy ld) s = .next t ∧ t = (s.mboxTake ld 0x0102).mbox ld rcSuccess (Config.cxlPayload 0x0102
      ((List.range 5).map fun k => policyEntry (s.routeEntry (srcLd ld k))))) ∧
    (∃ t, exec (.getDynamicCapacityConfiguration ld) s = .next t ∧ t = (s.mboxTake ld 0x4800).mbox ld rcSuccess (Config.cxlPayload 0x4800
      ((List.range 8).flatMap fun r => [2 ^ 48 * (r + 1), 2 ^ 48, dcBlock]))) ∧
    (∃ t xs, exec (.getDynamicCapacityExtentList ld) s = .next t ∧ xs = (s.ld ld).extents.filter (·.accepted) ∧
      t = (s.mboxTake ld 0x4801).mbox ld rcSuccess (Config.cxlPayload 0x4801 [xs.length] ++ xs.flatMap (s.extentReport ld)))) ∧
  (∀ s ld, s.linkCarries ld = true → (s.ld ld).background = none →
    ∃ t, exec (.backgroundOperationStatus ld) s = .next t ∧
      t = (s.mboxTake ld 0x0002).mbox ld rcSuccess (Config.cxlPayload 0x0002 [])) ∧
  (∀ s ld b, s.linkCarries ld = true → (s.ld ld).background = some b → b.reported = false →
    ∃ t, exec (.backgroundOperationStatus ld) s = .next t ∧
      t = (s.mboxTake ld 0x0002).mbox ld rcSuccess (Config.cxlPayload 0x0002 [b.op, 0])) ∧
  (∀ s ld b st, s.linkCarries ld = true → (s.ld ld).background = some b → b.reported = true → b.status = some st →
    ∃ t, exec (.backgroundOperationStatus ld) s = .next t ∧
      t = (s.mboxTake ld 0x0002).mbox ld rcSuccess (Config.cxlPayload 0x0002 [b.op, 100] ++ BitVec.ofNat 8 st.code :: b.output)) ∧
  (∀ s ld v, s.linkCarries ld = true →
    ∃ t, exec (.setTimestamp ld v) s = .next t ∧ t.clk = { s.clk with stamp := v, stampAt := s.clk.ltime } ∧
      t = ({ s.mboxTake ld 0x0301 with clk := t.clk } : State).mbox ld rcSuccess) ∧
  (∀ s ld off n, s.linkCarries ld = true → off + n ≤ (Config.cxlPayload effectsLog mboxOpcodes).length →
    ∃ t, exec (.getLog ld off n) s = .next t ∧
      t = (s.mboxTake ld 0x0401).mbox ld rcSuccess (((Config.cxlPayload effectsLog mboxOpcodes).drop off).take n)) ∧
  (∀ s ld k, s.linkCarries ld = true → k ≤ logDcd →
    ∃ t, exec (.getEventRecords ld k) s = .next t ∧
      t = (s.mboxTake ld 0x0100).mbox ld rcSuccess (Config.cxlPayload 0x0100 [k, ((s.ld ld).log.filter (·.log == k)).length] ++
        ((s.ld ld).log.filter (·.log == k)).flatMap LogRec.bytes)) ∧
  (∀ s ld k hs, s.linkCarries ld = true → k ≤ logDcd →
    ∃ t, exec (.clearEventRecords ld k hs true) s = .next t ∧
      t = ((s.mboxTake ld 0x0101).modLd ld fun l => { l with log := dropWhere (·.log == k) l.log }).mbox ld rcSuccess) ∧
  (∀ s ld k hs, s.linkCarries ld = true → k ≤ logDcd → (∀ h ∈ hs, ∃ r ∈ (s.ld ld).log, r.log = k ∧ r.handle = h) →
    ∃ t, exec (.clearEventRecords ld k hs false) s = .next t ∧
      t = ((s.mboxTake ld 0x0101).modLd ld fun l =>
        { l with log := dropWhere (fun r => r.log == k && hs.contains r.handle) l.log }).mbox ld rcSuccess) ∧
  (∀ s ld k e, s.linkCarries ld = true → k ≤ logDcd → e < 2048 → bit (s.targets ld) (e / 32) = true →
    ∃ t, exec (.setEventInterruptPolicy ld k e) s = .next t ∧
      t = (((s.mboxTake ld 0x0103).setRoute (srcLd ld k) (policyRoute (s.routeEntry (srcLd ld k)) e)).rerouteWaiting (· == srcLd ld k)).mbox
        ld rcSuccess) ∧
  (∀ s ld rs, s.linkCarries ld = true → (acceptExtents (s.goneBlocks ld) (s.ld ld).extents rs).isSome = true →
    ∃ t, exec (.addDynamicCapacityResponse ld rs) s = .next t ∧
      t = ((s.mboxTake ld 0x4802).dcResponse ld (true, rs)).mbox ld rcSuccess) ∧
  (∀ s ld rs, s.linkCarries ld = true →
    ∃ t, exec (.releaseDynamicCapacity ld rs) s = .next t ∧ t = ((s.mboxTake ld 0x4803).dcResponse ld (false, rs)).mbox ld rcSuccess) ∧
  (∀ s ld op, s.linkCarries ld = true → op ∉ mboxOpcodes →
    ∃ t, exec (.unsupportedMailboxCommand ld op) s = .next t ∧ t = (s.mboxTake ld op).mbox ld rcUnsupported)

/-! ### Vendor mailbox commands and the firmware commands (chapters 12, 15) -/

/-- R348, R350, R351, R352, R353, R354: the vendor mailbox commands, under the checks of R349; `v` is the state that has taken the command. -/
def Obligations.MailboxVendorComplete : Prop :=
  (∀ s v ld p n, s.linkCarries ld = true → s.isBanked = false → p.length = 32 → v = s.mboxTake ld 0xC100 →
    firstFail (v.queueChecks ld (queueSpec p)) = none → v.queueNumber (queueSpec p) = some n →
    ∃ t, exec (.queueCreate ld p) s = .next t ∧ t = (v.enterQueue ld n (queueSpec p)).vendorReply ld .ok
      ([0] ++ leBytes 2 n ++ leBytes 4 (queuePage (queueSpec p).kind n))) ∧
  (∀ s v ld p u, s.linkCarries ld = true → s.isBanked = false → (s.ld ld).busy = false → p.length = 4 → v = s.mboxTake ld 0xC101 →
    firstFail (v.destroyChecks ld (queueArg p)) = none →
    (u = if queueArg p / 65536 = 0 then v.modWq (queueArg p) fun w => { w with stopped := true } else v) →
    ∃ t, exec (.queueDestroy ld p) s = .next t ∧ t = u.startBackground ld 0xC101 (queueArg p)) ∧
  (∀ s v ld p k, s.linkCarries ld = true → s.isBanked = false → p.length = 24 → k = pfield p 0 1 → areaPermitted s ld k = true →
    v = s.mboxTake ld 0xC200 → k ≤ 2 → pfield p 1 7 = 0 → v.areaHeld ld k = false → pfield p 8 8 % 2097152 = 0 →
    pfield p 16 8 % 2097152 = 0 → (areaLength k).1 ≤ pfield p 16 8 → pfield p 16 8 ≤ (areaLength k).2 →
    ∃ t, exec (.areaGrant ld p) s = .next t ∧ t = (v.grant ld k (pfield p 8 8) (pfield p 16 8)).vendorReply ld .ok [0, 0, 0]) ∧
  (∀ s v ld p k, s.linkCarries ld = true → s.isBanked = false → (s.ld ld).busy = false → p.length = 4 → k = pfield p 0 1 →
    areaPermitted s ld k = true → v = s.mboxTake ld 0xC201 → k ≤ 2 → v.areaHeld ld k = true → (k ≠ 1 → v.areaUsed ld k = false) →
    ∃ t, exec (.areaReclaim ld p) s = .next t ∧
      t = if k = 1 then ((v.modMem fun m => { m with swapClosing := true }).restoreAll).startBackground ld 0xC201 k
        else (v.ungrant ld k).startBackground ld 0xC201 k (some .ok) [0, 0, 0]) ∧
  (∀ s ld p, s.linkCarries ld = true → s.isBanked = false → (s.ld ld).busy = false → p.length = 64 → ld = s.mgmtLd →
    hdrOpcode (reclaimEntry p) ∈ [opQUENCH, opANNEAL] → pfield p 1 15 = 0 →
    ∃ t, exec (.reclaim ld p) s = .next t ∧ t = (s.mboxTake ld 0xC300).startReclaim ld (reclaimEntry p)) ∧
  (∀ s ld b, (s.ld ld).background = some b → s.node.powered = true → b.reported = false →
    ∃ t, exec (.backgroundCommandDone ld) s = .next t ∧ t = s.backgroundDone ld b) ∧
  (∀ s ld f x, s.node.powered = true → s.linkCarries ld = true → s.node.recovery = false → f.payload.length = f.len →
    x = (s.mboxTake ld 0xC000).vop { f with route := .mailbox ld } →
    ∃ t, exec (.vopFrame ld f) s = .next t ∧ t = x.2.mbox ld rcSuccess (x.1.getD [])) ∧
  (∀ s ld f, s.linkCarries ld = true → s.node.recovery = false → f.payload.length ≠ f.len →
    ∃ t, exec (.vopFrame ld f) s = .next t ∧ t = (s.mboxTake ld 0xC000).mbox ld rcLength)

/-- R355, R417, R418, R423: the firmware commands on the management LD, the DOE rows, and an assay with its quote. -/
def Obligations.FirmwareAndAssayComplete : Prop :=
  (∀ s ld, s.linkCarries ld = true → ld = s.mgmtLd →
    ∃ t, exec (.getFwInfo ld) s = .next t ∧ t = (s.mboxTake ld 0x0200).mbox ld rcSuccess (Config.cxlPayload 0x0200
      [2, b2n s.trust.runningB, b2n s.trust.activeB, s.slotVersion false, s.slotVersion true])) ∧
  (∀ s v ld off bs u, s.linkCarries ld = true → ld = s.mgmtLd → s.activating = false →
    (∀ x ∈ s.mgmt.staged, x.index = 0x7100 → x.session = mailboxSession) → off + bs.length ≤ stageBytes → v = s.mboxTake ld 0x0201 →
    u = ((v.modMgmt fun m => m.stage mailboxSession 0x7100 6 (bs.zipIdx.map fun x => (off + x.2, x.1))).setScalar 0x7100
      stageState 1).modLd ld (fun l => { l with transfer := true }) →
    ∃ t, exec (.transferFw ld off bs false) s = .next t ∧ t = u.mbox ld rcSuccess) ∧
  (∀ s v ld on, s.linkCarries ld = true → ld = s.mgmtLd → s.activating = false → s.recalibrating = false →
    s.node.warmRunning = false → s.scalar 0x7100 stageState = 2 → v = s.mboxTake ld 0x0202 →
    ∃ t, exec (.activateFw ld on) s = .next t ∧
      t = if on then (((v.setScalar 0x7100 activateState 1).setCause causeActivation true).mbox ld rcSuccess).endSessions
        else (({ v with trust := { v.trust with activeB := v.idleSlot } } : State).flashWrite).mbox ld rcSuccess) ∧
  (∀ s ld i p, s.linkCarries ld = true → doeProtocols[i]? = some p →
    ∃ t, exec (.doeDiscovery ld i) s = .next t ∧ t = s.emit (.doe ld
      (leBytes 2 p.1 ++ leBytes 1 p.2 ++ leBytes 1 (if i + 1 < doeProtocols.length then i + 1 else 0)))) ∧
  (∀ s ld h, s.linkCarries ld = true →
    ∃ t, exec (.cdatTableAccess ld h) s = .next t ∧
      t = s.emit (.doe ld (Config.cxlPayload 0xCDA7 (h :: (s.cdatEntries ld).flatMap fun e => [e.1, e.2, 280, 128])))) ∧
  (∀ s n p u, s.Arrives p .mgt 7 → p.src = n → u = (s.heard p).accepted → firstFail (u.assayChecks (.pyvas n) none p.payload) = none →
    ∃ t, exec (.assayRequest (.pyvas n) ⟨p.payload, p⟩) s = .next t ∧
      t = { u with trust := { u.trust with
        quotes := u.trust.quotes ++ [⟨u.trust.nextQuote, .pyvas n, 0,
          u.quoteBody (leVal (slice p.payload 5 1) == 1) (leVal (slice p.payload 6 2)) (slice p.payload 8 32)⟩],
        nextQuote := u.trust.nextQuote + 1 } }) ∧
  (∀ s ld bs p, s.node.powered = true → s.linkCarries ld = true → firstFail (s.assayChecks (.doe ld) none bs) = none →
    ∃ t, exec (.assayRequest (.doe ld) ⟨bs, p⟩) s = .next t ∧
      t = { s with trust := { s.trust with
        quotes := s.trust.quotes ++ [⟨s.trust.nextQuote, .doe ld, 0,
          s.quoteBody (leVal (slice bs 5 1) == 1) (leVal (slice bs 6 2)) (slice bs 8 32)⟩],
        nextQuote := s.trust.nextQuote + 1 } }) ∧
  (∀ s id q u, s.trust.quotes.find? (·.id == id) = some q →
    u = { s with trust := { s.trust with quotes := dropWhere (·.id == id) s.trust.quotes } } →
    ∃ t, exec (.quoteReady id) s = .next t ∧
      t = u.assayReply q.route q.session (assayHead .ok ++ q.body ++ deviceSign q.body))

/-! ### Event banks, attention registers and the PCIe functions (chapters 12, 13, 17) -/

/-- R366, R367, R369: a write of one of an LD's event banks reaches exactly the sources its set bits name. -/
def Obligations.EventBanksComplete : Prop :=
  (∀ s ld word v, s.linkCarries ld = true →
    (∃ t, exec (.pendSet ld word v) s = .next t ∧ t = (s.wordSources ld word v).foldl State.bankSet s) ∧
    (∃ t, exec (.pendClr ld word v) s = .next t ∧ t = (s.wordSources ld word v).foldl State.bankClr s) ∧
    (∃ t, exec (.maskSet ld word v) s = .next t ∧ t = (s.wordSources ld word v).foldl State.bankMask s) ∧
    (∃ t, exec (.maskClr ld word v) s = .next t ∧ t = (s.wordSources ld word v).foldl State.bankUnmask s)) ∧
  (∀ s ld v, s.linkCarries ld = true →
    (∃ t, exec (.fpendSet ld v) s = .next t ∧ t = (s.slotSources ld v).foldl State.bankSet s) ∧
    (∃ t, exec (.fpendClr ld v) s = .next t ∧ t = (s.slotSources ld v).foldl State.bankClr s) ∧
    (∃ t, exec (.fmaskSet ld v) s = .next t ∧ t = (s.slotSources ld v).foldl State.bankMask s) ∧
    (∃ t, exec (.fmaskClr ld v) s = .next t ∧ t = (s.slotSources ld v).foldl State.bankUnmask s))

/-- R371, R373, R454, R455: CURPRIO, the EVIN pins, MSI-X and bus mastering, and the resets of the attachment. -/
def Obligations.AttachmentPinsComplete : Prop :=
  (∀ s ld k v u, s.linkCarries ld = true → bit (s.targets ld) k = true → u = s.setTarget { s.target k with curprio := v } →
    ∃ t, exec (.curprioWrite ld k v) s = .next t ∧
      t = if v.toNat < (s.target k).curprio.toNat then u.rerouteWaiting (fun _ => true) else u) ∧
  (∀ s i, s.node.powered = true → i < 2 →
    (s.node.pins.getLsbD (pinEvin i) = false →
      ∃ t, exec (.evinPinActive i true) s = .next t ∧
        t = (if bit ((s.setPin (pinEvin i) true).scalar 0x3300 2) i && (s.setPin (pinEvin i) true).pendOf (srcEvin i) then
          (s.setPin (pinEvin i) true).countEdge i else s.setPin (pinEvin i) true).raise (srcEvin i)) ∧
    ∃ t, exec (.evinPinActive i false) s = .next t ∧ t = s.setPin (pinEvin i) false) ∧
  (∀ s ld, s.ldPresent ld = true →
    (∀ on mk u, u = s.modLd ld (fun l => { l with msixOn := on, msixMask := mk }) →
      ∃ t, exec (.msixControlWrite ld (.function on mk)) s = .next t ∧
        t = if on && !mk then (u.sendAllHeld ld).rerouteWaiting fun src => u.sourceLd src == ld else u) ∧
    (∀ i mk, i < 2048 → ∃ t, exec (.msixControlWrite ld (.entry i mk)) s = .next t ∧
      t = if mk then s.modLd ld fun l => { l with vecMask := putBit l.vecMask i true } else s.unmaskEntry ld i) ∧
    (∀ on, ∃ t, exec (.busMasterEnableWrite ld on) s = .next t ∧ t = s.modLd ld fun l => { l with busMaster := on })) ∧
  (∀ s ld, s.linkCarries ld = true →
    (∃ t, exec (.functionLevelReset ld) s = .next t ∧ t = s.functionReset ld) ∧
    ∃ t, exec (.cxlReset ld) s = .next t ∧ t = s.cxlReset ld) ∧
  (∀ s, s.node.powered = true →
    (s.node.pins.getLsbD pinPerst = false → ∃ t, exec .perstNAssert s = .next t ∧
      t = ((List.range s.ldCount).foldl State.cxlReset (s.setPin pinPerst true)).modNode fun n => { n with linkUp := false }) ∧
    ∃ t, exec .perstNRelease s = .next t ∧ t = s.setPin pinPerst false)

/-! ### Management frames under a session (chapters 14, 15) -/

/-- R313, R317, R322, R324, R337, R339, R365, R393, R397, R402, R404, R423, R465: a COMMIT by
role 0 of values its own session staged. When the index's rule answers OK with state `v`, the frame is answered OK from `v`; each row's frames name an index of its own range. -/
def Obligations.ManagementCommitsComplete : Prop :=
  (∀ s f x c u v, s.InSession f x → s.Commits f x c u → u.commitIndex f.index c = (.ok, v) →
    (∀ r p, (r, p) ∈ [(Instr.tenantAdminCommit, inRun 0x4000 0x1000), (Instr.tenantLimitsCommit, inRun 0x4000 0x1000),
        (Instr.compositionAdminCommit, inRun 0x5000 0x400), (Instr.mapCommit, inRun 0x5000 0x400),
        (Instr.apertureCommit, inRun 0x3230 16), (Instr.ldConfigCommit, inRun 0x3230 17), (Instr.routesCommit, (· == 0x3300)),
        (Instr.unitAdminCommit, inRun 0x3000 7), (Instr.calibrationCommit, inRun 0x2000 5),
        (Instr.rehearsalCommit, inRun 0x7000 17), (Instr.stageCommit, (· == 0x7100)),
        (Instr.governorLimitsCommit, fun i => i == 0x2100 || i == 0x2102 || i == 0x2002), (Instr.vopCommit, fun _ => true)] →
      p f.index = true → ∃ t, exec (r f) s = .next t ∧ t = answered s x f ⟨.ok, v, [], false, none⟩))

/-- R313, R317, R322, R324, R337, R365, R397, R404, R423, R464: what the COMMIT of an index does when its rule's checks hold. -/
def Obligations.CommitEffects : Prop :=
  (∀ (s : State) n (c : Changes), s.tenant n = none → n < 4096 → firstFail (s.tenantChecks n c) = none → c.has 2 = true →
    s.would c (0x4000 + n) 2 = 1 → s.isBanked = false →
    (∀ v, s.activateTenant n c = some v → s.commitIndex (0x4000 + n) c = (.ok, v)) ∧
    (s.activateTenant n c = none → s.commitIndex (0x4000 + n) c = (.capacity, s))) ∧
  (∀ (s : State) n (c : Changes) y, s.tenant n = some y → n < 4096 → y.state = .active → firstFail (s.tenantChecks n c) = none →
    (c.has 2 = true → s.would c (0x4000 + n) 2 ≠ 0 ∨ n ≠ 0) →
    s.commitIndex (0x4000 + n) c = (.ok, if c.has 2 ∧ s.would c (0x4000 + n) 2 = 0 then (s.applyTenant n c).freeTenant n
      else s.applyTenant n c)) ∧
  (∀ (s : State) k (c : Changes), s.comp k = none → k < 1024 → firstFail (s.compChecks k c true) = none → c.has 4 = true → s.would c (0x5000 + k) 4 = 1 →
    (s.would c (0x5000 + k) 3 = 1 → s.noRegion (s.would c (0x5000 + k) 2) = false) → s.mapDecides k c = none →
    s.commitIndex (0x5000 + k) c = (.ok, if c.has 6 then (s.activateComp k (noMap c)).takeMap k (s.stagedMap (0x5000 + k) c)
      else s.activateComp k (noMap c))) ∧
  (∀ (s : State) k (c : Changes) y u, s.comp k = some y → y.slot = k → k < 1024 → y.state = .active → y.loan = false →
    s.compFixed y c = true → firstFail (s.compChecks k c false) = none → s.mapDecides k c = none →
    u = (if c.has 6 then (s.applyChanges (0x5000 + k) (noMap c)).takeMap k (s.stagedMap (0x5000 + k) c)
      else s.applyChanges (0x5000 + k) (noMap c)) →
    s.commitIndex (0x5000 + k) c = (.ok, if c.has 4 && s.would c (0x5000 + k) 4 == 0 then u.releaseComp y else u)) ∧
  (∀ (s : State) ld (c : Changes), ld < 16 → (s.would c (0x3230 + ld) 1 &&& s.otherTargets ld) = 0 →
    (∀ a ∈ aperturesIn (s.wouldBytes c (0x3230 + ld) 2 0 2048), s.apertureOk ld a = true) →
    noClash Aperture.clash (aperturesIn (s.wouldBytes c (0x3230 + ld) 2 0 2048)) = true →
    s.commitIndex (0x3230 + ld) c = (.ok, if c.has 1 then (s.applyChanges (0x3230 + ld) c).rerouteWaiting (fun _ => true)
      else s.applyChanges (0x3230 + ld) c)) ∧
  (∀ (s : State) k u (c : Changes), unitClassAt k = some u → k < 11 → s.isBanked = false → s.adminBytes c u.1 = none → s.leavesNone c u.1 = false →
    s.commitIndex (0x3000 + k) c = (.ok, ((List.range (s.variant.count u.1)).filter fun i => s.wouldOut c u.1 i != s.adminOut u.1 i).foldl
      (fun s i => s.adminChanged u.1 i) (s.applyChanges (0x3000 + u.1.index) c))) ∧
  (∀ (s : State) i (c : Changes), i ∈ [0x2100, 0x2102] → s.limitsOk i c = true → s.commitIndex i c = (.ok, s.applyChanges i c)) ∧
  (∀ (s : State) (c : Changes) u, u = s.applyChanges 0x7000 c →
    s.commitIndex 0x7000 c = (.ok, (List.range 16).foldl State.restSlot (if u.rehEnabled then u else u.endRuns))) ∧
  (∀ (s : State) (c : Changes) u bs, s.activating = false → bs = s.wouldBytes c 0x7100 6 0 (c.length 6) →
    u = (s.applyChanges 0x7100 c).flashWrite →
    s.commitIndex 0x7100 c = match firstFail (u.imageChecks bs) with
      | none => (.ok, ((u.setSlot u.idleSlot (imageOf bs)).setScalar 0x7100 stageState 2).setScalar 0x7100 stageReject 0)
      | some st => (st, ((u.setSlot u.idleSlot {}).setScalar 0x7100 stageState 3).setScalar 0x7100 stageReject st.code))

/-- R320, R392, R403, R424, R425, R449, R453: a WRITE by role 0 of an object that is there, by the object's access: a staged value, a flash or
working value, or a command object. -/
def Obligations.ManagementWritesComplete : Prop :=
  (∀ s f x o v, s.InSession f x → s.Writes f x o → o.acc = .wo → (s.heardIn x f).heldByOther x.id f.index = false →
    (s.heardIn x f).writeWo .mgmtPort x.id 0 f.index f.sub f.payload = (.ok, v) →
    (∀ r p, (r, p) ∈ [(Instr.quenchNow, fun i => inRun 0x5000 0x400 i && f.sub == 0xF),
        (Instr.exportKeyWrite, fun i => inRun 0x5000 0x400 i && f.sub == 0xE), (Instr.recalibrate, fun i => i == 0x2006 && f.sub == 1),
        (Instr.activate, fun i => i == 0x7100 && f.sub == 9), (Instr.rollbackCommit, fun i => i == 0x7100 && f.sub == 0xC),
        (Instr.bankCmd, fun i => i == 0x3010 && f.sub == 0x13), (Instr.warmReset, fun i => i == 0x3010 && f.sub == 0x14),
        (Instr.vopWrite, fun _ => true)] →
      p f.index = true → ∃ t, exec (r f) s = .next t ∧ t = answered s x f ⟨.ok, v, [], false, none⟩)) ∧
  (∀ s f x o, s.InSession f x → s.Writes f x o → o.acc = .rwc → (s.heardIn x f).writeOk f.index f.sub 0 (o.ty.fromWire f.payload) = true →
    (s.heardIn x f).heldByOther x.id f.index = false →
    ∃ t, exec (.vopWrite f) s = .next t ∧
      t = answered s x f ⟨.ok, (s.heardIn x f).stage x.id f.index f.sub 0 o.ty (o.ty.fromWire f.payload), [], false, none⟩) ∧
  (∀ s f x o, s.InSession f x → s.Writes f x o → o.acc = .rwc → (s.heardIn x f).writeOk f.index f.sub 0 (o.ty.fromWire f.payload) = false →
    ∃ t, exec (.vopWrite f) s = .next t ∧ t = answered s x f ⟨.rangeFault, s.heardIn x f, [], false, none⟩) ∧
  (∀ s f x o u, s.InSession f x → s.Writes f x o → o.acc = .rw → u = s.heardIn x f → u.heldByOther x.id f.index = false →
    (u.rwRange f.index f.sub).1 ≤ leVal (o.ty.fromWire f.payload) → leVal (o.ty.fromWire f.payload) ≤ (u.rwRange f.index f.sub).2 →
    ∃ t, exec (.vopWrite f) s = .next t ∧
      t = answered s x f ⟨.ok, if o.flash then (u.setScalar f.index f.sub (leVal (o.ty.fromWire f.payload))).flashWrite
        else u.setScalar f.index f.sub (leVal (o.ty.fromWire f.payload)), [], false, none⟩) ∧
  (∀ (s : State) k y bs, s.comp k = some y → y.loan = true → k < 1024 →
    (∀ rt n, s.writeWo rt n 0 (0x5000 + k) 0xE bs =
      (.ok, s.modComp k fun c => { c with exportKey := some (BitVec.ofNat 512 (leVal bs)) })) ∧
    (beVal bs = 1 → ∀ rt n, s.writeWo rt n 0 (0x5000 + k) 0xF bs = (.ok, (s.quenchLoan y .revoked).2))) ∧
  (∀ (s : State) bs u, 1 ≤ beVal bs → beVal bs < 16 → s.scalar 0x2006 2 ≠ 1 → u = (s.endRuns.setScalar 0x2006 2 1).setScalar 0x2006 3 0 →
    ∀ rt n, s.writeWo rt n 0 0x2006 1 bs =
      (.ok, ({ u with node := { u.node with recal := BitVec.ofNat 8 (beVal bs) } } : State).setCause causeRecalibrate true)) ∧
  (∀ (s : State) bs, s.activating = false → s.recalibrating = false → s.node.warmRunning = false → s.scalar 0x7100 stageState = 2 →
    beVal bs = 1 → ∀ rt n, s.writeWo rt n 0 0x7100 9 bs = (.ok, (s.setScalar 0x7100 activateState 1).setCause causeActivation true)) ∧
  (∀ (s : State) bs x, s.activating = false → beVal bs = 1 → x = s.slot s.trust.runningB → ∀ rt n, s.writeWo rt n 0 0x7100 0xC bs =
    (.ok, if x.svn ≤ s.trust.rollback then s else
      { s with trust := { s.trust with
        rollback := x.svn, keyRevoked := s.trust.keyRevoked ||| BitVec.ofNat 4 (2 ^ x.keyslot - 1) } })) ∧
  (∀ (s : State) bs, ∀ rt n, (beVal bs = 1 → s.writeWo rt n 0 0x3010 0x13 bs = (.ok, s.setCause causeManagement true)) ∧
    (beVal bs = 0 → s.writeWo rt n 0 0x3010 0x13 bs = (.ok, s.clearCause causeManagement)) ∧
    (beVal bs = 1 → s.activating = false → s.writeWo rt n 0 0x3010 0x14 bs = (.ok, (s.setCause causeWarmReset true).bankSettle)))

/-- R378, R386, R388, R394, R395: reading, block transfers, subscriptions, and the life of a session. -/
def Obligations.SessionRowsComplete : Prop :=
  (∀ s f x o, s.InSession f x → f.op = opRead → objAt s.variant f.index f.sub = some o → s.mayRead x.role f.index = true →
    o.ty.bytes ≤ vopMax →
    ∃ t, exec (.vopRead f) s = .next t ∧
      t = answered s x f ⟨.ok, s.heardIn x f, (s.heardIn x f).valueFor x f.index f.sub o, false, none⟩) ∧
  (∀ s f x o n u all, s.InSession f x → f.op = opBlockRead → objAt s.variant f.index f.sub = some o →
    s.mayRead x.role f.index = true → o.ty.isOctets = true → f.payload.length = 2 → n = beVal f.payload → 0 < n → n ≤ vopMax →
    f.offset + n ≤ o.ty.bytes → all = (s.heardIn x f).snapshot x f o →
    u = (s.heardIn x f).modSession x.id (fun y => { y with snaps := keepSnaps y f (f.offset + n == o.ty.bytes) all }) →
    ∃ t, exec (.blockRead f) s = .next t ∧ t = answered s x f ⟨.ok, u, slice all f.offset n, f.offset + n == o.ty.bytes, none⟩) ∧
  (∀ s f x o, s.InSession f x → f.op = opBlockWrite → x.role = 0 → objAt s.variant f.index f.sub = some o →
    o.ty.isOctets = true → o.acc = .rwc → f.offset + f.payload.length ≤ o.ty.bytes → objAbsent s.variant f.index f.sub = false →
    (s.heardIn x f).writeOk f.index f.sub f.offset f.payload = true → (s.heardIn x f).heldByOther x.id f.index = false →
    ∃ t, exec (.blockWrite f) s = .next t ∧
      t = answered s x f ⟨.ok, (s.heardIn x f).stage x.id f.index f.sub f.offset o.ty f.payload, [], false, none⟩) ∧
  (∀ s f x o k mine, s.InSession f x → f.op = opSubscribe → objAt s.variant f.index f.sub = some o →
    s.mayRead x.role f.index = true → f.payload.length = 9 → k = beVal (f.payload.take 1) →
    mine = (fun u : Subscription => u.index == f.index && u.sub == f.sub) →
    (k = 1 → ∃ t, exec (.subscribe f) s = .next t ∧ t = answered s x f
      ⟨.ok, (s.heardIn x f).modSession x.id fun y => { y with subs := dropWhere mine y.subs }, [], false, none⟩) ∧
    (∀ w, k = 0 → 10000000 ≤ beVal (f.payload.drop 1) → beVal (f.payload.drop 1) ≤ 3600000000000 →
      (dropWhere mine x.subs).length < subMax →
      w = ({ index := f.index, sub := f.sub, interval := beVal (f.payload.drop 1),
             seen := (s.heardIn x f).valueFor x f.index f.sub o, last := (s.heardIn x f).valueFor x f.index f.sub o,
             changed := (s.heardIn x f).now } : Subscription) →
      ∃ t, exec (.subscribe f) s = .next t ∧ t = answered s x f
        ⟨.ok, (s.heardIn x f).modSession x.id fun y => { y with subs := dropWhere mine y.subs ++ [w] }, [], false, none⟩)) ∧
  (∀ s f x, s.InSession f x → f.op = opClose →
    ∃ t, exec (.close f) s = .next t ∧
      t = answered s x f ⟨.ok, (s.heardIn x f).endSessionsIf (·.id == x.id) fun _ => false, [], false, none⟩) ∧
  (∀ s f r, s.node.powered = true → s.node.recovery = false → f.route = .mgmtPort → s.routeOn .mgmtPort = true → f.ver = 1 →
    f.op = opHello → f.len ≤ vopMax → bit f.flags 7 = false → f.session = 0 → f.payload.length = 133 →
    beVal (f.payload.take 2) < 4096 → s.roleRoute (beVal (f.payload.take 2)) .mgmtPort = true → s.mgmt.setups.length < setupMax →
    r = s.vopHello f →
    (∃ t, exec (.hello f) s = .next t ∧ t = if r.2.clk.fabref then r.2.emit (.vop .mgmtPort (s.mgmtFrame f.mac r.1)) else r.2) ∧
    ∃ w, r.2.mgmt.setups = s.mgmt.setups ++ [w] ∧ w.id = s.freshSession ∧ w.role = beVal (f.payload.take 2) ∧
      w.route = .mgmtPort ∧ w.hello = f.payload) ∧
  (∀ s f y, s.node.powered = true → f.route = .mgmtPort → y.route = .mgmtPort → s.routeOn .mgmtPort = true → f.ver = 1 →
    f.op = opProof → f.len ≤ vopMax → bit f.flags 7 = false → f.session ≠ 0 → s.mgmt.sessions.find? (·.id == f.session) = none →
    s.mgmt.setups.find? (·.id == f.session) = some y → vopTag y.key true (vopCovered f) = f.tag →
    s.mgmt.sessions.length < sessionMax →
    ∃ t r, exec (.proof f) s = .next t ∧ t = (if r.2.clk.fabref then r.2.emit (.vop .mgmtPort (s.mgmtFrame f.mac r.1)) else r.2) ∧
      s.vopProof y f = (some r.1, r.2) ∧ (s.proofOk y f.payload = true → r = s.openSession y f)) ∧
  (∀ s n, s.node.powered = true →
    ∃ t, exec (.sessionIdleExpiry n) s = .next t ∧ t = s.endSessionsIf (·.id == n) fun _ => false) ∧
  (∀ s n, s.node.powered = true → s.mgmt.setups.any (·.id == n) = true →
    ∃ t, exec (.sessionSetupTimeout n) s = .next t ∧
      t = (s.modMgmt fun m => { m with setups := dropWhere (·.id == n) m.setups }).count 0x6700 2) ∧
  (∀ s n k x y o, s.node.powered = true → s.mgmt.sessions.find? (·.id == n) = some x → x.subs[k]? = some y →
    objAt s.variant y.index y.sub = some o → s.mayRead x.role y.index = true →
    ∃ t, exec (.notify n k) s = .next t ∧ t = s.notifySub x y o)

/-! ### Units, calibration, rehearsal and faults (chapters 15 to 17) -/

/-- R398, R399, R400, R438, R439: a unit's drain and self-test, a switched spare, an overrun, and the governor's pace. -/
def Obligations.UnitRowsComplete : Prop :=
  (∀ s k n, s.node.powered = true → s.oper k n = .draining → s.unitEmpty k n = true →
    ∃ t, exec (.unitDrainDone k n) s = .next t ∧ t = s.setOper k n .outOfService) ∧
  (∀ s k n, s.node.powered = true → s.oper k n = .draining →
    ∃ t, exec (.drainLimitExpiry k n) s = .next t ∧ t = (s.setUnitRec { s.unitRec k n with late := true }).judgeUnit k n) ∧
  (∀ s k n u, s.node.powered = true → s.oper k n = .testing →
    (u = s.mapRows k n → ∃ t, exec (.selfTestDone k n true) s = .next t ∧
      t = if u.adminOut k n then u.setOper k n .outOfService else (u.setOper k n .inService).kickClass k n) ∧
    (u = s.switchOut k n → ∃ t, exec (.selfTestDone k n false) s = .next t ∧
      t = if u.oper k n = .testing then u.setOper k n (if u.adminOut k n then .outOfService else .inService) else u)) ∧
  (∀ s k n j, s.pieceOn k n = some j → s.coreRuns = true →
    ∃ t, exec (.pieceOverrun k n) s = .next t ∧
      t = (((s.clearPiece k n).abandon j.req .contextLost).count 0x6000 0x27).switchOut k n) ∧
  (∀ s k n u, s.coreRuns = true → (k, n) ∈ s.flt.switching → s.atBoundary k n = true →
    u = { s with flt := { s.flt with switching := s.flt.switching.erase (k, n) } } →
    (∀ p ps, u.sparesFor k n = p :: ps → ∃ t, exec (.spareSwitch k n) s = .next t ∧
      t = ((((u.setSpare k n (some p)).freshSram k n).count 0x6000 0x28).raise srcSpareSwitched).kickClass k n) ∧
    (u.sparesFor k n = [] → ∃ t, exec (.spareSwitch k n) s = .next t ∧ t = (u.setSpare k n none).unitFaulted k n)) ∧
  (∀ s ps u qs p, s.node.powered = true → u = s.count 0x6000 5 s.lowTime →
    qs = (List.range 11).map (fun i => if u.dieFitted i then ps.getD i 0 else 0) →
    p = leastF32 (((List.range 11).filter u.dieFitted).map fun i => qs.getD i 0) →
    ∃ t, exec (.paceUpdate ps) s = .next t ∧
      t = { u with flt := { u.flt with pace := qs, paceNode := p, paceAt := u.now, paceHist := paceInto u.now p u.flt.paceHist } })

/-- R403, R424, R440: a recalibration's results, a rehearsal run's start and end, and the end of an activation. -/
def Obligations.CalibrationRowsComplete : Prop :=
  (∀ s xs failed gs bad u, s.node.powered = true → s.node.recal ≠ 0 → s.node.phase = .banked →
    gs = (List.range 4).filter s.node.recal.getLsbD → bad = gs.filter failed.getLsbD →
    u = (((gs.filter fun g => !failed.getLsbD g).foldl (fun s g => s.storeGroup xs g) s).setScalar 0x2006 3
      (sumOf (2 ^ ·) bad)).setScalar 0x2006 2 (if bad.isEmpty then 2 else 3) →
    ∃ t, exec (.recalibrateDone xs failed) s = .next t ∧
      t = ({ u with node := { u.node with recal := 0 } } : State).clearCause causeRecalibrate) ∧
  (∀ s i k n u, i < 16 → s.coreRuns = true → s.node.phase = .running → s.rehEnabled = true → s.slotObj i rehState = 1 →
    k = s.slotObj i rehKind → n = s.slotObj i rehTarget →
    u = { s with flt := { s.flt with dues := assocPut s.flt.dues i (s.slotDues i + 1) 0 } } →
    ∃ t, exec (.rehearsalRunStart i) s = .next t ∧
      t = if u.rehSkips k n then (u.count 0x7000 4).restSlot i else u.startRun i k n) ∧
  (∀ s i x, s.flt.rehearsals.find? (·.slot == i) = some x →
    ∃ t, exec (.rehearsalRunEnd i) s = .next t ∧ t = s.endRun x) ∧
  (∀ s u v, s.node.powered = true → s.activating = true → s.node.phase = .banked → u = s.bootSlot s.idleSlot →
    v = s.bootSlot s.trust.runningB →
    ∃ t, exec (.activationDone none) s = .next t ∧
      (∀ st, s.bootBad s.idleSlot = some st → t = (((v.setScalar 0x7100 activateState 3).setScalar 0x7100 stageState 3).setScalar
        0x7100 stageReject st.code).clearCause causeActivation) ∧
      (s.bootBad s.idleSlot = none → t = (((((({ u with trust := { u.trust with activeB := u.trust.runningB } } : State).count 0x7100 0xD).setScalar 0x7100
        activateState 2).setScalar 0x7100 stageState 0).flashWrite)).clearCause causeActivation)) ∧
  (∀ s st, s.node.powered = true → s.activating = true → s.node.phase = .banked →
    ∃ t, exec (.activationDone (some st)) s = .next t ∧
      t = ((((s.bootSlot s.trust.runningB).setScalar 0x7100 activateState 3).setScalar 0x7100 stageState 3).setScalar 0x7100
        stageReject st.code).clearCause causeActivation)

/-- R428, R429, R430, R431, R435: uncorrectable and correctable errors by where they stand, a lost channel, a burnish read, a relocation, and a
request whose state is lost. -/
def Obligations.FaultRowsComplete : Prop :=
  (∀ s, s.coreRuns = true →
    (∀ n l r f, s.frame n = some f → f.noLine l = false →
      ∃ t, exec (.uncorrectableError (.frameLine n l r)) s = .next t ∧ t = (s.mediaEnd n r).failLine n l) ∧
    (∀ c g, c < s.variant.channels → (true, c, g) ∉ s.flt.retired →
      ∃ t, exec (.uncorrectableError (.freeUpper c g)) s = .next t ∧ t = ((s.keyGranuleLost g).retireFree true c g 0).noteUe true c) ∧
    (∀ c g, c < s.variant.packages → (false, c, g) ∉ s.flt.retired →
      ∃ t, exec (.uncorrectableError (.freeLower c g)) s = .next t ∧ t = (s.retireFree false c g 0).noteUe false c) ∧
    (∀ k n key r, ∃ t, exec (.uncorrectableError (.metadata k n key r)) s = .next t ∧ t = s.stallMeta k n key r true) ∧
    (∀ b i, ∃ t, exec (.uncorrectableError (.keyStore b i)) s = .next t ∧ t = (s.psLost b i).retireKeyLine) ∧
    (∀ b i, ∃ t, exec (.uncorrectableError (.tagSlot b i)) s = .next t ∧ t = s.psLost b i) ∧
    (∀ c i, ∃ t, exec (.uncorrectableError (.ledger c i)) s = .next t ∧ t = s.ledgerBad c i) ∧
    (∀ m i, ∃ t, exec (.uncorrectableError (.accumulator m i)) s = .next t ∧ t = s.accumulatorBad m i) ∧
    (∀ r, ∃ t, exec (.uncorrectableError (.requestState r)) s = .next t ∧ t = (s.count 0x6000 0x25).loseRequest r) ∧
    (∃ t i, exec (.uncorrectableError .xlateCache) s = .next t ∧
      t = { s.count 0x6000 0x25 with free := s.free + 1, mem := { s.mem with tlb := s.mem.tlb.eraseIdx i } }) ∧
    (∀ c, ∃ t, exec (.uncorrectableError (.contextCache c)) s = .next t ∧ t = (s.count 0x6000 0x25).resetConn c .timeout) ∧
    (∀ p x, s.fab.missBuf.find? (·.port == p) = some x → ∃ t, exec (.uncorrectableError (.missBuffer p)) s = .next t ∧
      t = { s.count 0x6000 0x25 with fab := { (s.count 0x6000 0x25).fab with missBuf := (s.count 0x6000 0x25).fab.missBuf.erase x } }) ∧
    (∀ k n row, ∃ t, exec (.uncorrectableError (.unitSram k n row)) s = .next t ∧ t = s.unitSram k n row) ∧
    (∀ c g l, c < s.variant.channels → ∃ t, exec (.correctableError (.upper c g l)) s = .next t ∧ t = s.noteCe true c g l) ∧
    (∀ c g l, c < s.variant.packages → ∃ t, exec (.correctableError (.lower c g l)) s = .next t ∧ t = s.noteCe false c g l) ∧
    (∀ k n, ∃ t, exec (.correctableError (.sram k n)) s = .next t ∧ t = s.count 0x6000 0x24) ∧
    (∀ b i, ∃ t, exec (.correctableError (.prefixTag b i)) s = .next t ∧ t = s.count 0x6000 0x24) ∧
    (∀ r, ∃ t, exec (.contextLostSram r) s = .next t ∧ t = s.loseRequest r)) ∧
  (∀ s up c, s.node.powered = true → c < (if up then s.variant.channels else s.variant.packages) →
    ∃ t, exec (.channelLost up c) s = .next t ∧ t = s.declareLost up c) ∧
  (∀ s up c f, s.coreRuns = true → c < (if up then s.variant.channels else s.variant.packages) → s.burnWaits up c = true →
    exec (.burnishRead up c f) s = .next s) ∧
  (∀ s up c b loc u, s.coreRuns = true → c < (if up then s.variant.channels else s.variant.packages) → s.burnWaits up c = false → b = s.burn up c →
    loc = b.pos / burnSpan up →
    u = (if b.pos % burnSpan up = 0 then { s with flt := { s.flt with ce := dropWhere (ceKey up c loc) s.flt.ce } } else s).burnNext b →
    (∃ t, exec (.burnishRead up c .clean) s = .next t ∧ t = u) ∧
    (∃ t, exec (.burnishRead up c .correctable) s = .next t ∧ t = u.noteCe up c loc (b.pos % burnSpan up)) ∧
    ∃ t, exec (.burnishRead up c .uncorrectable) s = .next t ∧ t = if up then u.burnUpper c b.pos else u.burnLower c b.pos) ∧
  (∀ s n f, s.frame n = some f → s.coreRuns = true → f.retire ≠ [] → s.allocStalled n = false →
    (f.place.isSwap = true → ∃ t, exec (.relocationDone n) s = .next t ∧ t = s.retireSwapped f) ∧
    (f.place.isSwap = false → f.mig = none → ∃ t, exec (.relocationDone n) s = .next t ∧ t = s.startReloc n) ∧
    (∀ m, f.place.isSwap = false → f.mig = some m → m.reloc = true → s.walksPast f.retireTag = true →
      ∃ t, exec (.relocationDone n) s = .next t ∧ t = s.finishReloc f m))

/-! ### Power, reset, BANKED, the governor and the clocks (chapters 11, 13, 17, 18) -/

/-- R413, R445, R447, R448, R450, R452, R453: power-good, READY, the BANKED state and the node's reset pin. -/
def Obligations.ResetRowsComplete : Prop :=
  (∀ s straps u, s.node.powered = false → u = s.flashOnly.modNode (fun n => { n with straps := straps &&& 0x1FFFF }) →
    ∃ t v w x, exec (.pwrgoodRise straps) s = .next t ∧
      v = (if u.node.pins.getLsbD pinForceHold then u.setCause causeForceHold true else u) ∧
      w = (if u.node.pins.getLsbD pinThermTrip then v.setCause causeThermal true else v) ∧
      x = (if u.node.pins.getLsbD pinNodeRst then (w.setCause causeNodeRst true).modNode fun n => { n with warmPending := true } else w) ∧
      t = (x.setScalar 0x2006 2 0).applyLds.boot.raiseLevels) ∧
  (∀ s, s.node.powered = true →
    (∃ t, exec .pwrgoodFall s = .next t ∧ t = s.flashOnly.modNode fun n => { n with powered := false, coreHeld := true }) ∧
    (s.node.phase = .starting → s.node.ready = false → ∃ t, exec .recoveryEntry s = .next t ∧ t = s.enterRecovery) ∧
    (s.node.phase = .starting → s.node.ready = false → s.node.recovery = false →
      ∀ u, u = (s.modNode fun n => { n with
          ready := true, readyTime := s.clk.ltime, phase := if s.banking then .banked else .running, coreHeld := s.banking,
          selfRefresh := s.banking, bankedAt := s.clk.ltime }) →
      ∃ t, exec .ready s = .next t ∧ t = (u.setCorePrios.raise srcReady).bankSettle) ∧
    (s.node.pins.getLsbD pinNodeRst = false → ∃ t, exec .nodeRstNAssert s = .next t ∧
      t = ((s.setPin pinNodeRst true).setCause causeNodeRst true).modNode fun n => { n with warmPending := true }) ∧
    (∀ u, s.node.pins.getLsbD pinNodeRst = true → u = s.setPin pinNodeRst false → ∃ t, exec .nodeRstNRelease s = .next t ∧
      t = (if u.node.warmRunning && u.node.warmPending && u.node.phase == .banked then u.warmEnd else u).bankSettle) ∧
    (s.node.phase = .running → s.banking = true → ∃ t, exec .bankedEntry s = .next t ∧
      t = ((((s.endAnneals.endRuns).modNode fun n => { n with phase := .entering, bankedAt := s.endAnneals.endRuns.clk.ltime }).setScalar
        0x3010 0x19 0).count 0x3010 0x16).raise srcBankedEntry) ∧
    (s.node.phase = .entering → ∃ t, exec .drainBoundExpiry s = .next t ∧ t = s.enterBanked.bankSettle) ∧
    (s.node.phase = .exiting → ∃ t, exec .bankedExit s = .next t ∧
      t = if s.heldBy = 0 ∧ s.warmDue = false then (if s.exitWaits then s else s.release)
        else ((s.modNode fun n => { n with phase := .banked }).trainPorts).bankSettle))

/-- R10, R316, R449, R455, R456, R463, R466, R467: the force-hold and thermal pins, temperatures, the governor's tick, the clocks, a
bank of FPRIO bytes and a bucket's refill. -/
def Obligations.ThermalAndClockComplete : Prop :=
  (∀ s, s.node.powered = true →
    (∀ u, u = (s.setPin pinForceHold true).setCause causeForceHold true → ∃ t, exec (.forceHoldChange true) s = .next t ∧
      t = if s.node.pins.getLsbD pinForceHold then u else u.raise srcForceHold) ∧
    (∃ t, exec (.forceHoldChange false) s = .next t ∧ t = (s.setPin pinForceHold false).clearCause causeForceHold) ∧
    (∀ u, u = (s.setPin pinThermTrip true).thermalCause → ∃ t, exec (.thermTripNChange true) s = .next t ∧
      t = if s.node.pins.getLsbD pinThermTrip then u else u.raise srcThermTrip) ∧
    (∀ u, u = s.setPin pinThermTrip false → ∃ t, exec (.thermTripNChange false) s = .next t ∧
      t = { u with node := { u.node with stuck := putBit u.node.stuck stuckThermTrip false } }) ∧
    (∀ u, s.node.pins.getLsbD pinThermTrip = false → s.causeSet causeThermal = true → s.allResumed = true →
      u = ({ s with node := { s.node with stuckDone := false } } : State).clearCause causeThermal →
      ∃ t, exec .thermalClearTimer s = .next t ∧ t = { u with node := { u.node with thermCut := false } }) ∧
    (s.node.pins.getLsbD pinThermTrip = true → s.node.stuckDone = false → ∃ t, exec .thermTripStuck s = .next t ∧
      t = ({ s with node := { s.node with stuck := putBit s.node.stuck stuckThermTrip true, stuckDone := true } } : State).raise
        srcStuckInput) ∧
    (∀ i x u, i < 20 → s.sensorFitted i = true → u = s.setTemp i x →
      (∃ t, exec (.dieTripLimit i x) s = .next t ∧ t = if u.dieLimit limTrip i ≤ (x : Rat) then u.thermalCause else u) ∧
      ∃ t, exec (.criticalTemperature i x) s = .next t ∧
        t = if (x : Rat) < 1000 * u.ratObj 0x2102 7 then u
          else { u.thermalCause with node := { u.thermalCause.node with critHold := true }, gov := { u.thermalCause.gov with vset := 600 } }) ∧
    (s.node.critHold = true → s.allResumed = true → ∃ t, exec .criticalHoldEnd s = .next t ∧
      t = { s with node := { s.node with critHold := false } }) ∧
    (∀ xs w m n u v b, u = s.count 0x2100 8 s.throttleTime →
      v = { u with gov := { u.gov with temps := xs, power := w, meas := m, lastTick := u.now } } →
      b = govBits v.tableMv (max v.vminMv v.powerMv) (nearestMv v.vmaxMv) →
      ∃ t x, exec (.governorTick xs w m n) s = .next t ∧
        x = ({ v with gov := { v.gov with cause := putBit b govAvsFault (v.gov.cause.getLsbD govAvsFault) } } : State).sendMv
          (govern v.tableMv (max v.vminMv v.powerMv) (nearestMv v.vmaxMv)) (decide (3 ≤ n)) ∧
        t = if b.getLsbD govThermal && !v.gov.cause.getLsbD govThermal then x.raise srcThermalLimit else x) ∧
    (s.clk.fabref = true → ∃ t u, exec .fabrefLoss s = .next t ∧
      u = ((({ s with clk := { s.clk with fabref := false } } : State).count 0x2100 10).modNode fun n => { n with alertClk := true }) ∧
      t = (List.range u.variant.ports).foldl (fun s p => s.reportPort p .down 0) u) ∧
    (s.clk.fabref = false → ∃ t, exec .fabrefReturn s = .next t ∧
      t = (({ s with clk := { s.clk with fabref := true } } : State).modNode fun n => { n with alertClk := false, clkWait := n.phase != NodePhase.running && n.phase != NodePhase.starting }).trainPorts) ∧
    (∃ t, exec .peRefclkLoss s = .next t ∧
      t = ({ s with clk := { s.clk with refclk := false } } : State).modNode fun n => { n with linkUp := false }) ∧
    (s.node.recovery = false → s.node.pins.getLsbD pinPerst = false → ∃ t, exec .cxlLinkTrainingDone s = .next t ∧
      t = { s with node := { s.node with linkUp := true }, clk := { s.clk with refclk := true } })) ∧
  (∀ s ld off v, s.linkCarries ld = true → fprioAt ≤ off → off + 8 ≤ fprioEnd →
    ∃ t, exec (.registerWrite ld (.bar2 off) v) s = .next t ∧
      t = (List.range 8).foldl (fun s i => s.putFprio ld (off - fprioAt + i) (bits v.toNat (8 * i + 7) (8 * i))) s) ∧
  (∀ s ld off v, s.linkCarries ld = true → (off < fprioAt ∨ fprioEnd < off + 8) →
    ∃ t, exec (.registerWrite ld (.bar2 off) v) s = .next t ∧ t = s) ∧
  (∀ s ld r v, s.linkCarries ld = true → (∀ off, r ≠ .bar2 off) →
    ∃ t, exec (.registerWrite ld r v) s = .next t ∧ t = s.modLd ld fun l => { l with aer := l.aer.write r v }) ∧
  (∀ s n k, (s.tenant n).isSome = true → s.coreRuns = true →
    ∃ t, exec (.bucketRefill n k) s = .next t ∧
      t = if k = 2 then ((s.eng.units.filter fun u => u.step.isNone && !u.queue.isEmpty).map (·.n)).foldl State.kickUnit s
        else if k = 3 then s.ltPump
        else if k = 1 then ((List.range (s.variant.count .core)).filter fun c => (s.coreSt c).piece.isNone).foldl State.kickCore s
        else if k = 0 then s.egress
        else s)

/-! ### The queue, the counter and reset -/

/-- A step runs the command at the front of the queue on the rest of the queue. -/
def Obligations.StepRunsTheFrontCommand : Prop :=
  ∀ (c : Instr) (s : State) rest, step { s with pending := c :: rest } = exec c { s with pending := rest }

/-- R26: with an empty queue one FABREF period passes (the model's choice, log 3). It adds 6 or 7 ns to the local counter, and any
five periods in a row add 32. -/
def Obligations.LocalCounterAdvances : Prop :=
  ∀ s : State, s.pending = [] → s.node.powered = true → s.clk.frac < 5 →
    (∃ t, step s = .next t ∧ t.pending = [] ∧ t.node = s.node ∧ t.clk.frac < 5 ∧
      (t.clk.ltime = s.clk.ltime + 6 ∨ t.clk.ltime = s.clk.ltime + 7)) ∧
    (State.tick (State.tick (State.tick (State.tick (State.tick s))))).clk.ltime = s.clk.ltime + 32

/-- What reset leaves (R26, R308, R366-R368, R448, R464): an empty queue, the counter at 0, no event pending and every event
masked, no session, sequence or connection, VCORE at 0.75 V, and the stores in canonical form. -/
def Obligations.ResetState : Prop :=
  State.reset.pending = [] ∧ State.reset.clk.ltime = 0 ∧ State.reset.node.phase = .starting ∧ State.reset.node.ready = false ∧
  State.reset.ev.pend = 0 ∧ State.reset.ev.fpend = 0 ∧ State.reset.ev.mask = BitVec.allOnes _ ∧
  State.reset.ev.fmask = BitVec.allOnes _ ∧ (∀ k, k < 64 → (State.reset.target k).curprio = 0xFF ∧ (State.reset.target k).delivered = 0) ∧
  State.reset.mgmt.sessions = [] ∧ State.reset.seqs = [] ∧ State.reset.fab.conns = [] ∧ State.reset.wqs = [] ∧
  State.reset.gov.vset = 750 ∧ State.reset.trust.keyRevoked = 0 ∧ State.reset.trust.rollback = 0 ∧
  (State.reset.tenant 0).any (·.state == .active) = true ∧ State.reset.Canonical

/-! ### Identifiers and orders (chapters 01, 08, 09) -/

/-- R34: epoch `a` is newer than `b` when (a - b) mod 65,536 lies from 1 to 32,767, older when (b - a) does; at a distance of 32,768
they are not comparable and an incoming epoch is stale; a composition holds at most its present and its old map. -/
def Obligations.EpochOrder : Prop :=
  (∀ a b : Nat, a < 65536 → b < 65536 →
    (epochNewer a b = true ↔ 1 ≤ ((a : Int) - b) % 65536 ∧ ((a : Int) - b) % 65536 ≤ 32767) ∧
    (epochNewer b a = true ↔ 1 ≤ ((b : Int) - a) % 65536 ∧ ((b : Int) - a) % 65536 ≤ 32767) ∧
    (((a : Int) - b) % 65536 = 32768 → epochNewer a b = false ∧ epochNewer b a = false ∧ epochVerdict a b = some .staleEpoch)) ∧
  (∀ (s : State) k e c, s.comp k = some c → s.holdsEpoch k e = true →
    (∃ m, c.map = some m ∧ m.epoch = e) ∨ ∃ m, c.oldMap = some m ∧ m.epoch = e)

/-- R213: the fields of an entry ID; a slot's next GEN advances by one and skips 0; PS_REMOVE of an ID with GEN 0 names nothing, in
every state whose live entries have a GEN. -/
def Obligations.PrefixEntryIds : Prop :=
  (∀ e : PsSlot, e.gen < 256 → e.bank < 64 → e.slot < 65536 →
    e.id < 2 ^ 32 ∧ bits e.id 31 24 = e.gen ∧ bits e.id 23 22 = 0 ∧ bits e.id 21 16 = e.bank ∧ bits e.id 15 0 = e.slot) ∧
  (∀ (s : State) b i g, assocGet s.gens.prefixes (b * psSlots + i) 0 = g → g < 256 →
    s.psGen b i = (if g = 255 then 1 else g + 1) ∧ s.psGen b i ≠ 0 ∧ s.psGen b i < 256) ∧
  (∀ s r q, s.Runs r q opPS_REMOVE → s.variant.prefixUnit = true →
    (∀ e ∈ s.ps, 0 < e.gen ∧ e.gen < 256 ∧ e.bank < 64 ∧ e.slot < 65536) → bits (prEntry q.entry) 31 24 = 0 →
    ∃ t, exec (.psRemove r) s = .next t ∧ t.Ended r q .keyFault 0 ∧ t.ps = s.ps)

/-- R33, R65: the generation after `g` is never 0, and 65,535 is followed by 1; a handle of generation 0 names no sequence; the handle
of a live sequence names it alone. -/
def Obligations.HandleGenerations : Prop :=
  (∀ g, nextGen g ≠ 0 ∧ nextGen g < 65536) ∧ nextGen 65535 = 1 ∧ (∀ g, g < 65535 → nextGen g = g + 1) ∧
  (∀ (s : State) n h a, h % 65536 = 0 → s.findSeq n h a = none) ∧
  (∀ (s : State) n h a x, s.findSeq n h a = some x → x.gen < 65536 ∧ x.handle = h ∧ x.tenant = n ∧ x ∈ s.seqs)

/-- R63: the frame of a geometry is the least power of two, from 16 KiB, that holds its page. -/
def Obligations.FrameIsLeastPowerOfTwo : Prop :=
  ∀ p, p ≤ 8388608 → (∃ k, 14 ≤ k ∧ k ≤ 23 ∧ frameBytes p = 2 ^ k) ∧ p ≤ frameBytes p ∧
    ∀ k, 14 ≤ k → p ≤ 2 ^ k → frameBytes p ≤ 2 ^ k

/-- R62, R67: page p of layer l lies at base + (l × P_max + p) × F inside the sequence's range, and an address inside a page names
that page and layer; so two pages of one sequence never overlap. -/
def Obligations.PagesOfASequence : Prop :=
  ∀ (x : Seq) f layers l p d, 0 < f → p < x.pmax → l < layers → d < f →
    x.pageAddr f l p = x.base + (l * x.pmax + p) * f ∧
    x.pageOf f (x.pageAddr f l p + d) = (l, p) ∧
    x.pageAddr f l p + f ≤ x.base + rangeBytes layers x.pmax f ∧ rangeBytes layers x.pmax f % 8388608 = 0

/-! ### Events (chapter 13) -/

/-- R369: an event on a source with pending 0 sets pending, and routes it once when it is unmasked and not at all when it is masked;
on a source with pending 1 it adds one to EV_COALESCED and sends nothing. Clearing leaves pending 0, unless the cause is still
there: then it is pending again. -/
def Obligations.EventsCoalesce : Prop :=
  (∀ (s : State) src, src < 2048 → s.pendOf src = false →
    (s.raiseOnce src).pendOf src = true ∧
    (s.maskOf src = true → (s.raiseOnce src).out = s.out ∧ (s.raiseOnce src).ev.targets = s.ev.targets) ∧
    (s.maskOf src = false → s.raiseOnce src = ((s.count 0x6500 1).setPend src true).route src)) ∧
  (∀ (s : State) src, s.pendOf src = true →
    (s.raiseOnce src).ev = s.ev ∧ (s.raiseOnce src).out = s.out ∧ s.raiseOnce src = (s.count 0x6500 1).count 0x6500 3) ∧
  (∀ (s : State) src, src < 2048 → src ≠ srcEvin 0 → src ≠ srcEvin 1 → s.pendOf src = true →
    (s.bankClr src).pendOf src = s.levelActive src)

/-- R370: routing chooses a candidate whose current priority is below the source's and no higher than any other such candidate's;
among equals, the first at or after the round-robin pointer, wrapping; and none when there is no such candidate. -/
def Obligations.RoutingPicksLowestPriority : Prop :=
  (∀ (s : State) src, s.pickTarget src = none ↔ ∀ y ∈ s.candidates src, ¬ s.curprio y < s.sourcePrio src) ∧
  (∀ (s : State) src x, s.pickTarget src = some x →
    x ∈ s.candidates src ∧ s.curprio x < s.sourcePrio src ∧ (∀ y ∈ s.candidates src, s.curprio x ≤ s.curprio y) ∧
    (∀ y ∈ s.candidates src, s.curprio y = s.curprio x → assocGet s.ev.rr src 0 ≤ y →
      assocGet s.ev.rr src 0 ≤ x ∧ x ≤ y) ∧
    (x < assocGet s.ev.rr src 0 → ∀ y ∈ s.candidates src, s.curprio y = s.curprio x → x ≤ y))

/-! ### Frames and stores (chapters 03, 07) -/

/-- In every state whose frame contents are in canonical form (every step keeps that: StoresStayCanonical), a store into an upper-tier
frame reads back, leaves every other byte of every frame as it was, and keeps the contents in canonical
form (R18, R37, R180). -/
def Obligations.FrameStoreReadsBack : Prop :=
  ∀ (s : State) n off bs t f, Memory.wf s.mem.data = true → (s.beforeWrite n).frame n = some f →
    (∀ k, f.place ≠ .lower k) → s.writeFrame n off bs = some t → off + bs.length ≤ mib8 →
    t.readFrame n off bs.length = bs ∧
    (∀ m o, o < mib8 → (m ≠ n ∨ o < off ∨ off + bs.length ≤ o) → t.readFrame m o 1 = s.readFrame m o 1) ∧
    Memory.wf t.mem.data = true ∧
    t.octs = s.octs ∧ t.objs = s.objs ∧ t.seqs = s.seqs ∧ t.tenants = s.tenants ∧ t.out = s.out

/-! ### Management (chapter 14) -/

/-- R312, R365, R393, R464: a COMMIT of an index that its checks turn away changes no object and nothing else of the node; only a
staged image (0x7100, R423) leaves a trace. -/
def Obligations.FailedCommitChangesNothing : Prop :=
  ∀ (s : State) i (c : Changes) st v, s.commitIndex i c = (st, v) → st ≠ .ok → i ≠ 0x7100 → v = s

/-- R378, R385, R386: a HELLO beyond 4 in setup is answered with BUSY_RETRY, a PROOF beyond 16 open with CAPACITY, and a frame of a
session on another route than its HELLO's is dropped and counted. -/
def Obligations.SessionLimits : Prop :=
  (∀ (s : State) f, f.payload.length = 133 → beVal (f.payload.take 2) < 4096 → s.roleRoute (beVal (f.payload.take 2)) f.route = true →
    4 ≤ s.mgmt.setups.length → s.vopHello f = (vopPlain f .busyRetry, s)) ∧
  (∀ (s : State) u f, f.route = u.route → f.op = opProof → vopTag u.key true (vopCovered f) = f.tag →
    16 ≤ s.mgmt.sessions.length → s.vopProof u f = (some (vopPlain f .capacity), s)) ∧
  (∀ (s : State) x f, f.route ≠ x.route → s.vopSession x f = (none, s.count 0x6700 5))

/-! ### The governor (chapter 18) -/

/-- R466: the governor holds VCORE within 0.60 to 0.85 V, never above VCORE_MAX when that is at least 0.60 V, and at 0.60 V under the
critical hold (R467). -/
def Obligations.VcoreStaysInRange : Prop :=
  (∀ (s : State) xs w m n t, 600 ≤ s.gov.vset → s.gov.vset ≤ 850 → exec (.governorTick xs w m n) s = .next t →
    600 ≤ t.gov.vset ∧ t.gov.vset ≤ 850 ∧ (s.node.powered = true → s.node.critHold = true → n < 3 → t.gov.vset = 600)) ∧
  (∀ vt vp vmax, 600 ≤ govern vt vp vmax ∧ govern vt vp vmax ≤ 850 ∧ (600 ≤ vmax → govern vt vp vmax ≤ vmax) ∧
    (600 ≤ vt → govern vt vp vmax ≤ vt))

/-! ### Whole-machine rules -/

/-- A command's effect leaves the queue of waiting commands to the step: no meaning reads or writes it. -/
def Obligations.MeaningsLeaveTheQueue : Prop :=
  ∀ c s t, exec c s = .next t → t.pending = s.pending

/-- R1, R2: no step adds or removes a unit: the variant is fixed. -/
def Obligations.VariantIsFixed : Prop :=
  ∀ (s t : State), step s = .next t → t.variant = s.variant

/-- R409, R425: fuses blow one way. No step, power-good included, lowers the rollback counter or clears a revoked key. -/
def Obligations.FusesBlowOneWay : Prop :=
  ∀ (s t : State), step s = .next t → s.trust.rollback ≤ t.trust.rollback ∧
    ∀ i, s.trust.keyRevoked.getLsbD i = true → t.trust.keyRevoked.getLsbD i = true

/-- R26, R27: the local counter never runs backwards: between the edges of PWRGOOD every step leaves it standing or
raises it, as long as it has not reached its end (which R26 says it never does). -/
def Obligations.LocalCounterNeverRunsBack : Prop :=
  ∀ (s t : State), step s = .next t → s.clk.ltime.toNat + 7 < 2 ^ 64 → (∀ v, s.pending.head? ≠ some (.pwrgoodRise v)) →
    s.pending.head? ≠ some .pwrgoodFall →
    s.clk.ltime.toNat ≤ t.clk.ltime.toNat

/-- Every step keeps the canonical form of the stores: frame contents, object values and OCTETS bytes list nothing twice, in rising
order, and nothing at its default. -/
def Obligations.StoresStayCanonical : Prop :=
  ∀ (s t : State), s.Canonical → step s = .next t → t.Canonical

/-! ### Frames of the event and management rows -/

/-- The event rows change event state, counts, the MSI-X pending arrays, latched pins and what is sent, and nothing else: no sequence,
frame, byte of memory, queue, connection, tenant, session, fuse or unit (R366, R367, R369, R371, R373). -/
def Obligations.EventRowsFrame : Prop :=
  (∀ (s : State) ld word v, s.linkCarries ld = true → ∀ c ∈ [Instr.pendSet ld word v, .pendClr ld word v, .maskSet ld word v,
      .maskClr ld word v, .fpendSet ld v, .fpendClr ld v, .fmaskSet ld v, .fmaskClr ld v],
    ∃ t, exec c s = .next t ∧
      t = { s with objs := t.objs, ev := t.ev, node := { s.node with stuck := t.node.stuck }, lds := t.lds, out := t.out }) ∧
  (∀ (s : State) ld k v, s.linkCarries ld = true →
    ∃ t, exec (.curprioWrite ld k v) s = .next t ∧
      t = { s with objs := t.objs, ev := t.ev, node := { s.node with stuck := t.node.stuck }, lds := t.lds, out := t.out }) ∧
  (∀ (s : State) i a, s.node.powered = true → i < 2 →
    ∃ t, exec (.evinPinActive i a) s = .next t ∧
      t = { s with
        objs := t.objs, ev := t.ev, lds := t.lds, out := t.out,
        node := { s.node with pins := putBit s.node.pins (pinEvin i) a, stuck := t.node.stuck } })

/-- A READ under a session changes the sessions and what is sent, and nothing else: memory and every other state stay. Objects appear
only because a session that ends with its route gives its staged image up, which STAGE_STATE shows (R386, R387, R392). -/
def Obligations.ManagementReadFrame : Prop :=
  ∀ (s : State) f x, s.InSession f x → f.op = opRead →
    ∃ t, exec (.vopRead f) s = .next t ∧ t = { s with mgmt := t.mgmt, objs := t.objs, out := t.out }
end

