-- ==== Sys2Proof/Laws/Events.lean ====
section
/-! SUPPORT. Sys2Proof/Laws/Events.lean: what raising, routing and clearing an event can do, and the bits of a word. -/

namespace Sys2Proof.Machine

open Sys2Proof

theorem count_frame (s : State) (i j n : Nat) : s.count i j n = { s with objs := (s.count i j n).objs } := rfl

theorem setPend_frame (s : State) (k : Nat) (b : Bool) : s.setPend k b = { s with ev := (s.setPend k b).ev } := by
  unfold State.setPend; dsimp only; split <;> rfl

theorem setMask_frame (s : State) (k : Nat) (b : Bool) : s.setMask k b = { s with ev := (s.setMask k b).ev } := by
  unfold State.setMask; dsimp only; split <;> rfl

/-- What an event may change: counts, the event state, latched pins, the MSI-X pending array and the messages sent. -/
def evOnly (s t : State) : Prop := 
  t = { s with objs := t.objs, ev := t.ev, node := { s.node with stuck := t.node.stuck }, lds := t.lds, out := t.out }

theorem evOnly_refl (s : State) : evOnly s s := rfl

theorem evOnly_trans {a b c : State} (h : evOnly a b) (k : evOnly b c) : evOnly a c := by
  unfold evOnly at *
  rw [k, h]

theorem deliver_evOnly (s : State) (x k : Nat) : evOnly s (s.deliver x k) := by
  unfold State.deliver; dsimp only
  split
  · split <;> rfl
  · rfl

theorem route_evOnly (s : State) (k : Nat) : evOnly s (s.route k) := by
  unfold State.route
  split
  · rfl
  · exact evOnly_trans (b := { s with ev := _ }) rfl (deliver_evOnly _ _ _)

theorem setPend_evOnly (s : State) (k : Nat) (b : Bool) : evOnly s (s.setPend k b) := by rw [setPend_frame]; rfl

theorem raiseOnce_evOnly (s : State) (k : Nat) : evOnly s (s.raiseOnce k) := by
  unfold State.raiseOnce; dsimp only
  have h1 : evOnly s (s.count 0x6500 1) := rfl
  split
  · exact evOnly_trans h1 rfl
  · have h2 := evOnly_trans h1 (setPend_evOnly (s.count 0x6500 1) k true)
    split
    · exact h2
    · exact evOnly_trans h2 (route_evOnly _ _)

theorem maskStuck_evOnly (s : State) (i : Nat) : evOnly s (s.maskStuck i) := by
  unfold State.maskStuck; dsimp only
  refine evOnly_trans (b := s.setMask (srcEvin i) true) (by rw [setMask_frame]; rfl) ?_
  exact evOnly_trans (by rfl) (raiseOnce_evOnly _ _)

theorem raise_evOnly (s : State) (k : Nat) : evOnly s (s.raise k) := by
  have e : ∀ i, evOnly s (s.raiseEvin i) := by
    intro i; unfold State.raiseEvin
    split
    · split
      · exact evOnly_trans (maskStuck_evOnly _ _) (raiseOnce_evOnly _ _)
      · exact evOnly_trans (by rfl) (raiseOnce_evOnly _ _)
    · exact raiseOnce_evOnly _ _
  unfold State.raise
  split
  · exact e 0
  · split
    · exact e 1
    · exact raiseOnce_evOnly _ _

theorem raise_frame (s : State) (k : Nat) : s.raise k = { s with
    objs := (s.raise k).objs, ev := (s.raise k).ev, node := { s.node with stuck := (s.raise k).node.stuck }, lds := (s.raise k).lds, out := (s.raise k).out } :=
  raise_evOnly s k

theorem foldl_evOnly {α : Type} (f : State → α → State) (h : ∀ s x, evOnly s (f s x)) (l : List α) (s : State) : evOnly s (l.foldl f s) := by
  induction l generalizing s with
  | nil => exact evOnly_refl s
  | cons a l ih => exact evOnly_trans (h s a) (ih (f s a))

theorem clearPend_evOnly (s : State) (k : Nat) : evOnly s (s.clearPend k) := by
  unfold State.clearPend; dsimp only
  have h := setPend_evOnly s k false
  split
  · exact evOnly_trans h rfl
  · exact evOnly_trans h rfl

theorem ackSource_evOnly (s : State) (k : Nat) : evOnly s (s.ackSource k) := by
  unfold State.ackSource; dsimp only
  have h := clearPend_evOnly s k
  have e : ∀ u : State, evOnly s u → evOnly s (if u.levelActive k = true then u.raise k else u) := by
    intro u hu; split
    · exact evOnly_trans hu (raise_evOnly _ _)
    · exact hu
  apply e
  split
  · exact evOnly_trans h rfl
  · split
    · exact evOnly_trans h rfl
    · exact h

theorem bankUnmask_evOnly (s : State) (k : Nat) : evOnly s (s.bankUnmask k) := by
  unfold State.bankUnmask; dsimp only
  have h : evOnly s (s.setMask k false) := by rw [setMask_frame]; rfl
  have e : ∀ u : State, evOnly s u → evOnly s (if u.pendOf k = true then u.route k else u) := by
    intro u hu; split
    · exact evOnly_trans hu (route_evOnly _ _)
    · exact hu
  split
  · exact evOnly_refl s
  · apply e
    split
    · exact evOnly_trans h rfl
    · split
      · exact evOnly_trans h rfl
      · exact h

theorem putBit_get {n : Nat} (v : BitVec n) (i j : Nat) (b : Bool) :
    (putBit v i b).getLsbD j = if j = i ∧ i < n then b else v.getLsbD j := by
  have h : (BitVec.ofNat n (2 ^ i)).getLsbD j = (decide (j < n) && decide (i = j)) := by
    rw [BitVec.getLsbD_ofNat, Nat.testBit_two_pow]
  unfold putBit
  split
  · rename_i hb; rw [BitVec.getLsbD_or, h]
    by_cases e : j = i
    · subst e
      by_cases q : j < n
      · simp [q, hb]
      · simp [q]
    · simp [e, Ne.symm e]
  · rename_i hb; rw [BitVec.getLsbD_and, BitVec.getLsbD_not, h]
    by_cases e : j = i
    · subst e
      by_cases q : j < n
      · simp [q]; simpa using hb
      · simp [q]; exact BitVec.getLsbD_of_ge _ _ (Nat.le_of_not_lt q)
    · simp [e, Ne.symm e]
      intro q; exact BitVec.lt_of_getLsbD q

theorem rtSlot_lt (e : Nat) : rtSlot e < 64 := by unfold rtSlot bits; omega

theorem pendOf_setPend (s : State) (k : Nat) (b : Bool) (hk : k < 2048) : (s.setPend k b).pendOf k = b := by
  have e : (s.setPend k b).routeEntry k = s.routeEntry k := by rw [setPend_frame]; rfl
  unfold State.pendOf; dsimp only
  rw [e]
  unfold State.setPend; dsimp only
  split
  · dsimp only; rw [putBit_get, if_pos ⟨rfl, rtSlot_lt _⟩]
  · dsimp only; rw [putBit_get, if_pos ⟨rfl, hk⟩]

theorem pendOf_of_ev {s t : State} (k : Nat) (h : t.ev.pend = s.ev.pend) (h2 : t.ev.fpend = s.ev.fpend) (h3 : t.octs = s.octs)
    : t.pendOf k = s.pendOf k := by
  unfold State.pendOf State.routeEntry State.octets State.octByte
  rw [h, h2, h3]

theorem deliver_pend (s : State) (x k : Nat) : (s.deliver x k).ev.pend = s.ev.pend ∧ (s.deliver x k).ev.fpend = s.ev.fpend ∧
    (s.deliver x k).octs = s.octs := by
  unfold State.deliver; dsimp only
  split
  · split <;> exact ⟨rfl, rfl, rfl⟩
  · exact ⟨rfl, rfl, rfl⟩

theorem route_pendOf (s : State) (x k : Nat) : (s.route x).pendOf k = s.pendOf k := by
  unfold State.route
  split
  · exact pendOf_of_ev k rfl rfl rfl
  · obtain ⟨h1, h2, h3⟩ := deliver_pend _ _ _
    exact pendOf_of_ev k h1 h2 h3

theorem raiseOnce_pendOf (s : State) (k : Nat) (hk : k < 2048) : (s.raiseOnce k).pendOf k = true := by
  unfold State.raiseOnce; dsimp only
  split
  · assumption
  · split
    · exact pendOf_setPend _ _ _ hk
    · rw [route_pendOf]; exact pendOf_setPend _ _ _ hk

theorem candidates_sorted (s : State) (src : Nat) : (s.candidates src).Pairwise (· < ·) := by
  unfold State.candidates
  rw [List.pairwise_append]
  refine ⟨(List.pairwise_lt_range).filter _, ?_, ?_⟩
  · split
    · rw [List.pairwise_map]
      exact ((List.pairwise_lt_range (n := 8)).filter _).imp fun h => by omega
    · exact List.Pairwise.nil
  · intro a ha b hb
    have h1 := List.mem_range.mp (List.mem_filter.mp ha).1
    split at hb
    · obtain ⟨c, -, rfl⟩ := List.mem_map.mp hb; omega
    · cases hb

end Sys2Proof.Machine
end

