-- ==== Sys2Proof/Laws/State.lean ====
section
/-! SUPPORT. Sys2Proof/Laws/State.lean: what each update of State leaves alone, field by field. -/

namespace Sys2Proof.Machine

open Sys2Proof

/-! ### modReq writes reqs -/

@[simp] theorem State.modReq_pending (s : State) (r : Nat) (f : Req → Req) : (s.modReq r f).pending = s.pending := rfl
@[simp] theorem State.modReq_free (s : State) (r : Nat) (f : Req → Req) : (s.modReq r f).free = s.free := rfl
@[simp] theorem State.modReq_out (s : State) (r : Nat) (f : Req → Req) : (s.modReq r f).out = s.out := rfl
@[simp] theorem State.modReq_variant (s : State) (r : Nat) (f : Req → Req) : (s.modReq r f).variant = s.variant := rfl
@[simp] theorem State.modReq_clk (s : State) (r : Nat) (f : Req → Req) : (s.modReq r f).clk = s.clk := rfl
@[simp] theorem State.modReq_node (s : State) (r : Nat) (f : Req → Req) : (s.modReq r f).node = s.node := rfl
@[simp] theorem State.modReq_objs (s : State) (r : Nat) (f : Req → Req) : (s.modReq r f).objs = s.objs := rfl
@[simp] theorem State.modReq_octs (s : State) (r : Nat) (f : Req → Req) : (s.modReq r f).octs = s.octs := rfl
@[simp] theorem State.modReq_tenants (s : State) (r : Nat) (f : Req → Req) : (s.modReq r f).tenants = s.tenants := rfl
@[simp] theorem State.modReq_comps (s : State) (r : Nat) (f : Req → Req) : (s.modReq r f).comps = s.comps := rfl
@[simp] theorem State.modReq_reclaims (s : State) (r : Nat) (f : Req → Req) : (s.modReq r f).reclaims = s.reclaims := rfl
@[simp] theorem State.modReq_geoms (s : State) (r : Nat) (f : Req → Req) : (s.modReq r f).geoms = s.geoms := rfl
@[simp] theorem State.modReq_seqs (s : State) (r : Nat) (f : Req → Req) : (s.modReq r f).seqs = s.seqs := rfl
@[simp] theorem State.modReq_mem (s : State) (r : Nat) (f : Req → Req) : (s.modReq r f).mem = s.mem := rfl
@[simp] theorem State.modReq_ps (s : State) (r : Nat) (f : Req → Req) : (s.modReq r f).ps = s.ps := rfl
@[simp] theorem State.modReq_merges (s : State) (r : Nat) (f : Req → Req) : (s.modReq r f).merges = s.merges := rfl
@[simp] theorem State.modReq_gens (s : State) (r : Nat) (f : Req → Req) : (s.modReq r f).gens = s.gens := rfl
@[simp] theorem State.modReq_nextReq (s : State) (r : Nat) (f : Req → Req) : (s.modReq r f).nextReq = s.nextReq := rfl
@[simp] theorem State.modReq_eng (s : State) (r : Nat) (f : Req → Req) : (s.modReq r f).eng = s.eng := rfl
@[simp] theorem State.modReq_wqs (s : State) (r : Nat) (f : Req → Req) : (s.modReq r f).wqs = s.wqs := rfl
@[simp] theorem State.modReq_cqs (s : State) (r : Nat) (f : Req → Req) : (s.modReq r f).cqs = s.cqs := rfl
@[simp] theorem State.modReq_fab (s : State) (r : Nat) (f : Req → Req) : (s.modReq r f).fab = s.fab := rfl
@[simp] theorem State.modReq_lds (s : State) (r : Nat) (f : Req → Req) : (s.modReq r f).lds = s.lds := rfl
@[simp] theorem State.modReq_ev (s : State) (r : Nat) (f : Req → Req) : (s.modReq r f).ev = s.ev := rfl
@[simp] theorem State.modReq_mgmt (s : State) (r : Nat) (f : Req → Req) : (s.modReq r f).mgmt = s.mgmt := rfl
@[simp] theorem State.modReq_trust (s : State) (r : Nat) (f : Req → Req) : (s.modReq r f).trust = s.trust := rfl
@[simp] theorem State.modReq_flt (s : State) (r : Nat) (f : Req → Req) : (s.modReq r f).flt = s.flt := rfl
@[simp] theorem State.modReq_gov (s : State) (r : Nat) (f : Req → Req) : (s.modReq r f).gov = s.gov := rfl

/-! ### endReq writes reqs -/

@[simp] theorem State.endReq_pending (s : State) (r : Nat) (st : Status) (n : Nat) : (s.endReq r st n).pending = s.pending := rfl
@[simp] theorem State.endReq_free (s : State) (r : Nat) (st : Status) (n : Nat) : (s.endReq r st n).free = s.free := rfl
@[simp] theorem State.endReq_out (s : State) (r : Nat) (st : Status) (n : Nat) : (s.endReq r st n).out = s.out := rfl
@[simp] theorem State.endReq_variant (s : State) (r : Nat) (st : Status) (n : Nat) : (s.endReq r st n).variant = s.variant := rfl
@[simp] theorem State.endReq_clk (s : State) (r : Nat) (st : Status) (n : Nat) : (s.endReq r st n).clk = s.clk := rfl
@[simp] theorem State.endReq_node (s : State) (r : Nat) (st : Status) (n : Nat) : (s.endReq r st n).node = s.node := rfl
@[simp] theorem State.endReq_objs (s : State) (r : Nat) (st : Status) (n : Nat) : (s.endReq r st n).objs = s.objs := rfl
@[simp] theorem State.endReq_octs (s : State) (r : Nat) (st : Status) (n : Nat) : (s.endReq r st n).octs = s.octs := rfl
@[simp] theorem State.endReq_tenants (s : State) (r : Nat) (st : Status) (n : Nat) : (s.endReq r st n).tenants = s.tenants := rfl
@[simp] theorem State.endReq_comps (s : State) (r : Nat) (st : Status) (n : Nat) : (s.endReq r st n).comps = s.comps := rfl
@[simp] theorem State.endReq_reclaims (s : State) (r : Nat) (st : Status) (n : Nat) : (s.endReq r st n).reclaims = s.reclaims := rfl
@[simp] theorem State.endReq_geoms (s : State) (r : Nat) (st : Status) (n : Nat) : (s.endReq r st n).geoms = s.geoms := rfl
@[simp] theorem State.endReq_seqs (s : State) (r : Nat) (st : Status) (n : Nat) : (s.endReq r st n).seqs = s.seqs := rfl
@[simp] theorem State.endReq_mem (s : State) (r : Nat) (st : Status) (n : Nat) : (s.endReq r st n).mem = s.mem := rfl
@[simp] theorem State.endReq_ps (s : State) (r : Nat) (st : Status) (n : Nat) : (s.endReq r st n).ps = s.ps := rfl
@[simp] theorem State.endReq_merges (s : State) (r : Nat) (st : Status) (n : Nat) : (s.endReq r st n).merges = s.merges := rfl
@[simp] theorem State.endReq_gens (s : State) (r : Nat) (st : Status) (n : Nat) : (s.endReq r st n).gens = s.gens := rfl
@[simp] theorem State.endReq_nextReq (s : State) (r : Nat) (st : Status) (n : Nat) : (s.endReq r st n).nextReq = s.nextReq := rfl
@[simp] theorem State.endReq_eng (s : State) (r : Nat) (st : Status) (n : Nat) : (s.endReq r st n).eng = s.eng := rfl
@[simp] theorem State.endReq_wqs (s : State) (r : Nat) (st : Status) (n : Nat) : (s.endReq r st n).wqs = s.wqs := rfl
@[simp] theorem State.endReq_cqs (s : State) (r : Nat) (st : Status) (n : Nat) : (s.endReq r st n).cqs = s.cqs := rfl
@[simp] theorem State.endReq_fab (s : State) (r : Nat) (st : Status) (n : Nat) : (s.endReq r st n).fab = s.fab := rfl
@[simp] theorem State.endReq_lds (s : State) (r : Nat) (st : Status) (n : Nat) : (s.endReq r st n).lds = s.lds := rfl
@[simp] theorem State.endReq_ev (s : State) (r : Nat) (st : Status) (n : Nat) : (s.endReq r st n).ev = s.ev := rfl
@[simp] theorem State.endReq_mgmt (s : State) (r : Nat) (st : Status) (n : Nat) : (s.endReq r st n).mgmt = s.mgmt := rfl
@[simp] theorem State.endReq_trust (s : State) (r : Nat) (st : Status) (n : Nat) : (s.endReq r st n).trust = s.trust := rfl
@[simp] theorem State.endReq_flt (s : State) (r : Nat) (st : Status) (n : Nat) : (s.endReq r st n).flt = s.flt := rfl
@[simp] theorem State.endReq_gov (s : State) (r : Nat) (st : Status) (n : Nat) : (s.endReq r st n).gov = s.gov := rfl

/-! ### waitReq writes reqs -/

@[simp] theorem State.waitReq_pending (s : State) (r : Nat) (w : Wait) : (s.waitReq r w).pending = s.pending := rfl
@[simp] theorem State.waitReq_free (s : State) (r : Nat) (w : Wait) : (s.waitReq r w).free = s.free := rfl
@[simp] theorem State.waitReq_out (s : State) (r : Nat) (w : Wait) : (s.waitReq r w).out = s.out := rfl
@[simp] theorem State.waitReq_variant (s : State) (r : Nat) (w : Wait) : (s.waitReq r w).variant = s.variant := rfl
@[simp] theorem State.waitReq_clk (s : State) (r : Nat) (w : Wait) : (s.waitReq r w).clk = s.clk := rfl
@[simp] theorem State.waitReq_node (s : State) (r : Nat) (w : Wait) : (s.waitReq r w).node = s.node := rfl
@[simp] theorem State.waitReq_objs (s : State) (r : Nat) (w : Wait) : (s.waitReq r w).objs = s.objs := rfl
@[simp] theorem State.waitReq_octs (s : State) (r : Nat) (w : Wait) : (s.waitReq r w).octs = s.octs := rfl
@[simp] theorem State.waitReq_tenants (s : State) (r : Nat) (w : Wait) : (s.waitReq r w).tenants = s.tenants := rfl
@[simp] theorem State.waitReq_comps (s : State) (r : Nat) (w : Wait) : (s.waitReq r w).comps = s.comps := rfl
@[simp] theorem State.waitReq_reclaims (s : State) (r : Nat) (w : Wait) : (s.waitReq r w).reclaims = s.reclaims := rfl
@[simp] theorem State.waitReq_geoms (s : State) (r : Nat) (w : Wait) : (s.waitReq r w).geoms = s.geoms := rfl
@[simp] theorem State.waitReq_seqs (s : State) (r : Nat) (w : Wait) : (s.waitReq r w).seqs = s.seqs := rfl
@[simp] theorem State.waitReq_mem (s : State) (r : Nat) (w : Wait) : (s.waitReq r w).mem = s.mem := rfl
@[simp] theorem State.waitReq_ps (s : State) (r : Nat) (w : Wait) : (s.waitReq r w).ps = s.ps := rfl
@[simp] theorem State.waitReq_merges (s : State) (r : Nat) (w : Wait) : (s.waitReq r w).merges = s.merges := rfl
@[simp] theorem State.waitReq_gens (s : State) (r : Nat) (w : Wait) : (s.waitReq r w).gens = s.gens := rfl
@[simp] theorem State.waitReq_nextReq (s : State) (r : Nat) (w : Wait) : (s.waitReq r w).nextReq = s.nextReq := rfl
@[simp] theorem State.waitReq_eng (s : State) (r : Nat) (w : Wait) : (s.waitReq r w).eng = s.eng := rfl
@[simp] theorem State.waitReq_wqs (s : State) (r : Nat) (w : Wait) : (s.waitReq r w).wqs = s.wqs := rfl
@[simp] theorem State.waitReq_cqs (s : State) (r : Nat) (w : Wait) : (s.waitReq r w).cqs = s.cqs := rfl
@[simp] theorem State.waitReq_fab (s : State) (r : Nat) (w : Wait) : (s.waitReq r w).fab = s.fab := rfl
@[simp] theorem State.waitReq_lds (s : State) (r : Nat) (w : Wait) : (s.waitReq r w).lds = s.lds := rfl
@[simp] theorem State.waitReq_ev (s : State) (r : Nat) (w : Wait) : (s.waitReq r w).ev = s.ev := rfl
@[simp] theorem State.waitReq_mgmt (s : State) (r : Nat) (w : Wait) : (s.waitReq r w).mgmt = s.mgmt := rfl
@[simp] theorem State.waitReq_trust (s : State) (r : Nat) (w : Wait) : (s.waitReq r w).trust = s.trust := rfl
@[simp] theorem State.waitReq_flt (s : State) (r : Nat) (w : Wait) : (s.waitReq r w).flt = s.flt := rfl
@[simp] theorem State.waitReq_gov (s : State) (r : Nat) (w : Wait) : (s.waitReq r w).gov = s.gov := rfl

/-! ### okReq writes reqs -/

@[simp] theorem State.okReq_pending (s : State) (q : Req) (n : Nat) : (s.okReq q n).pending = s.pending := rfl
@[simp] theorem State.okReq_free (s : State) (q : Req) (n : Nat) : (s.okReq q n).free = s.free := rfl
@[simp] theorem State.okReq_out (s : State) (q : Req) (n : Nat) : (s.okReq q n).out = s.out := rfl
@[simp] theorem State.okReq_variant (s : State) (q : Req) (n : Nat) : (s.okReq q n).variant = s.variant := rfl
@[simp] theorem State.okReq_clk (s : State) (q : Req) (n : Nat) : (s.okReq q n).clk = s.clk := rfl
@[simp] theorem State.okReq_node (s : State) (q : Req) (n : Nat) : (s.okReq q n).node = s.node := rfl
@[simp] theorem State.okReq_objs (s : State) (q : Req) (n : Nat) : (s.okReq q n).objs = s.objs := rfl
@[simp] theorem State.okReq_octs (s : State) (q : Req) (n : Nat) : (s.okReq q n).octs = s.octs := rfl
@[simp] theorem State.okReq_tenants (s : State) (q : Req) (n : Nat) : (s.okReq q n).tenants = s.tenants := rfl
@[simp] theorem State.okReq_comps (s : State) (q : Req) (n : Nat) : (s.okReq q n).comps = s.comps := rfl
@[simp] theorem State.okReq_reclaims (s : State) (q : Req) (n : Nat) : (s.okReq q n).reclaims = s.reclaims := rfl
@[simp] theorem State.okReq_geoms (s : State) (q : Req) (n : Nat) : (s.okReq q n).geoms = s.geoms := rfl
@[simp] theorem State.okReq_seqs (s : State) (q : Req) (n : Nat) : (s.okReq q n).seqs = s.seqs := rfl
@[simp] theorem State.okReq_mem (s : State) (q : Req) (n : Nat) : (s.okReq q n).mem = s.mem := rfl
@[simp] theorem State.okReq_ps (s : State) (q : Req) (n : Nat) : (s.okReq q n).ps = s.ps := rfl
@[simp] theorem State.okReq_merges (s : State) (q : Req) (n : Nat) : (s.okReq q n).merges = s.merges := rfl
@[simp] theorem State.okReq_gens (s : State) (q : Req) (n : Nat) : (s.okReq q n).gens = s.gens := rfl
@[simp] theorem State.okReq_nextReq (s : State) (q : Req) (n : Nat) : (s.okReq q n).nextReq = s.nextReq := rfl
@[simp] theorem State.okReq_eng (s : State) (q : Req) (n : Nat) : (s.okReq q n).eng = s.eng := rfl
@[simp] theorem State.okReq_wqs (s : State) (q : Req) (n : Nat) : (s.okReq q n).wqs = s.wqs := rfl
@[simp] theorem State.okReq_cqs (s : State) (q : Req) (n : Nat) : (s.okReq q n).cqs = s.cqs := rfl
@[simp] theorem State.okReq_fab (s : State) (q : Req) (n : Nat) : (s.okReq q n).fab = s.fab := rfl
@[simp] theorem State.okReq_lds (s : State) (q : Req) (n : Nat) : (s.okReq q n).lds = s.lds := rfl
@[simp] theorem State.okReq_ev (s : State) (q : Req) (n : Nat) : (s.okReq q n).ev = s.ev := rfl
@[simp] theorem State.okReq_mgmt (s : State) (q : Req) (n : Nat) : (s.okReq q n).mgmt = s.mgmt := rfl
@[simp] theorem State.okReq_trust (s : State) (q : Req) (n : Nat) : (s.okReq q n).trust = s.trust := rfl
@[simp] theorem State.okReq_flt (s : State) (q : Req) (n : Nat) : (s.okReq q n).flt = s.flt := rfl
@[simp] theorem State.okReq_gov (s : State) (q : Req) (n : Nat) : (s.okReq q n).gov = s.gov := rfl

/-! ### accept writes reqs -/

@[simp] theorem State.accept_pending (s : State) (r : Nat) (l : List Nat) : (s.accept r l).pending = s.pending := rfl
@[simp] theorem State.accept_free (s : State) (r : Nat) (l : List Nat) : (s.accept r l).free = s.free := rfl
@[simp] theorem State.accept_out (s : State) (r : Nat) (l : List Nat) : (s.accept r l).out = s.out := rfl
@[simp] theorem State.accept_variant (s : State) (r : Nat) (l : List Nat) : (s.accept r l).variant = s.variant := rfl
@[simp] theorem State.accept_clk (s : State) (r : Nat) (l : List Nat) : (s.accept r l).clk = s.clk := rfl
@[simp] theorem State.accept_node (s : State) (r : Nat) (l : List Nat) : (s.accept r l).node = s.node := rfl
@[simp] theorem State.accept_objs (s : State) (r : Nat) (l : List Nat) : (s.accept r l).objs = s.objs := rfl
@[simp] theorem State.accept_octs (s : State) (r : Nat) (l : List Nat) : (s.accept r l).octs = s.octs := rfl
@[simp] theorem State.accept_tenants (s : State) (r : Nat) (l : List Nat) : (s.accept r l).tenants = s.tenants := rfl
@[simp] theorem State.accept_comps (s : State) (r : Nat) (l : List Nat) : (s.accept r l).comps = s.comps := rfl
@[simp] theorem State.accept_reclaims (s : State) (r : Nat) (l : List Nat) : (s.accept r l).reclaims = s.reclaims := rfl
@[simp] theorem State.accept_geoms (s : State) (r : Nat) (l : List Nat) : (s.accept r l).geoms = s.geoms := rfl
@[simp] theorem State.accept_seqs (s : State) (r : Nat) (l : List Nat) : (s.accept r l).seqs = s.seqs := rfl
@[simp] theorem State.accept_mem (s : State) (r : Nat) (l : List Nat) : (s.accept r l).mem = s.mem := rfl
@[simp] theorem State.accept_ps (s : State) (r : Nat) (l : List Nat) : (s.accept r l).ps = s.ps := rfl
@[simp] theorem State.accept_merges (s : State) (r : Nat) (l : List Nat) : (s.accept r l).merges = s.merges := rfl
@[simp] theorem State.accept_gens (s : State) (r : Nat) (l : List Nat) : (s.accept r l).gens = s.gens := rfl
@[simp] theorem State.accept_nextReq (s : State) (r : Nat) (l : List Nat) : (s.accept r l).nextReq = s.nextReq := rfl
@[simp] theorem State.accept_eng (s : State) (r : Nat) (l : List Nat) : (s.accept r l).eng = s.eng := rfl
@[simp] theorem State.accept_wqs (s : State) (r : Nat) (l : List Nat) : (s.accept r l).wqs = s.wqs := rfl
@[simp] theorem State.accept_cqs (s : State) (r : Nat) (l : List Nat) : (s.accept r l).cqs = s.cqs := rfl
@[simp] theorem State.accept_fab (s : State) (r : Nat) (l : List Nat) : (s.accept r l).fab = s.fab := rfl
@[simp] theorem State.accept_lds (s : State) (r : Nat) (l : List Nat) : (s.accept r l).lds = s.lds := rfl
@[simp] theorem State.accept_ev (s : State) (r : Nat) (l : List Nat) : (s.accept r l).ev = s.ev := rfl
@[simp] theorem State.accept_mgmt (s : State) (r : Nat) (l : List Nat) : (s.accept r l).mgmt = s.mgmt := rfl
@[simp] theorem State.accept_trust (s : State) (r : Nat) (l : List Nat) : (s.accept r l).trust = s.trust := rfl
@[simp] theorem State.accept_flt (s : State) (r : Nat) (l : List Nat) : (s.accept r l).flt = s.flt := rfl
@[simp] theorem State.accept_gov (s : State) (r : Nat) (l : List Nat) : (s.accept r l).gov = s.gov := rfl

/-! ### wake writes reqs -/

@[simp] theorem State.wake_pending (s : State) (w : Wait) : (s.wake w).pending = s.pending := rfl
@[simp] theorem State.wake_free (s : State) (w : Wait) : (s.wake w).free = s.free := rfl
@[simp] theorem State.wake_out (s : State) (w : Wait) : (s.wake w).out = s.out := rfl
@[simp] theorem State.wake_variant (s : State) (w : Wait) : (s.wake w).variant = s.variant := rfl
@[simp] theorem State.wake_clk (s : State) (w : Wait) : (s.wake w).clk = s.clk := rfl
@[simp] theorem State.wake_node (s : State) (w : Wait) : (s.wake w).node = s.node := rfl
@[simp] theorem State.wake_objs (s : State) (w : Wait) : (s.wake w).objs = s.objs := rfl
@[simp] theorem State.wake_octs (s : State) (w : Wait) : (s.wake w).octs = s.octs := rfl
@[simp] theorem State.wake_tenants (s : State) (w : Wait) : (s.wake w).tenants = s.tenants := rfl
@[simp] theorem State.wake_comps (s : State) (w : Wait) : (s.wake w).comps = s.comps := rfl
@[simp] theorem State.wake_reclaims (s : State) (w : Wait) : (s.wake w).reclaims = s.reclaims := rfl
@[simp] theorem State.wake_geoms (s : State) (w : Wait) : (s.wake w).geoms = s.geoms := rfl
@[simp] theorem State.wake_seqs (s : State) (w : Wait) : (s.wake w).seqs = s.seqs := rfl
@[simp] theorem State.wake_mem (s : State) (w : Wait) : (s.wake w).mem = s.mem := rfl
@[simp] theorem State.wake_ps (s : State) (w : Wait) : (s.wake w).ps = s.ps := rfl
@[simp] theorem State.wake_merges (s : State) (w : Wait) : (s.wake w).merges = s.merges := rfl
@[simp] theorem State.wake_gens (s : State) (w : Wait) : (s.wake w).gens = s.gens := rfl
@[simp] theorem State.wake_nextReq (s : State) (w : Wait) : (s.wake w).nextReq = s.nextReq := rfl
@[simp] theorem State.wake_eng (s : State) (w : Wait) : (s.wake w).eng = s.eng := rfl
@[simp] theorem State.wake_wqs (s : State) (w : Wait) : (s.wake w).wqs = s.wqs := rfl
@[simp] theorem State.wake_cqs (s : State) (w : Wait) : (s.wake w).cqs = s.cqs := rfl
@[simp] theorem State.wake_fab (s : State) (w : Wait) : (s.wake w).fab = s.fab := rfl
@[simp] theorem State.wake_lds (s : State) (w : Wait) : (s.wake w).lds = s.lds := rfl
@[simp] theorem State.wake_ev (s : State) (w : Wait) : (s.wake w).ev = s.ev := rfl
@[simp] theorem State.wake_mgmt (s : State) (w : Wait) : (s.wake w).mgmt = s.mgmt := rfl
@[simp] theorem State.wake_trust (s : State) (w : Wait) : (s.wake w).trust = s.trust := rfl
@[simp] theorem State.wake_flt (s : State) (w : Wait) : (s.wake w).flt = s.flt := rfl
@[simp] theorem State.wake_gov (s : State) (w : Wait) : (s.wake w).gov = s.gov := rfl

/-! ### modSeq writes seqs -/

@[simp] theorem State.modSeq_pending (s : State) (i : Nat) (f : Seq → Seq) : (s.modSeq i f).pending = s.pending := rfl
@[simp] theorem State.modSeq_free (s : State) (i : Nat) (f : Seq → Seq) : (s.modSeq i f).free = s.free := rfl
@[simp] theorem State.modSeq_out (s : State) (i : Nat) (f : Seq → Seq) : (s.modSeq i f).out = s.out := rfl
@[simp] theorem State.modSeq_variant (s : State) (i : Nat) (f : Seq → Seq) : (s.modSeq i f).variant = s.variant := rfl
@[simp] theorem State.modSeq_clk (s : State) (i : Nat) (f : Seq → Seq) : (s.modSeq i f).clk = s.clk := rfl
@[simp] theorem State.modSeq_node (s : State) (i : Nat) (f : Seq → Seq) : (s.modSeq i f).node = s.node := rfl
@[simp] theorem State.modSeq_objs (s : State) (i : Nat) (f : Seq → Seq) : (s.modSeq i f).objs = s.objs := rfl
@[simp] theorem State.modSeq_octs (s : State) (i : Nat) (f : Seq → Seq) : (s.modSeq i f).octs = s.octs := rfl
@[simp] theorem State.modSeq_tenants (s : State) (i : Nat) (f : Seq → Seq) : (s.modSeq i f).tenants = s.tenants := rfl
@[simp] theorem State.modSeq_comps (s : State) (i : Nat) (f : Seq → Seq) : (s.modSeq i f).comps = s.comps := rfl
@[simp] theorem State.modSeq_reclaims (s : State) (i : Nat) (f : Seq → Seq) : (s.modSeq i f).reclaims = s.reclaims := rfl
@[simp] theorem State.modSeq_geoms (s : State) (i : Nat) (f : Seq → Seq) : (s.modSeq i f).geoms = s.geoms := rfl
@[simp] theorem State.modSeq_mem (s : State) (i : Nat) (f : Seq → Seq) : (s.modSeq i f).mem = s.mem := rfl
@[simp] theorem State.modSeq_ps (s : State) (i : Nat) (f : Seq → Seq) : (s.modSeq i f).ps = s.ps := rfl
@[simp] theorem State.modSeq_merges (s : State) (i : Nat) (f : Seq → Seq) : (s.modSeq i f).merges = s.merges := rfl
@[simp] theorem State.modSeq_gens (s : State) (i : Nat) (f : Seq → Seq) : (s.modSeq i f).gens = s.gens := rfl
@[simp] theorem State.modSeq_reqs (s : State) (i : Nat) (f : Seq → Seq) : (s.modSeq i f).reqs = s.reqs := rfl
@[simp] theorem State.modSeq_nextReq (s : State) (i : Nat) (f : Seq → Seq) : (s.modSeq i f).nextReq = s.nextReq := rfl
@[simp] theorem State.modSeq_eng (s : State) (i : Nat) (f : Seq → Seq) : (s.modSeq i f).eng = s.eng := rfl
@[simp] theorem State.modSeq_wqs (s : State) (i : Nat) (f : Seq → Seq) : (s.modSeq i f).wqs = s.wqs := rfl
@[simp] theorem State.modSeq_cqs (s : State) (i : Nat) (f : Seq → Seq) : (s.modSeq i f).cqs = s.cqs := rfl
@[simp] theorem State.modSeq_fab (s : State) (i : Nat) (f : Seq → Seq) : (s.modSeq i f).fab = s.fab := rfl
@[simp] theorem State.modSeq_lds (s : State) (i : Nat) (f : Seq → Seq) : (s.modSeq i f).lds = s.lds := rfl
@[simp] theorem State.modSeq_ev (s : State) (i : Nat) (f : Seq → Seq) : (s.modSeq i f).ev = s.ev := rfl
@[simp] theorem State.modSeq_mgmt (s : State) (i : Nat) (f : Seq → Seq) : (s.modSeq i f).mgmt = s.mgmt := rfl
@[simp] theorem State.modSeq_trust (s : State) (i : Nat) (f : Seq → Seq) : (s.modSeq i f).trust = s.trust := rfl
@[simp] theorem State.modSeq_flt (s : State) (i : Nat) (f : Seq → Seq) : (s.modSeq i f).flt = s.flt := rfl
@[simp] theorem State.modSeq_gov (s : State) (i : Nat) (f : Seq → Seq) : (s.modSeq i f).gov = s.gov := rfl

/-! ### modMem writes mem -/

@[simp] theorem State.modMem_pending (s : State) (f : Mem → Mem) : (s.modMem f).pending = s.pending := rfl
@[simp] theorem State.modMem_free (s : State) (f : Mem → Mem) : (s.modMem f).free = s.free := rfl
@[simp] theorem State.modMem_out (s : State) (f : Mem → Mem) : (s.modMem f).out = s.out := rfl
@[simp] theorem State.modMem_variant (s : State) (f : Mem → Mem) : (s.modMem f).variant = s.variant := rfl
@[simp] theorem State.modMem_clk (s : State) (f : Mem → Mem) : (s.modMem f).clk = s.clk := rfl
@[simp] theorem State.modMem_node (s : State) (f : Mem → Mem) : (s.modMem f).node = s.node := rfl
@[simp] theorem State.modMem_objs (s : State) (f : Mem → Mem) : (s.modMem f).objs = s.objs := rfl
@[simp] theorem State.modMem_octs (s : State) (f : Mem → Mem) : (s.modMem f).octs = s.octs := rfl
@[simp] theorem State.modMem_tenants (s : State) (f : Mem → Mem) : (s.modMem f).tenants = s.tenants := rfl
@[simp] theorem State.modMem_comps (s : State) (f : Mem → Mem) : (s.modMem f).comps = s.comps := rfl
@[simp] theorem State.modMem_reclaims (s : State) (f : Mem → Mem) : (s.modMem f).reclaims = s.reclaims := rfl
@[simp] theorem State.modMem_geoms (s : State) (f : Mem → Mem) : (s.modMem f).geoms = s.geoms := rfl
@[simp] theorem State.modMem_seqs (s : State) (f : Mem → Mem) : (s.modMem f).seqs = s.seqs := rfl
@[simp] theorem State.modMem_ps (s : State) (f : Mem → Mem) : (s.modMem f).ps = s.ps := rfl
@[simp] theorem State.modMem_merges (s : State) (f : Mem → Mem) : (s.modMem f).merges = s.merges := rfl
@[simp] theorem State.modMem_gens (s : State) (f : Mem → Mem) : (s.modMem f).gens = s.gens := rfl
@[simp] theorem State.modMem_reqs (s : State) (f : Mem → Mem) : (s.modMem f).reqs = s.reqs := rfl
@[simp] theorem State.modMem_nextReq (s : State) (f : Mem → Mem) : (s.modMem f).nextReq = s.nextReq := rfl
@[simp] theorem State.modMem_eng (s : State) (f : Mem → Mem) : (s.modMem f).eng = s.eng := rfl
@[simp] theorem State.modMem_wqs (s : State) (f : Mem → Mem) : (s.modMem f).wqs = s.wqs := rfl
@[simp] theorem State.modMem_cqs (s : State) (f : Mem → Mem) : (s.modMem f).cqs = s.cqs := rfl
@[simp] theorem State.modMem_fab (s : State) (f : Mem → Mem) : (s.modMem f).fab = s.fab := rfl
@[simp] theorem State.modMem_lds (s : State) (f : Mem → Mem) : (s.modMem f).lds = s.lds := rfl
@[simp] theorem State.modMem_ev (s : State) (f : Mem → Mem) : (s.modMem f).ev = s.ev := rfl
@[simp] theorem State.modMem_mgmt (s : State) (f : Mem → Mem) : (s.modMem f).mgmt = s.mgmt := rfl
@[simp] theorem State.modMem_trust (s : State) (f : Mem → Mem) : (s.modMem f).trust = s.trust := rfl
@[simp] theorem State.modMem_flt (s : State) (f : Mem → Mem) : (s.modMem f).flt = s.flt := rfl
@[simp] theorem State.modMem_gov (s : State) (f : Mem → Mem) : (s.modMem f).gov = s.gov := rfl

/-! ### modMerge writes merges -/

@[simp] theorem State.modMerge_pending (s : State) (i : Nat) (f : MergeCtx → MergeCtx) : (s.modMerge i f).pending = s.pending := rfl
@[simp] theorem State.modMerge_free (s : State) (i : Nat) (f : MergeCtx → MergeCtx) : (s.modMerge i f).free = s.free := rfl
@[simp] theorem State.modMerge_out (s : State) (i : Nat) (f : MergeCtx → MergeCtx) : (s.modMerge i f).out = s.out := rfl
@[simp] theorem State.modMerge_variant (s : State) (i : Nat) (f : MergeCtx → MergeCtx) : (s.modMerge i f).variant = s.variant := rfl
@[simp] theorem State.modMerge_clk (s : State) (i : Nat) (f : MergeCtx → MergeCtx) : (s.modMerge i f).clk = s.clk := rfl
@[simp] theorem State.modMerge_node (s : State) (i : Nat) (f : MergeCtx → MergeCtx) : (s.modMerge i f).node = s.node := rfl
@[simp] theorem State.modMerge_objs (s : State) (i : Nat) (f : MergeCtx → MergeCtx) : (s.modMerge i f).objs = s.objs := rfl
@[simp] theorem State.modMerge_octs (s : State) (i : Nat) (f : MergeCtx → MergeCtx) : (s.modMerge i f).octs = s.octs := rfl
@[simp] theorem State.modMerge_tenants (s : State) (i : Nat) (f : MergeCtx → MergeCtx) : (s.modMerge i f).tenants = s.tenants := rfl
@[simp] theorem State.modMerge_comps (s : State) (i : Nat) (f : MergeCtx → MergeCtx) : (s.modMerge i f).comps = s.comps := rfl
@[simp] theorem State.modMerge_reclaims (s : State) (i : Nat) (f : MergeCtx → MergeCtx) : (s.modMerge i f).reclaims = s.reclaims := rfl
@[simp] theorem State.modMerge_geoms (s : State) (i : Nat) (f : MergeCtx → MergeCtx) : (s.modMerge i f).geoms = s.geoms := rfl
@[simp] theorem State.modMerge_seqs (s : State) (i : Nat) (f : MergeCtx → MergeCtx) : (s.modMerge i f).seqs = s.seqs := rfl
@[simp] theorem State.modMerge_mem (s : State) (i : Nat) (f : MergeCtx → MergeCtx) : (s.modMerge i f).mem = s.mem := rfl
@[simp] theorem State.modMerge_ps (s : State) (i : Nat) (f : MergeCtx → MergeCtx) : (s.modMerge i f).ps = s.ps := rfl
@[simp] theorem State.modMerge_gens (s : State) (i : Nat) (f : MergeCtx → MergeCtx) : (s.modMerge i f).gens = s.gens := rfl
@[simp] theorem State.modMerge_reqs (s : State) (i : Nat) (f : MergeCtx → MergeCtx) : (s.modMerge i f).reqs = s.reqs := rfl
@[simp] theorem State.modMerge_nextReq (s : State) (i : Nat) (f : MergeCtx → MergeCtx) : (s.modMerge i f).nextReq = s.nextReq := rfl
@[simp] theorem State.modMerge_eng (s : State) (i : Nat) (f : MergeCtx → MergeCtx) : (s.modMerge i f).eng = s.eng := rfl
@[simp] theorem State.modMerge_wqs (s : State) (i : Nat) (f : MergeCtx → MergeCtx) : (s.modMerge i f).wqs = s.wqs := rfl
@[simp] theorem State.modMerge_cqs (s : State) (i : Nat) (f : MergeCtx → MergeCtx) : (s.modMerge i f).cqs = s.cqs := rfl
@[simp] theorem State.modMerge_fab (s : State) (i : Nat) (f : MergeCtx → MergeCtx) : (s.modMerge i f).fab = s.fab := rfl
@[simp] theorem State.modMerge_lds (s : State) (i : Nat) (f : MergeCtx → MergeCtx) : (s.modMerge i f).lds = s.lds := rfl
@[simp] theorem State.modMerge_ev (s : State) (i : Nat) (f : MergeCtx → MergeCtx) : (s.modMerge i f).ev = s.ev := rfl
@[simp] theorem State.modMerge_mgmt (s : State) (i : Nat) (f : MergeCtx → MergeCtx) : (s.modMerge i f).mgmt = s.mgmt := rfl
@[simp] theorem State.modMerge_trust (s : State) (i : Nat) (f : MergeCtx → MergeCtx) : (s.modMerge i f).trust = s.trust := rfl
@[simp] theorem State.modMerge_flt (s : State) (i : Nat) (f : MergeCtx → MergeCtx) : (s.modMerge i f).flt = s.flt := rfl
@[simp] theorem State.modMerge_gov (s : State) (i : Nat) (f : MergeCtx → MergeCtx) : (s.modMerge i f).gov = s.gov := rfl

/-! ### modComp writes comps -/

@[simp] theorem State.modComp_pending (s : State) (i : Nat) (f : Comp → Comp) : (s.modComp i f).pending = s.pending := rfl
@[simp] theorem State.modComp_free (s : State) (i : Nat) (f : Comp → Comp) : (s.modComp i f).free = s.free := rfl
@[simp] theorem State.modComp_out (s : State) (i : Nat) (f : Comp → Comp) : (s.modComp i f).out = s.out := rfl
@[simp] theorem State.modComp_variant (s : State) (i : Nat) (f : Comp → Comp) : (s.modComp i f).variant = s.variant := rfl
@[simp] theorem State.modComp_clk (s : State) (i : Nat) (f : Comp → Comp) : (s.modComp i f).clk = s.clk := rfl
@[simp] theorem State.modComp_node (s : State) (i : Nat) (f : Comp → Comp) : (s.modComp i f).node = s.node := rfl
@[simp] theorem State.modComp_objs (s : State) (i : Nat) (f : Comp → Comp) : (s.modComp i f).objs = s.objs := rfl
@[simp] theorem State.modComp_octs (s : State) (i : Nat) (f : Comp → Comp) : (s.modComp i f).octs = s.octs := rfl
@[simp] theorem State.modComp_tenants (s : State) (i : Nat) (f : Comp → Comp) : (s.modComp i f).tenants = s.tenants := rfl
@[simp] theorem State.modComp_reclaims (s : State) (i : Nat) (f : Comp → Comp) : (s.modComp i f).reclaims = s.reclaims := rfl
@[simp] theorem State.modComp_geoms (s : State) (i : Nat) (f : Comp → Comp) : (s.modComp i f).geoms = s.geoms := rfl
@[simp] theorem State.modComp_seqs (s : State) (i : Nat) (f : Comp → Comp) : (s.modComp i f).seqs = s.seqs := rfl
@[simp] theorem State.modComp_mem (s : State) (i : Nat) (f : Comp → Comp) : (s.modComp i f).mem = s.mem := rfl
@[simp] theorem State.modComp_ps (s : State) (i : Nat) (f : Comp → Comp) : (s.modComp i f).ps = s.ps := rfl
@[simp] theorem State.modComp_merges (s : State) (i : Nat) (f : Comp → Comp) : (s.modComp i f).merges = s.merges := rfl
@[simp] theorem State.modComp_gens (s : State) (i : Nat) (f : Comp → Comp) : (s.modComp i f).gens = s.gens := rfl
@[simp] theorem State.modComp_reqs (s : State) (i : Nat) (f : Comp → Comp) : (s.modComp i f).reqs = s.reqs := rfl
@[simp] theorem State.modComp_nextReq (s : State) (i : Nat) (f : Comp → Comp) : (s.modComp i f).nextReq = s.nextReq := rfl
@[simp] theorem State.modComp_eng (s : State) (i : Nat) (f : Comp → Comp) : (s.modComp i f).eng = s.eng := rfl
@[simp] theorem State.modComp_wqs (s : State) (i : Nat) (f : Comp → Comp) : (s.modComp i f).wqs = s.wqs := rfl
@[simp] theorem State.modComp_cqs (s : State) (i : Nat) (f : Comp → Comp) : (s.modComp i f).cqs = s.cqs := rfl
@[simp] theorem State.modComp_fab (s : State) (i : Nat) (f : Comp → Comp) : (s.modComp i f).fab = s.fab := rfl
@[simp] theorem State.modComp_lds (s : State) (i : Nat) (f : Comp → Comp) : (s.modComp i f).lds = s.lds := rfl
@[simp] theorem State.modComp_ev (s : State) (i : Nat) (f : Comp → Comp) : (s.modComp i f).ev = s.ev := rfl
@[simp] theorem State.modComp_mgmt (s : State) (i : Nat) (f : Comp → Comp) : (s.modComp i f).mgmt = s.mgmt := rfl
@[simp] theorem State.modComp_trust (s : State) (i : Nat) (f : Comp → Comp) : (s.modComp i f).trust = s.trust := rfl
@[simp] theorem State.modComp_flt (s : State) (i : Nat) (f : Comp → Comp) : (s.modComp i f).flt = s.flt := rfl
@[simp] theorem State.modComp_gov (s : State) (i : Nat) (f : Comp → Comp) : (s.modComp i f).gov = s.gov := rfl

/-! ### modTenant writes tenants -/

@[simp] theorem State.modTenant_pending (s : State) (i : Nat) (f : Tenant → Tenant) : (s.modTenant i f).pending = s.pending := rfl
@[simp] theorem State.modTenant_free (s : State) (i : Nat) (f : Tenant → Tenant) : (s.modTenant i f).free = s.free := rfl
@[simp] theorem State.modTenant_out (s : State) (i : Nat) (f : Tenant → Tenant) : (s.modTenant i f).out = s.out := rfl
@[simp] theorem State.modTenant_variant (s : State) (i : Nat) (f : Tenant → Tenant) : (s.modTenant i f).variant = s.variant := rfl
@[simp] theorem State.modTenant_clk (s : State) (i : Nat) (f : Tenant → Tenant) : (s.modTenant i f).clk = s.clk := rfl
@[simp] theorem State.modTenant_node (s : State) (i : Nat) (f : Tenant → Tenant) : (s.modTenant i f).node = s.node := rfl
@[simp] theorem State.modTenant_objs (s : State) (i : Nat) (f : Tenant → Tenant) : (s.modTenant i f).objs = s.objs := rfl
@[simp] theorem State.modTenant_octs (s : State) (i : Nat) (f : Tenant → Tenant) : (s.modTenant i f).octs = s.octs := rfl
@[simp] theorem State.modTenant_comps (s : State) (i : Nat) (f : Tenant → Tenant) : (s.modTenant i f).comps = s.comps := rfl
@[simp] theorem State.modTenant_reclaims (s : State) (i : Nat) (f : Tenant → Tenant) : (s.modTenant i f).reclaims = s.reclaims := rfl
@[simp] theorem State.modTenant_geoms (s : State) (i : Nat) (f : Tenant → Tenant) : (s.modTenant i f).geoms = s.geoms := rfl
@[simp] theorem State.modTenant_seqs (s : State) (i : Nat) (f : Tenant → Tenant) : (s.modTenant i f).seqs = s.seqs := rfl
@[simp] theorem State.modTenant_mem (s : State) (i : Nat) (f : Tenant → Tenant) : (s.modTenant i f).mem = s.mem := rfl
@[simp] theorem State.modTenant_ps (s : State) (i : Nat) (f : Tenant → Tenant) : (s.modTenant i f).ps = s.ps := rfl
@[simp] theorem State.modTenant_merges (s : State) (i : Nat) (f : Tenant → Tenant) : (s.modTenant i f).merges = s.merges := rfl
@[simp] theorem State.modTenant_gens (s : State) (i : Nat) (f : Tenant → Tenant) : (s.modTenant i f).gens = s.gens := rfl
@[simp] theorem State.modTenant_reqs (s : State) (i : Nat) (f : Tenant → Tenant) : (s.modTenant i f).reqs = s.reqs := rfl
@[simp] theorem State.modTenant_nextReq (s : State) (i : Nat) (f : Tenant → Tenant) : (s.modTenant i f).nextReq = s.nextReq := rfl
@[simp] theorem State.modTenant_eng (s : State) (i : Nat) (f : Tenant → Tenant) : (s.modTenant i f).eng = s.eng := rfl
@[simp] theorem State.modTenant_wqs (s : State) (i : Nat) (f : Tenant → Tenant) : (s.modTenant i f).wqs = s.wqs := rfl
@[simp] theorem State.modTenant_cqs (s : State) (i : Nat) (f : Tenant → Tenant) : (s.modTenant i f).cqs = s.cqs := rfl
@[simp] theorem State.modTenant_fab (s : State) (i : Nat) (f : Tenant → Tenant) : (s.modTenant i f).fab = s.fab := rfl
@[simp] theorem State.modTenant_lds (s : State) (i : Nat) (f : Tenant → Tenant) : (s.modTenant i f).lds = s.lds := rfl
@[simp] theorem State.modTenant_ev (s : State) (i : Nat) (f : Tenant → Tenant) : (s.modTenant i f).ev = s.ev := rfl
@[simp] theorem State.modTenant_mgmt (s : State) (i : Nat) (f : Tenant → Tenant) : (s.modTenant i f).mgmt = s.mgmt := rfl
@[simp] theorem State.modTenant_trust (s : State) (i : Nat) (f : Tenant → Tenant) : (s.modTenant i f).trust = s.trust := rfl
@[simp] theorem State.modTenant_flt (s : State) (i : Nat) (f : Tenant → Tenant) : (s.modTenant i f).flt = s.flt := rfl
@[simp] theorem State.modTenant_gov (s : State) (i : Nat) (f : Tenant → Tenant) : (s.modTenant i f).gov = s.gov := rfl

/-! ### modReclaim writes reclaims -/

@[simp] theorem State.modReclaim_pending (s : State) (i : Nat) (f : Reclaim → Reclaim) : (s.modReclaim i f).pending = s.pending := rfl
@[simp] theorem State.modReclaim_free (s : State) (i : Nat) (f : Reclaim → Reclaim) : (s.modReclaim i f).free = s.free := rfl
@[simp] theorem State.modReclaim_out (s : State) (i : Nat) (f : Reclaim → Reclaim) : (s.modReclaim i f).out = s.out := rfl
@[simp] theorem State.modReclaim_variant (s : State) (i : Nat) (f : Reclaim → Reclaim) : (s.modReclaim i f).variant = s.variant := rfl
@[simp] theorem State.modReclaim_clk (s : State) (i : Nat) (f : Reclaim → Reclaim) : (s.modReclaim i f).clk = s.clk := rfl
@[simp] theorem State.modReclaim_node (s : State) (i : Nat) (f : Reclaim → Reclaim) : (s.modReclaim i f).node = s.node := rfl
@[simp] theorem State.modReclaim_objs (s : State) (i : Nat) (f : Reclaim → Reclaim) : (s.modReclaim i f).objs = s.objs := rfl
@[simp] theorem State.modReclaim_octs (s : State) (i : Nat) (f : Reclaim → Reclaim) : (s.modReclaim i f).octs = s.octs := rfl
@[simp] theorem State.modReclaim_tenants (s : State) (i : Nat) (f : Reclaim → Reclaim) : (s.modReclaim i f).tenants = s.tenants := rfl
@[simp] theorem State.modReclaim_comps (s : State) (i : Nat) (f : Reclaim → Reclaim) : (s.modReclaim i f).comps = s.comps := rfl
@[simp] theorem State.modReclaim_geoms (s : State) (i : Nat) (f : Reclaim → Reclaim) : (s.modReclaim i f).geoms = s.geoms := rfl
@[simp] theorem State.modReclaim_seqs (s : State) (i : Nat) (f : Reclaim → Reclaim) : (s.modReclaim i f).seqs = s.seqs := rfl
@[simp] theorem State.modReclaim_mem (s : State) (i : Nat) (f : Reclaim → Reclaim) : (s.modReclaim i f).mem = s.mem := rfl
@[simp] theorem State.modReclaim_ps (s : State) (i : Nat) (f : Reclaim → Reclaim) : (s.modReclaim i f).ps = s.ps := rfl
@[simp] theorem State.modReclaim_merges (s : State) (i : Nat) (f : Reclaim → Reclaim) : (s.modReclaim i f).merges = s.merges := rfl
@[simp] theorem State.modReclaim_gens (s : State) (i : Nat) (f : Reclaim → Reclaim) : (s.modReclaim i f).gens = s.gens := rfl
@[simp] theorem State.modReclaim_reqs (s : State) (i : Nat) (f : Reclaim → Reclaim) : (s.modReclaim i f).reqs = s.reqs := rfl
@[simp] theorem State.modReclaim_nextReq (s : State) (i : Nat) (f : Reclaim → Reclaim) : (s.modReclaim i f).nextReq = s.nextReq := rfl
@[simp] theorem State.modReclaim_eng (s : State) (i : Nat) (f : Reclaim → Reclaim) : (s.modReclaim i f).eng = s.eng := rfl
@[simp] theorem State.modReclaim_wqs (s : State) (i : Nat) (f : Reclaim → Reclaim) : (s.modReclaim i f).wqs = s.wqs := rfl
@[simp] theorem State.modReclaim_cqs (s : State) (i : Nat) (f : Reclaim → Reclaim) : (s.modReclaim i f).cqs = s.cqs := rfl
@[simp] theorem State.modReclaim_fab (s : State) (i : Nat) (f : Reclaim → Reclaim) : (s.modReclaim i f).fab = s.fab := rfl
@[simp] theorem State.modReclaim_lds (s : State) (i : Nat) (f : Reclaim → Reclaim) : (s.modReclaim i f).lds = s.lds := rfl
@[simp] theorem State.modReclaim_ev (s : State) (i : Nat) (f : Reclaim → Reclaim) : (s.modReclaim i f).ev = s.ev := rfl
@[simp] theorem State.modReclaim_mgmt (s : State) (i : Nat) (f : Reclaim → Reclaim) : (s.modReclaim i f).mgmt = s.mgmt := rfl
@[simp] theorem State.modReclaim_trust (s : State) (i : Nat) (f : Reclaim → Reclaim) : (s.modReclaim i f).trust = s.trust := rfl
@[simp] theorem State.modReclaim_flt (s : State) (i : Nat) (f : Reclaim → Reclaim) : (s.modReclaim i f).flt = s.flt := rfl
@[simp] theorem State.modReclaim_gov (s : State) (i : Nat) (f : Reclaim → Reclaim) : (s.modReclaim i f).gov = s.gov := rfl

/-! ### modLd writes lds -/

@[simp] theorem State.modLd_pending (s : State) (i : Nat) (f : Ld → Ld) : (s.modLd i f).pending = s.pending := rfl
@[simp] theorem State.modLd_free (s : State) (i : Nat) (f : Ld → Ld) : (s.modLd i f).free = s.free := rfl
@[simp] theorem State.modLd_out (s : State) (i : Nat) (f : Ld → Ld) : (s.modLd i f).out = s.out := rfl
@[simp] theorem State.modLd_variant (s : State) (i : Nat) (f : Ld → Ld) : (s.modLd i f).variant = s.variant := rfl
@[simp] theorem State.modLd_clk (s : State) (i : Nat) (f : Ld → Ld) : (s.modLd i f).clk = s.clk := rfl
@[simp] theorem State.modLd_node (s : State) (i : Nat) (f : Ld → Ld) : (s.modLd i f).node = s.node := rfl
@[simp] theorem State.modLd_objs (s : State) (i : Nat) (f : Ld → Ld) : (s.modLd i f).objs = s.objs := rfl
@[simp] theorem State.modLd_octs (s : State) (i : Nat) (f : Ld → Ld) : (s.modLd i f).octs = s.octs := rfl
@[simp] theorem State.modLd_tenants (s : State) (i : Nat) (f : Ld → Ld) : (s.modLd i f).tenants = s.tenants := rfl
@[simp] theorem State.modLd_comps (s : State) (i : Nat) (f : Ld → Ld) : (s.modLd i f).comps = s.comps := rfl
@[simp] theorem State.modLd_reclaims (s : State) (i : Nat) (f : Ld → Ld) : (s.modLd i f).reclaims = s.reclaims := rfl
@[simp] theorem State.modLd_geoms (s : State) (i : Nat) (f : Ld → Ld) : (s.modLd i f).geoms = s.geoms := rfl
@[simp] theorem State.modLd_seqs (s : State) (i : Nat) (f : Ld → Ld) : (s.modLd i f).seqs = s.seqs := rfl
@[simp] theorem State.modLd_mem (s : State) (i : Nat) (f : Ld → Ld) : (s.modLd i f).mem = s.mem := rfl
@[simp] theorem State.modLd_ps (s : State) (i : Nat) (f : Ld → Ld) : (s.modLd i f).ps = s.ps := rfl
@[simp] theorem State.modLd_merges (s : State) (i : Nat) (f : Ld → Ld) : (s.modLd i f).merges = s.merges := rfl
@[simp] theorem State.modLd_gens (s : State) (i : Nat) (f : Ld → Ld) : (s.modLd i f).gens = s.gens := rfl
@[simp] theorem State.modLd_reqs (s : State) (i : Nat) (f : Ld → Ld) : (s.modLd i f).reqs = s.reqs := rfl
@[simp] theorem State.modLd_nextReq (s : State) (i : Nat) (f : Ld → Ld) : (s.modLd i f).nextReq = s.nextReq := rfl
@[simp] theorem State.modLd_eng (s : State) (i : Nat) (f : Ld → Ld) : (s.modLd i f).eng = s.eng := rfl
@[simp] theorem State.modLd_wqs (s : State) (i : Nat) (f : Ld → Ld) : (s.modLd i f).wqs = s.wqs := rfl
@[simp] theorem State.modLd_cqs (s : State) (i : Nat) (f : Ld → Ld) : (s.modLd i f).cqs = s.cqs := rfl
@[simp] theorem State.modLd_fab (s : State) (i : Nat) (f : Ld → Ld) : (s.modLd i f).fab = s.fab := rfl
@[simp] theorem State.modLd_ev (s : State) (i : Nat) (f : Ld → Ld) : (s.modLd i f).ev = s.ev := rfl
@[simp] theorem State.modLd_mgmt (s : State) (i : Nat) (f : Ld → Ld) : (s.modLd i f).mgmt = s.mgmt := rfl
@[simp] theorem State.modLd_trust (s : State) (i : Nat) (f : Ld → Ld) : (s.modLd i f).trust = s.trust := rfl
@[simp] theorem State.modLd_flt (s : State) (i : Nat) (f : Ld → Ld) : (s.modLd i f).flt = s.flt := rfl
@[simp] theorem State.modLd_gov (s : State) (i : Nat) (f : Ld → Ld) : (s.modLd i f).gov = s.gov := rfl

/-! ### modWq writes wqs -/

@[simp] theorem State.modWq_pending (s : State) (i : Nat) (f : Wq → Wq) : (s.modWq i f).pending = s.pending := rfl
@[simp] theorem State.modWq_free (s : State) (i : Nat) (f : Wq → Wq) : (s.modWq i f).free = s.free := rfl
@[simp] theorem State.modWq_out (s : State) (i : Nat) (f : Wq → Wq) : (s.modWq i f).out = s.out := rfl
@[simp] theorem State.modWq_variant (s : State) (i : Nat) (f : Wq → Wq) : (s.modWq i f).variant = s.variant := rfl
@[simp] theorem State.modWq_clk (s : State) (i : Nat) (f : Wq → Wq) : (s.modWq i f).clk = s.clk := rfl
@[simp] theorem State.modWq_node (s : State) (i : Nat) (f : Wq → Wq) : (s.modWq i f).node = s.node := rfl
@[simp] theorem State.modWq_objs (s : State) (i : Nat) (f : Wq → Wq) : (s.modWq i f).objs = s.objs := rfl
@[simp] theorem State.modWq_octs (s : State) (i : Nat) (f : Wq → Wq) : (s.modWq i f).octs = s.octs := rfl
@[simp] theorem State.modWq_tenants (s : State) (i : Nat) (f : Wq → Wq) : (s.modWq i f).tenants = s.tenants := rfl
@[simp] theorem State.modWq_comps (s : State) (i : Nat) (f : Wq → Wq) : (s.modWq i f).comps = s.comps := rfl
@[simp] theorem State.modWq_reclaims (s : State) (i : Nat) (f : Wq → Wq) : (s.modWq i f).reclaims = s.reclaims := rfl
@[simp] theorem State.modWq_geoms (s : State) (i : Nat) (f : Wq → Wq) : (s.modWq i f).geoms = s.geoms := rfl
@[simp] theorem State.modWq_seqs (s : State) (i : Nat) (f : Wq → Wq) : (s.modWq i f).seqs = s.seqs := rfl
@[simp] theorem State.modWq_mem (s : State) (i : Nat) (f : Wq → Wq) : (s.modWq i f).mem = s.mem := rfl
@[simp] theorem State.modWq_ps (s : State) (i : Nat) (f : Wq → Wq) : (s.modWq i f).ps = s.ps := rfl
@[simp] theorem State.modWq_merges (s : State) (i : Nat) (f : Wq → Wq) : (s.modWq i f).merges = s.merges := rfl
@[simp] theorem State.modWq_gens (s : State) (i : Nat) (f : Wq → Wq) : (s.modWq i f).gens = s.gens := rfl
@[simp] theorem State.modWq_reqs (s : State) (i : Nat) (f : Wq → Wq) : (s.modWq i f).reqs = s.reqs := rfl
@[simp] theorem State.modWq_nextReq (s : State) (i : Nat) (f : Wq → Wq) : (s.modWq i f).nextReq = s.nextReq := rfl
@[simp] theorem State.modWq_eng (s : State) (i : Nat) (f : Wq → Wq) : (s.modWq i f).eng = s.eng := rfl
@[simp] theorem State.modWq_cqs (s : State) (i : Nat) (f : Wq → Wq) : (s.modWq i f).cqs = s.cqs := rfl
@[simp] theorem State.modWq_fab (s : State) (i : Nat) (f : Wq → Wq) : (s.modWq i f).fab = s.fab := rfl
@[simp] theorem State.modWq_lds (s : State) (i : Nat) (f : Wq → Wq) : (s.modWq i f).lds = s.lds := rfl
@[simp] theorem State.modWq_ev (s : State) (i : Nat) (f : Wq → Wq) : (s.modWq i f).ev = s.ev := rfl
@[simp] theorem State.modWq_mgmt (s : State) (i : Nat) (f : Wq → Wq) : (s.modWq i f).mgmt = s.mgmt := rfl
@[simp] theorem State.modWq_trust (s : State) (i : Nat) (f : Wq → Wq) : (s.modWq i f).trust = s.trust := rfl
@[simp] theorem State.modWq_flt (s : State) (i : Nat) (f : Wq → Wq) : (s.modWq i f).flt = s.flt := rfl
@[simp] theorem State.modWq_gov (s : State) (i : Nat) (f : Wq → Wq) : (s.modWq i f).gov = s.gov := rfl

/-! ### modCq writes cqs -/

@[simp] theorem State.modCq_pending (s : State) (i : Nat) (f : Cq → Cq) : (s.modCq i f).pending = s.pending := rfl
@[simp] theorem State.modCq_free (s : State) (i : Nat) (f : Cq → Cq) : (s.modCq i f).free = s.free := rfl
@[simp] theorem State.modCq_out (s : State) (i : Nat) (f : Cq → Cq) : (s.modCq i f).out = s.out := rfl
@[simp] theorem State.modCq_variant (s : State) (i : Nat) (f : Cq → Cq) : (s.modCq i f).variant = s.variant := rfl
@[simp] theorem State.modCq_clk (s : State) (i : Nat) (f : Cq → Cq) : (s.modCq i f).clk = s.clk := rfl
@[simp] theorem State.modCq_node (s : State) (i : Nat) (f : Cq → Cq) : (s.modCq i f).node = s.node := rfl
@[simp] theorem State.modCq_objs (s : State) (i : Nat) (f : Cq → Cq) : (s.modCq i f).objs = s.objs := rfl
@[simp] theorem State.modCq_octs (s : State) (i : Nat) (f : Cq → Cq) : (s.modCq i f).octs = s.octs := rfl
@[simp] theorem State.modCq_tenants (s : State) (i : Nat) (f : Cq → Cq) : (s.modCq i f).tenants = s.tenants := rfl
@[simp] theorem State.modCq_comps (s : State) (i : Nat) (f : Cq → Cq) : (s.modCq i f).comps = s.comps := rfl
@[simp] theorem State.modCq_reclaims (s : State) (i : Nat) (f : Cq → Cq) : (s.modCq i f).reclaims = s.reclaims := rfl
@[simp] theorem State.modCq_geoms (s : State) (i : Nat) (f : Cq → Cq) : (s.modCq i f).geoms = s.geoms := rfl
@[simp] theorem State.modCq_seqs (s : State) (i : Nat) (f : Cq → Cq) : (s.modCq i f).seqs = s.seqs := rfl
@[simp] theorem State.modCq_mem (s : State) (i : Nat) (f : Cq → Cq) : (s.modCq i f).mem = s.mem := rfl
@[simp] theorem State.modCq_ps (s : State) (i : Nat) (f : Cq → Cq) : (s.modCq i f).ps = s.ps := rfl
@[simp] theorem State.modCq_merges (s : State) (i : Nat) (f : Cq → Cq) : (s.modCq i f).merges = s.merges := rfl
@[simp] theorem State.modCq_gens (s : State) (i : Nat) (f : Cq → Cq) : (s.modCq i f).gens = s.gens := rfl
@[simp] theorem State.modCq_reqs (s : State) (i : Nat) (f : Cq → Cq) : (s.modCq i f).reqs = s.reqs := rfl
@[simp] theorem State.modCq_nextReq (s : State) (i : Nat) (f : Cq → Cq) : (s.modCq i f).nextReq = s.nextReq := rfl
@[simp] theorem State.modCq_eng (s : State) (i : Nat) (f : Cq → Cq) : (s.modCq i f).eng = s.eng := rfl
@[simp] theorem State.modCq_wqs (s : State) (i : Nat) (f : Cq → Cq) : (s.modCq i f).wqs = s.wqs := rfl
@[simp] theorem State.modCq_fab (s : State) (i : Nat) (f : Cq → Cq) : (s.modCq i f).fab = s.fab := rfl
@[simp] theorem State.modCq_lds (s : State) (i : Nat) (f : Cq → Cq) : (s.modCq i f).lds = s.lds := rfl
@[simp] theorem State.modCq_ev (s : State) (i : Nat) (f : Cq → Cq) : (s.modCq i f).ev = s.ev := rfl
@[simp] theorem State.modCq_mgmt (s : State) (i : Nat) (f : Cq → Cq) : (s.modCq i f).mgmt = s.mgmt := rfl
@[simp] theorem State.modCq_trust (s : State) (i : Nat) (f : Cq → Cq) : (s.modCq i f).trust = s.trust := rfl
@[simp] theorem State.modCq_flt (s : State) (i : Nat) (f : Cq → Cq) : (s.modCq i f).flt = s.flt := rfl
@[simp] theorem State.modCq_gov (s : State) (i : Nat) (f : Cq → Cq) : (s.modCq i f).gov = s.gov := rfl

/-! ### modConn writes fab -/

@[simp] theorem State.modConn_pending (s : State) (i : Nat) (f : Conn → Conn) : (s.modConn i f).pending = s.pending := rfl
@[simp] theorem State.modConn_free (s : State) (i : Nat) (f : Conn → Conn) : (s.modConn i f).free = s.free := rfl
@[simp] theorem State.modConn_out (s : State) (i : Nat) (f : Conn → Conn) : (s.modConn i f).out = s.out := rfl
@[simp] theorem State.modConn_variant (s : State) (i : Nat) (f : Conn → Conn) : (s.modConn i f).variant = s.variant := rfl
@[simp] theorem State.modConn_clk (s : State) (i : Nat) (f : Conn → Conn) : (s.modConn i f).clk = s.clk := rfl
@[simp] theorem State.modConn_node (s : State) (i : Nat) (f : Conn → Conn) : (s.modConn i f).node = s.node := rfl
@[simp] theorem State.modConn_objs (s : State) (i : Nat) (f : Conn → Conn) : (s.modConn i f).objs = s.objs := rfl
@[simp] theorem State.modConn_octs (s : State) (i : Nat) (f : Conn → Conn) : (s.modConn i f).octs = s.octs := rfl
@[simp] theorem State.modConn_tenants (s : State) (i : Nat) (f : Conn → Conn) : (s.modConn i f).tenants = s.tenants := rfl
@[simp] theorem State.modConn_comps (s : State) (i : Nat) (f : Conn → Conn) : (s.modConn i f).comps = s.comps := rfl
@[simp] theorem State.modConn_reclaims (s : State) (i : Nat) (f : Conn → Conn) : (s.modConn i f).reclaims = s.reclaims := rfl
@[simp] theorem State.modConn_geoms (s : State) (i : Nat) (f : Conn → Conn) : (s.modConn i f).geoms = s.geoms := rfl
@[simp] theorem State.modConn_seqs (s : State) (i : Nat) (f : Conn → Conn) : (s.modConn i f).seqs = s.seqs := rfl
@[simp] theorem State.modConn_mem (s : State) (i : Nat) (f : Conn → Conn) : (s.modConn i f).mem = s.mem := rfl
@[simp] theorem State.modConn_ps (s : State) (i : Nat) (f : Conn → Conn) : (s.modConn i f).ps = s.ps := rfl
@[simp] theorem State.modConn_merges (s : State) (i : Nat) (f : Conn → Conn) : (s.modConn i f).merges = s.merges := rfl
@[simp] theorem State.modConn_gens (s : State) (i : Nat) (f : Conn → Conn) : (s.modConn i f).gens = s.gens := rfl
@[simp] theorem State.modConn_reqs (s : State) (i : Nat) (f : Conn → Conn) : (s.modConn i f).reqs = s.reqs := rfl
@[simp] theorem State.modConn_nextReq (s : State) (i : Nat) (f : Conn → Conn) : (s.modConn i f).nextReq = s.nextReq := rfl
@[simp] theorem State.modConn_eng (s : State) (i : Nat) (f : Conn → Conn) : (s.modConn i f).eng = s.eng := rfl
@[simp] theorem State.modConn_wqs (s : State) (i : Nat) (f : Conn → Conn) : (s.modConn i f).wqs = s.wqs := rfl
@[simp] theorem State.modConn_cqs (s : State) (i : Nat) (f : Conn → Conn) : (s.modConn i f).cqs = s.cqs := rfl
@[simp] theorem State.modConn_lds (s : State) (i : Nat) (f : Conn → Conn) : (s.modConn i f).lds = s.lds := rfl
@[simp] theorem State.modConn_ev (s : State) (i : Nat) (f : Conn → Conn) : (s.modConn i f).ev = s.ev := rfl
@[simp] theorem State.modConn_mgmt (s : State) (i : Nat) (f : Conn → Conn) : (s.modConn i f).mgmt = s.mgmt := rfl
@[simp] theorem State.modConn_trust (s : State) (i : Nat) (f : Conn → Conn) : (s.modConn i f).trust = s.trust := rfl
@[simp] theorem State.modConn_flt (s : State) (i : Nat) (f : Conn → Conn) : (s.modConn i f).flt = s.flt := rfl
@[simp] theorem State.modConn_gov (s : State) (i : Nat) (f : Conn → Conn) : (s.modConn i f).gov = s.gov := rfl

/-! ### modRegion writes fab -/

@[simp] theorem State.modRegion_pending (s : State) (i : Nat) (f : Region → Region) : (s.modRegion i f).pending = s.pending := rfl
@[simp] theorem State.modRegion_free (s : State) (i : Nat) (f : Region → Region) : (s.modRegion i f).free = s.free := rfl
@[simp] theorem State.modRegion_out (s : State) (i : Nat) (f : Region → Region) : (s.modRegion i f).out = s.out := rfl
@[simp] theorem State.modRegion_variant (s : State) (i : Nat) (f : Region → Region) : (s.modRegion i f).variant = s.variant := rfl
@[simp] theorem State.modRegion_clk (s : State) (i : Nat) (f : Region → Region) : (s.modRegion i f).clk = s.clk := rfl
@[simp] theorem State.modRegion_node (s : State) (i : Nat) (f : Region → Region) : (s.modRegion i f).node = s.node := rfl
@[simp] theorem State.modRegion_objs (s : State) (i : Nat) (f : Region → Region) : (s.modRegion i f).objs = s.objs := rfl
@[simp] theorem State.modRegion_octs (s : State) (i : Nat) (f : Region → Region) : (s.modRegion i f).octs = s.octs := rfl
@[simp] theorem State.modRegion_tenants (s : State) (i : Nat) (f : Region → Region) : (s.modRegion i f).tenants = s.tenants := rfl
@[simp] theorem State.modRegion_comps (s : State) (i : Nat) (f : Region → Region) : (s.modRegion i f).comps = s.comps := rfl
@[simp] theorem State.modRegion_reclaims (s : State) (i : Nat) (f : Region → Region) : (s.modRegion i f).reclaims = s.reclaims := rfl
@[simp] theorem State.modRegion_geoms (s : State) (i : Nat) (f : Region → Region) : (s.modRegion i f).geoms = s.geoms := rfl
@[simp] theorem State.modRegion_seqs (s : State) (i : Nat) (f : Region → Region) : (s.modRegion i f).seqs = s.seqs := rfl
@[simp] theorem State.modRegion_mem (s : State) (i : Nat) (f : Region → Region) : (s.modRegion i f).mem = s.mem := rfl
@[simp] theorem State.modRegion_ps (s : State) (i : Nat) (f : Region → Region) : (s.modRegion i f).ps = s.ps := rfl
@[simp] theorem State.modRegion_merges (s : State) (i : Nat) (f : Region → Region) : (s.modRegion i f).merges = s.merges := rfl
@[simp] theorem State.modRegion_gens (s : State) (i : Nat) (f : Region → Region) : (s.modRegion i f).gens = s.gens := rfl
@[simp] theorem State.modRegion_reqs (s : State) (i : Nat) (f : Region → Region) : (s.modRegion i f).reqs = s.reqs := rfl
@[simp] theorem State.modRegion_nextReq (s : State) (i : Nat) (f : Region → Region) : (s.modRegion i f).nextReq = s.nextReq := rfl
@[simp] theorem State.modRegion_eng (s : State) (i : Nat) (f : Region → Region) : (s.modRegion i f).eng = s.eng := rfl
@[simp] theorem State.modRegion_wqs (s : State) (i : Nat) (f : Region → Region) : (s.modRegion i f).wqs = s.wqs := rfl
@[simp] theorem State.modRegion_cqs (s : State) (i : Nat) (f : Region → Region) : (s.modRegion i f).cqs = s.cqs := rfl
@[simp] theorem State.modRegion_lds (s : State) (i : Nat) (f : Region → Region) : (s.modRegion i f).lds = s.lds := rfl
@[simp] theorem State.modRegion_ev (s : State) (i : Nat) (f : Region → Region) : (s.modRegion i f).ev = s.ev := rfl
@[simp] theorem State.modRegion_mgmt (s : State) (i : Nat) (f : Region → Region) : (s.modRegion i f).mgmt = s.mgmt := rfl
@[simp] theorem State.modRegion_trust (s : State) (i : Nat) (f : Region → Region) : (s.modRegion i f).trust = s.trust := rfl
@[simp] theorem State.modRegion_flt (s : State) (i : Nat) (f : Region → Region) : (s.modRegion i f).flt = s.flt := rfl
@[simp] theorem State.modRegion_gov (s : State) (i : Nat) (f : Region → Region) : (s.modRegion i f).gov = s.gov := rfl

/-! ### setPort writes fab -/

@[simp] theorem State.setPort_pending (s : State) (x : Port) : (s.setPort x).pending = s.pending := rfl
@[simp] theorem State.setPort_free (s : State) (x : Port) : (s.setPort x).free = s.free := rfl
@[simp] theorem State.setPort_out (s : State) (x : Port) : (s.setPort x).out = s.out := rfl
@[simp] theorem State.setPort_variant (s : State) (x : Port) : (s.setPort x).variant = s.variant := rfl
@[simp] theorem State.setPort_clk (s : State) (x : Port) : (s.setPort x).clk = s.clk := rfl
@[simp] theorem State.setPort_node (s : State) (x : Port) : (s.setPort x).node = s.node := rfl
@[simp] theorem State.setPort_objs (s : State) (x : Port) : (s.setPort x).objs = s.objs := rfl
@[simp] theorem State.setPort_octs (s : State) (x : Port) : (s.setPort x).octs = s.octs := rfl
@[simp] theorem State.setPort_tenants (s : State) (x : Port) : (s.setPort x).tenants = s.tenants := rfl
@[simp] theorem State.setPort_comps (s : State) (x : Port) : (s.setPort x).comps = s.comps := rfl
@[simp] theorem State.setPort_reclaims (s : State) (x : Port) : (s.setPort x).reclaims = s.reclaims := rfl
@[simp] theorem State.setPort_geoms (s : State) (x : Port) : (s.setPort x).geoms = s.geoms := rfl
@[simp] theorem State.setPort_seqs (s : State) (x : Port) : (s.setPort x).seqs = s.seqs := rfl
@[simp] theorem State.setPort_mem (s : State) (x : Port) : (s.setPort x).mem = s.mem := rfl
@[simp] theorem State.setPort_ps (s : State) (x : Port) : (s.setPort x).ps = s.ps := rfl
@[simp] theorem State.setPort_merges (s : State) (x : Port) : (s.setPort x).merges = s.merges := rfl
@[simp] theorem State.setPort_gens (s : State) (x : Port) : (s.setPort x).gens = s.gens := rfl
@[simp] theorem State.setPort_reqs (s : State) (x : Port) : (s.setPort x).reqs = s.reqs := rfl
@[simp] theorem State.setPort_nextReq (s : State) (x : Port) : (s.setPort x).nextReq = s.nextReq := rfl
@[simp] theorem State.setPort_eng (s : State) (x : Port) : (s.setPort x).eng = s.eng := rfl
@[simp] theorem State.setPort_wqs (s : State) (x : Port) : (s.setPort x).wqs = s.wqs := rfl
@[simp] theorem State.setPort_cqs (s : State) (x : Port) : (s.setPort x).cqs = s.cqs := rfl
@[simp] theorem State.setPort_lds (s : State) (x : Port) : (s.setPort x).lds = s.lds := rfl
@[simp] theorem State.setPort_ev (s : State) (x : Port) : (s.setPort x).ev = s.ev := rfl
@[simp] theorem State.setPort_mgmt (s : State) (x : Port) : (s.setPort x).mgmt = s.mgmt := rfl
@[simp] theorem State.setPort_trust (s : State) (x : Port) : (s.setPort x).trust = s.trust := rfl
@[simp] theorem State.setPort_flt (s : State) (x : Port) : (s.setPort x).flt = s.flt := rfl
@[simp] theorem State.setPort_gov (s : State) (x : Port) : (s.setPort x).gov = s.gov := rfl

/-! ### modNode writes node -/

@[simp] theorem State.modNode_pending (s : State) (f : Node → Node) : (s.modNode f).pending = s.pending := rfl
@[simp] theorem State.modNode_free (s : State) (f : Node → Node) : (s.modNode f).free = s.free := rfl
@[simp] theorem State.modNode_out (s : State) (f : Node → Node) : (s.modNode f).out = s.out := rfl
@[simp] theorem State.modNode_variant (s : State) (f : Node → Node) : (s.modNode f).variant = s.variant := rfl
@[simp] theorem State.modNode_clk (s : State) (f : Node → Node) : (s.modNode f).clk = s.clk := rfl
@[simp] theorem State.modNode_objs (s : State) (f : Node → Node) : (s.modNode f).objs = s.objs := rfl
@[simp] theorem State.modNode_octs (s : State) (f : Node → Node) : (s.modNode f).octs = s.octs := rfl
@[simp] theorem State.modNode_tenants (s : State) (f : Node → Node) : (s.modNode f).tenants = s.tenants := rfl
@[simp] theorem State.modNode_comps (s : State) (f : Node → Node) : (s.modNode f).comps = s.comps := rfl
@[simp] theorem State.modNode_reclaims (s : State) (f : Node → Node) : (s.modNode f).reclaims = s.reclaims := rfl
@[simp] theorem State.modNode_geoms (s : State) (f : Node → Node) : (s.modNode f).geoms = s.geoms := rfl
@[simp] theorem State.modNode_seqs (s : State) (f : Node → Node) : (s.modNode f).seqs = s.seqs := rfl
@[simp] theorem State.modNode_mem (s : State) (f : Node → Node) : (s.modNode f).mem = s.mem := rfl
@[simp] theorem State.modNode_ps (s : State) (f : Node → Node) : (s.modNode f).ps = s.ps := rfl
@[simp] theorem State.modNode_merges (s : State) (f : Node → Node) : (s.modNode f).merges = s.merges := rfl
@[simp] theorem State.modNode_gens (s : State) (f : Node → Node) : (s.modNode f).gens = s.gens := rfl
@[simp] theorem State.modNode_reqs (s : State) (f : Node → Node) : (s.modNode f).reqs = s.reqs := rfl
@[simp] theorem State.modNode_nextReq (s : State) (f : Node → Node) : (s.modNode f).nextReq = s.nextReq := rfl
@[simp] theorem State.modNode_eng (s : State) (f : Node → Node) : (s.modNode f).eng = s.eng := rfl
@[simp] theorem State.modNode_wqs (s : State) (f : Node → Node) : (s.modNode f).wqs = s.wqs := rfl
@[simp] theorem State.modNode_cqs (s : State) (f : Node → Node) : (s.modNode f).cqs = s.cqs := rfl
@[simp] theorem State.modNode_fab (s : State) (f : Node → Node) : (s.modNode f).fab = s.fab := rfl
@[simp] theorem State.modNode_lds (s : State) (f : Node → Node) : (s.modNode f).lds = s.lds := rfl
@[simp] theorem State.modNode_ev (s : State) (f : Node → Node) : (s.modNode f).ev = s.ev := rfl
@[simp] theorem State.modNode_mgmt (s : State) (f : Node → Node) : (s.modNode f).mgmt = s.mgmt := rfl
@[simp] theorem State.modNode_trust (s : State) (f : Node → Node) : (s.modNode f).trust = s.trust := rfl
@[simp] theorem State.modNode_flt (s : State) (f : Node → Node) : (s.modNode f).flt = s.flt := rfl
@[simp] theorem State.modNode_gov (s : State) (f : Node → Node) : (s.modNode f).gov = s.gov := rfl

/-! ### setCause writes node -/

@[simp] theorem State.setCause_pending (s : State) (i : Nat) (b : Bool) : (s.setCause i b).pending = s.pending := rfl
@[simp] theorem State.setCause_free (s : State) (i : Nat) (b : Bool) : (s.setCause i b).free = s.free := rfl
@[simp] theorem State.setCause_out (s : State) (i : Nat) (b : Bool) : (s.setCause i b).out = s.out := rfl
@[simp] theorem State.setCause_variant (s : State) (i : Nat) (b : Bool) : (s.setCause i b).variant = s.variant := rfl
@[simp] theorem State.setCause_clk (s : State) (i : Nat) (b : Bool) : (s.setCause i b).clk = s.clk := rfl
@[simp] theorem State.setCause_objs (s : State) (i : Nat) (b : Bool) : (s.setCause i b).objs = s.objs := rfl
@[simp] theorem State.setCause_octs (s : State) (i : Nat) (b : Bool) : (s.setCause i b).octs = s.octs := rfl
@[simp] theorem State.setCause_tenants (s : State) (i : Nat) (b : Bool) : (s.setCause i b).tenants = s.tenants := rfl
@[simp] theorem State.setCause_comps (s : State) (i : Nat) (b : Bool) : (s.setCause i b).comps = s.comps := rfl
@[simp] theorem State.setCause_reclaims (s : State) (i : Nat) (b : Bool) : (s.setCause i b).reclaims = s.reclaims := rfl
@[simp] theorem State.setCause_geoms (s : State) (i : Nat) (b : Bool) : (s.setCause i b).geoms = s.geoms := rfl
@[simp] theorem State.setCause_seqs (s : State) (i : Nat) (b : Bool) : (s.setCause i b).seqs = s.seqs := rfl
@[simp] theorem State.setCause_mem (s : State) (i : Nat) (b : Bool) : (s.setCause i b).mem = s.mem := rfl
@[simp] theorem State.setCause_ps (s : State) (i : Nat) (b : Bool) : (s.setCause i b).ps = s.ps := rfl
@[simp] theorem State.setCause_merges (s : State) (i : Nat) (b : Bool) : (s.setCause i b).merges = s.merges := rfl
@[simp] theorem State.setCause_gens (s : State) (i : Nat) (b : Bool) : (s.setCause i b).gens = s.gens := rfl
@[simp] theorem State.setCause_reqs (s : State) (i : Nat) (b : Bool) : (s.setCause i b).reqs = s.reqs := rfl
@[simp] theorem State.setCause_nextReq (s : State) (i : Nat) (b : Bool) : (s.setCause i b).nextReq = s.nextReq := rfl
@[simp] theorem State.setCause_eng (s : State) (i : Nat) (b : Bool) : (s.setCause i b).eng = s.eng := rfl
@[simp] theorem State.setCause_wqs (s : State) (i : Nat) (b : Bool) : (s.setCause i b).wqs = s.wqs := rfl
@[simp] theorem State.setCause_cqs (s : State) (i : Nat) (b : Bool) : (s.setCause i b).cqs = s.cqs := rfl
@[simp] theorem State.setCause_fab (s : State) (i : Nat) (b : Bool) : (s.setCause i b).fab = s.fab := rfl
@[simp] theorem State.setCause_lds (s : State) (i : Nat) (b : Bool) : (s.setCause i b).lds = s.lds := rfl
@[simp] theorem State.setCause_ev (s : State) (i : Nat) (b : Bool) : (s.setCause i b).ev = s.ev := rfl
@[simp] theorem State.setCause_mgmt (s : State) (i : Nat) (b : Bool) : (s.setCause i b).mgmt = s.mgmt := rfl
@[simp] theorem State.setCause_trust (s : State) (i : Nat) (b : Bool) : (s.setCause i b).trust = s.trust := rfl
@[simp] theorem State.setCause_flt (s : State) (i : Nat) (b : Bool) : (s.setCause i b).flt = s.flt := rfl
@[simp] theorem State.setCause_gov (s : State) (i : Nat) (b : Bool) : (s.setCause i b).gov = s.gov := rfl

/-! ### setPin writes node -/

@[simp] theorem State.setPin_pending (s : State) (i : Nat) (b : Bool) : (s.setPin i b).pending = s.pending := rfl
@[simp] theorem State.setPin_free (s : State) (i : Nat) (b : Bool) : (s.setPin i b).free = s.free := rfl
@[simp] theorem State.setPin_out (s : State) (i : Nat) (b : Bool) : (s.setPin i b).out = s.out := rfl
@[simp] theorem State.setPin_variant (s : State) (i : Nat) (b : Bool) : (s.setPin i b).variant = s.variant := rfl
@[simp] theorem State.setPin_clk (s : State) (i : Nat) (b : Bool) : (s.setPin i b).clk = s.clk := rfl
@[simp] theorem State.setPin_objs (s : State) (i : Nat) (b : Bool) : (s.setPin i b).objs = s.objs := rfl
@[simp] theorem State.setPin_octs (s : State) (i : Nat) (b : Bool) : (s.setPin i b).octs = s.octs := rfl
@[simp] theorem State.setPin_tenants (s : State) (i : Nat) (b : Bool) : (s.setPin i b).tenants = s.tenants := rfl
@[simp] theorem State.setPin_comps (s : State) (i : Nat) (b : Bool) : (s.setPin i b).comps = s.comps := rfl
@[simp] theorem State.setPin_reclaims (s : State) (i : Nat) (b : Bool) : (s.setPin i b).reclaims = s.reclaims := rfl
@[simp] theorem State.setPin_geoms (s : State) (i : Nat) (b : Bool) : (s.setPin i b).geoms = s.geoms := rfl
@[simp] theorem State.setPin_seqs (s : State) (i : Nat) (b : Bool) : (s.setPin i b).seqs = s.seqs := rfl
@[simp] theorem State.setPin_mem (s : State) (i : Nat) (b : Bool) : (s.setPin i b).mem = s.mem := rfl
@[simp] theorem State.setPin_ps (s : State) (i : Nat) (b : Bool) : (s.setPin i b).ps = s.ps := rfl
@[simp] theorem State.setPin_merges (s : State) (i : Nat) (b : Bool) : (s.setPin i b).merges = s.merges := rfl
@[simp] theorem State.setPin_gens (s : State) (i : Nat) (b : Bool) : (s.setPin i b).gens = s.gens := rfl
@[simp] theorem State.setPin_reqs (s : State) (i : Nat) (b : Bool) : (s.setPin i b).reqs = s.reqs := rfl
@[simp] theorem State.setPin_nextReq (s : State) (i : Nat) (b : Bool) : (s.setPin i b).nextReq = s.nextReq := rfl
@[simp] theorem State.setPin_eng (s : State) (i : Nat) (b : Bool) : (s.setPin i b).eng = s.eng := rfl
@[simp] theorem State.setPin_wqs (s : State) (i : Nat) (b : Bool) : (s.setPin i b).wqs = s.wqs := rfl
@[simp] theorem State.setPin_cqs (s : State) (i : Nat) (b : Bool) : (s.setPin i b).cqs = s.cqs := rfl
@[simp] theorem State.setPin_fab (s : State) (i : Nat) (b : Bool) : (s.setPin i b).fab = s.fab := rfl
@[simp] theorem State.setPin_lds (s : State) (i : Nat) (b : Bool) : (s.setPin i b).lds = s.lds := rfl
@[simp] theorem State.setPin_ev (s : State) (i : Nat) (b : Bool) : (s.setPin i b).ev = s.ev := rfl
@[simp] theorem State.setPin_mgmt (s : State) (i : Nat) (b : Bool) : (s.setPin i b).mgmt = s.mgmt := rfl
@[simp] theorem State.setPin_trust (s : State) (i : Nat) (b : Bool) : (s.setPin i b).trust = s.trust := rfl
@[simp] theorem State.setPin_flt (s : State) (i : Nat) (b : Bool) : (s.setPin i b).flt = s.flt := rfl
@[simp] theorem State.setPin_gov (s : State) (i : Nat) (b : Bool) : (s.setPin i b).gov = s.gov := rfl

/-! ### setTarget writes ev -/

@[simp] theorem State.setTarget_pending (s : State) (x : Target) : (s.setTarget x).pending = s.pending := rfl
@[simp] theorem State.setTarget_free (s : State) (x : Target) : (s.setTarget x).free = s.free := rfl
@[simp] theorem State.setTarget_out (s : State) (x : Target) : (s.setTarget x).out = s.out := rfl
@[simp] theorem State.setTarget_variant (s : State) (x : Target) : (s.setTarget x).variant = s.variant := rfl
@[simp] theorem State.setTarget_clk (s : State) (x : Target) : (s.setTarget x).clk = s.clk := rfl
@[simp] theorem State.setTarget_node (s : State) (x : Target) : (s.setTarget x).node = s.node := rfl
@[simp] theorem State.setTarget_objs (s : State) (x : Target) : (s.setTarget x).objs = s.objs := rfl
@[simp] theorem State.setTarget_octs (s : State) (x : Target) : (s.setTarget x).octs = s.octs := rfl
@[simp] theorem State.setTarget_tenants (s : State) (x : Target) : (s.setTarget x).tenants = s.tenants := rfl
@[simp] theorem State.setTarget_comps (s : State) (x : Target) : (s.setTarget x).comps = s.comps := rfl
@[simp] theorem State.setTarget_reclaims (s : State) (x : Target) : (s.setTarget x).reclaims = s.reclaims := rfl
@[simp] theorem State.setTarget_geoms (s : State) (x : Target) : (s.setTarget x).geoms = s.geoms := rfl
@[simp] theorem State.setTarget_seqs (s : State) (x : Target) : (s.setTarget x).seqs = s.seqs := rfl
@[simp] theorem State.setTarget_mem (s : State) (x : Target) : (s.setTarget x).mem = s.mem := rfl
@[simp] theorem State.setTarget_ps (s : State) (x : Target) : (s.setTarget x).ps = s.ps := rfl
@[simp] theorem State.setTarget_merges (s : State) (x : Target) : (s.setTarget x).merges = s.merges := rfl
@[simp] theorem State.setTarget_gens (s : State) (x : Target) : (s.setTarget x).gens = s.gens := rfl
@[simp] theorem State.setTarget_reqs (s : State) (x : Target) : (s.setTarget x).reqs = s.reqs := rfl
@[simp] theorem State.setTarget_nextReq (s : State) (x : Target) : (s.setTarget x).nextReq = s.nextReq := rfl
@[simp] theorem State.setTarget_eng (s : State) (x : Target) : (s.setTarget x).eng = s.eng := rfl
@[simp] theorem State.setTarget_wqs (s : State) (x : Target) : (s.setTarget x).wqs = s.wqs := rfl
@[simp] theorem State.setTarget_cqs (s : State) (x : Target) : (s.setTarget x).cqs = s.cqs := rfl
@[simp] theorem State.setTarget_fab (s : State) (x : Target) : (s.setTarget x).fab = s.fab := rfl
@[simp] theorem State.setTarget_lds (s : State) (x : Target) : (s.setTarget x).lds = s.lds := rfl
@[simp] theorem State.setTarget_mgmt (s : State) (x : Target) : (s.setTarget x).mgmt = s.mgmt := rfl
@[simp] theorem State.setTarget_trust (s : State) (x : Target) : (s.setTarget x).trust = s.trust := rfl
@[simp] theorem State.setTarget_flt (s : State) (x : Target) : (s.setTarget x).flt = s.flt := rfl
@[simp] theorem State.setTarget_gov (s : State) (x : Target) : (s.setTarget x).gov = s.gov := rfl

/-! ### modMgmt writes mgmt -/

@[simp] theorem State.modMgmt_pending (s : State) (f : Mgmt → Mgmt) : (s.modMgmt f).pending = s.pending := rfl
@[simp] theorem State.modMgmt_free (s : State) (f : Mgmt → Mgmt) : (s.modMgmt f).free = s.free := rfl
@[simp] theorem State.modMgmt_out (s : State) (f : Mgmt → Mgmt) : (s.modMgmt f).out = s.out := rfl
@[simp] theorem State.modMgmt_variant (s : State) (f : Mgmt → Mgmt) : (s.modMgmt f).variant = s.variant := rfl
@[simp] theorem State.modMgmt_clk (s : State) (f : Mgmt → Mgmt) : (s.modMgmt f).clk = s.clk := rfl
@[simp] theorem State.modMgmt_node (s : State) (f : Mgmt → Mgmt) : (s.modMgmt f).node = s.node := rfl
@[simp] theorem State.modMgmt_objs (s : State) (f : Mgmt → Mgmt) : (s.modMgmt f).objs = s.objs := rfl
@[simp] theorem State.modMgmt_octs (s : State) (f : Mgmt → Mgmt) : (s.modMgmt f).octs = s.octs := rfl
@[simp] theorem State.modMgmt_tenants (s : State) (f : Mgmt → Mgmt) : (s.modMgmt f).tenants = s.tenants := rfl
@[simp] theorem State.modMgmt_comps (s : State) (f : Mgmt → Mgmt) : (s.modMgmt f).comps = s.comps := rfl
@[simp] theorem State.modMgmt_reclaims (s : State) (f : Mgmt → Mgmt) : (s.modMgmt f).reclaims = s.reclaims := rfl
@[simp] theorem State.modMgmt_geoms (s : State) (f : Mgmt → Mgmt) : (s.modMgmt f).geoms = s.geoms := rfl
@[simp] theorem State.modMgmt_seqs (s : State) (f : Mgmt → Mgmt) : (s.modMgmt f).seqs = s.seqs := rfl
@[simp] theorem State.modMgmt_mem (s : State) (f : Mgmt → Mgmt) : (s.modMgmt f).mem = s.mem := rfl
@[simp] theorem State.modMgmt_ps (s : State) (f : Mgmt → Mgmt) : (s.modMgmt f).ps = s.ps := rfl
@[simp] theorem State.modMgmt_merges (s : State) (f : Mgmt → Mgmt) : (s.modMgmt f).merges = s.merges := rfl
@[simp] theorem State.modMgmt_gens (s : State) (f : Mgmt → Mgmt) : (s.modMgmt f).gens = s.gens := rfl
@[simp] theorem State.modMgmt_reqs (s : State) (f : Mgmt → Mgmt) : (s.modMgmt f).reqs = s.reqs := rfl
@[simp] theorem State.modMgmt_nextReq (s : State) (f : Mgmt → Mgmt) : (s.modMgmt f).nextReq = s.nextReq := rfl
@[simp] theorem State.modMgmt_eng (s : State) (f : Mgmt → Mgmt) : (s.modMgmt f).eng = s.eng := rfl
@[simp] theorem State.modMgmt_wqs (s : State) (f : Mgmt → Mgmt) : (s.modMgmt f).wqs = s.wqs := rfl
@[simp] theorem State.modMgmt_cqs (s : State) (f : Mgmt → Mgmt) : (s.modMgmt f).cqs = s.cqs := rfl
@[simp] theorem State.modMgmt_fab (s : State) (f : Mgmt → Mgmt) : (s.modMgmt f).fab = s.fab := rfl
@[simp] theorem State.modMgmt_lds (s : State) (f : Mgmt → Mgmt) : (s.modMgmt f).lds = s.lds := rfl
@[simp] theorem State.modMgmt_ev (s : State) (f : Mgmt → Mgmt) : (s.modMgmt f).ev = s.ev := rfl
@[simp] theorem State.modMgmt_trust (s : State) (f : Mgmt → Mgmt) : (s.modMgmt f).trust = s.trust := rfl
@[simp] theorem State.modMgmt_flt (s : State) (f : Mgmt → Mgmt) : (s.modMgmt f).flt = s.flt := rfl
@[simp] theorem State.modMgmt_gov (s : State) (f : Mgmt → Mgmt) : (s.modMgmt f).gov = s.gov := rfl

/-! ### setNb writes eng -/

@[simp] theorem State.setNb_pending (s : State) (u : NbUnit) : (s.setNb u).pending = s.pending := rfl
@[simp] theorem State.setNb_free (s : State) (u : NbUnit) : (s.setNb u).free = s.free := rfl
@[simp] theorem State.setNb_out (s : State) (u : NbUnit) : (s.setNb u).out = s.out := rfl
@[simp] theorem State.setNb_variant (s : State) (u : NbUnit) : (s.setNb u).variant = s.variant := rfl
@[simp] theorem State.setNb_clk (s : State) (u : NbUnit) : (s.setNb u).clk = s.clk := rfl
@[simp] theorem State.setNb_node (s : State) (u : NbUnit) : (s.setNb u).node = s.node := rfl
@[simp] theorem State.setNb_objs (s : State) (u : NbUnit) : (s.setNb u).objs = s.objs := rfl
@[simp] theorem State.setNb_octs (s : State) (u : NbUnit) : (s.setNb u).octs = s.octs := rfl
@[simp] theorem State.setNb_tenants (s : State) (u : NbUnit) : (s.setNb u).tenants = s.tenants := rfl
@[simp] theorem State.setNb_comps (s : State) (u : NbUnit) : (s.setNb u).comps = s.comps := rfl
@[simp] theorem State.setNb_reclaims (s : State) (u : NbUnit) : (s.setNb u).reclaims = s.reclaims := rfl
@[simp] theorem State.setNb_geoms (s : State) (u : NbUnit) : (s.setNb u).geoms = s.geoms := rfl
@[simp] theorem State.setNb_seqs (s : State) (u : NbUnit) : (s.setNb u).seqs = s.seqs := rfl
@[simp] theorem State.setNb_mem (s : State) (u : NbUnit) : (s.setNb u).mem = s.mem := rfl
@[simp] theorem State.setNb_ps (s : State) (u : NbUnit) : (s.setNb u).ps = s.ps := rfl
@[simp] theorem State.setNb_merges (s : State) (u : NbUnit) : (s.setNb u).merges = s.merges := rfl
@[simp] theorem State.setNb_gens (s : State) (u : NbUnit) : (s.setNb u).gens = s.gens := rfl
@[simp] theorem State.setNb_reqs (s : State) (u : NbUnit) : (s.setNb u).reqs = s.reqs := rfl
@[simp] theorem State.setNb_nextReq (s : State) (u : NbUnit) : (s.setNb u).nextReq = s.nextReq := rfl
@[simp] theorem State.setNb_wqs (s : State) (u : NbUnit) : (s.setNb u).wqs = s.wqs := rfl
@[simp] theorem State.setNb_cqs (s : State) (u : NbUnit) : (s.setNb u).cqs = s.cqs := rfl
@[simp] theorem State.setNb_fab (s : State) (u : NbUnit) : (s.setNb u).fab = s.fab := rfl
@[simp] theorem State.setNb_lds (s : State) (u : NbUnit) : (s.setNb u).lds = s.lds := rfl
@[simp] theorem State.setNb_ev (s : State) (u : NbUnit) : (s.setNb u).ev = s.ev := rfl
@[simp] theorem State.setNb_mgmt (s : State) (u : NbUnit) : (s.setNb u).mgmt = s.mgmt := rfl
@[simp] theorem State.setNb_trust (s : State) (u : NbUnit) : (s.setNb u).trust = s.trust := rfl
@[simp] theorem State.setNb_flt (s : State) (u : NbUnit) : (s.setNb u).flt = s.flt := rfl
@[simp] theorem State.setNb_gov (s : State) (u : NbUnit) : (s.setNb u).gov = s.gov := rfl

/-! ### setCore writes eng -/

@[simp] theorem State.setCore_pending (s : State) (x : CoreSt) : (s.setCore x).pending = s.pending := rfl
@[simp] theorem State.setCore_free (s : State) (x : CoreSt) : (s.setCore x).free = s.free := rfl
@[simp] theorem State.setCore_out (s : State) (x : CoreSt) : (s.setCore x).out = s.out := rfl
@[simp] theorem State.setCore_variant (s : State) (x : CoreSt) : (s.setCore x).variant = s.variant := rfl
@[simp] theorem State.setCore_clk (s : State) (x : CoreSt) : (s.setCore x).clk = s.clk := rfl
@[simp] theorem State.setCore_node (s : State) (x : CoreSt) : (s.setCore x).node = s.node := rfl
@[simp] theorem State.setCore_objs (s : State) (x : CoreSt) : (s.setCore x).objs = s.objs := rfl
@[simp] theorem State.setCore_octs (s : State) (x : CoreSt) : (s.setCore x).octs = s.octs := rfl
@[simp] theorem State.setCore_tenants (s : State) (x : CoreSt) : (s.setCore x).tenants = s.tenants := rfl
@[simp] theorem State.setCore_comps (s : State) (x : CoreSt) : (s.setCore x).comps = s.comps := rfl
@[simp] theorem State.setCore_reclaims (s : State) (x : CoreSt) : (s.setCore x).reclaims = s.reclaims := rfl
@[simp] theorem State.setCore_geoms (s : State) (x : CoreSt) : (s.setCore x).geoms = s.geoms := rfl
@[simp] theorem State.setCore_seqs (s : State) (x : CoreSt) : (s.setCore x).seqs = s.seqs := rfl
@[simp] theorem State.setCore_mem (s : State) (x : CoreSt) : (s.setCore x).mem = s.mem := rfl
@[simp] theorem State.setCore_ps (s : State) (x : CoreSt) : (s.setCore x).ps = s.ps := rfl
@[simp] theorem State.setCore_merges (s : State) (x : CoreSt) : (s.setCore x).merges = s.merges := rfl
@[simp] theorem State.setCore_gens (s : State) (x : CoreSt) : (s.setCore x).gens = s.gens := rfl
@[simp] theorem State.setCore_reqs (s : State) (x : CoreSt) : (s.setCore x).reqs = s.reqs := rfl
@[simp] theorem State.setCore_nextReq (s : State) (x : CoreSt) : (s.setCore x).nextReq = s.nextReq := rfl
@[simp] theorem State.setCore_wqs (s : State) (x : CoreSt) : (s.setCore x).wqs = s.wqs := rfl
@[simp] theorem State.setCore_cqs (s : State) (x : CoreSt) : (s.setCore x).cqs = s.cqs := rfl
@[simp] theorem State.setCore_fab (s : State) (x : CoreSt) : (s.setCore x).fab = s.fab := rfl
@[simp] theorem State.setCore_lds (s : State) (x : CoreSt) : (s.setCore x).lds = s.lds := rfl
@[simp] theorem State.setCore_ev (s : State) (x : CoreSt) : (s.setCore x).ev = s.ev := rfl
@[simp] theorem State.setCore_mgmt (s : State) (x : CoreSt) : (s.setCore x).mgmt = s.mgmt := rfl
@[simp] theorem State.setCore_trust (s : State) (x : CoreSt) : (s.setCore x).trust = s.trust := rfl
@[simp] theorem State.setCore_flt (s : State) (x : CoreSt) : (s.setCore x).flt = s.flt := rfl
@[simp] theorem State.setCore_gov (s : State) (x : CoreSt) : (s.setCore x).gov = s.gov := rfl

/-! ### setScalar writes objs -/

@[simp] theorem State.setScalar_pending (s : State) (i j v : Nat) : (s.setScalar i j v).pending = s.pending := rfl
@[simp] theorem State.setScalar_free (s : State) (i j v : Nat) : (s.setScalar i j v).free = s.free := rfl
@[simp] theorem State.setScalar_out (s : State) (i j v : Nat) : (s.setScalar i j v).out = s.out := rfl
@[simp] theorem State.setScalar_variant (s : State) (i j v : Nat) : (s.setScalar i j v).variant = s.variant := rfl
@[simp] theorem State.setScalar_clk (s : State) (i j v : Nat) : (s.setScalar i j v).clk = s.clk := rfl
@[simp] theorem State.setScalar_node (s : State) (i j v : Nat) : (s.setScalar i j v).node = s.node := rfl
@[simp] theorem State.setScalar_octs (s : State) (i j v : Nat) : (s.setScalar i j v).octs = s.octs := rfl
@[simp] theorem State.setScalar_tenants (s : State) (i j v : Nat) : (s.setScalar i j v).tenants = s.tenants := rfl
@[simp] theorem State.setScalar_comps (s : State) (i j v : Nat) : (s.setScalar i j v).comps = s.comps := rfl
@[simp] theorem State.setScalar_reclaims (s : State) (i j v : Nat) : (s.setScalar i j v).reclaims = s.reclaims := rfl
@[simp] theorem State.setScalar_geoms (s : State) (i j v : Nat) : (s.setScalar i j v).geoms = s.geoms := rfl
@[simp] theorem State.setScalar_seqs (s : State) (i j v : Nat) : (s.setScalar i j v).seqs = s.seqs := rfl
@[simp] theorem State.setScalar_mem (s : State) (i j v : Nat) : (s.setScalar i j v).mem = s.mem := rfl
@[simp] theorem State.setScalar_ps (s : State) (i j v : Nat) : (s.setScalar i j v).ps = s.ps := rfl
@[simp] theorem State.setScalar_merges (s : State) (i j v : Nat) : (s.setScalar i j v).merges = s.merges := rfl
@[simp] theorem State.setScalar_gens (s : State) (i j v : Nat) : (s.setScalar i j v).gens = s.gens := rfl
@[simp] theorem State.setScalar_reqs (s : State) (i j v : Nat) : (s.setScalar i j v).reqs = s.reqs := rfl
@[simp] theorem State.setScalar_nextReq (s : State) (i j v : Nat) : (s.setScalar i j v).nextReq = s.nextReq := rfl
@[simp] theorem State.setScalar_eng (s : State) (i j v : Nat) : (s.setScalar i j v).eng = s.eng := rfl
@[simp] theorem State.setScalar_wqs (s : State) (i j v : Nat) : (s.setScalar i j v).wqs = s.wqs := rfl
@[simp] theorem State.setScalar_cqs (s : State) (i j v : Nat) : (s.setScalar i j v).cqs = s.cqs := rfl
@[simp] theorem State.setScalar_fab (s : State) (i j v : Nat) : (s.setScalar i j v).fab = s.fab := rfl
@[simp] theorem State.setScalar_lds (s : State) (i j v : Nat) : (s.setScalar i j v).lds = s.lds := rfl
@[simp] theorem State.setScalar_ev (s : State) (i j v : Nat) : (s.setScalar i j v).ev = s.ev := rfl
@[simp] theorem State.setScalar_mgmt (s : State) (i j v : Nat) : (s.setScalar i j v).mgmt = s.mgmt := rfl
@[simp] theorem State.setScalar_trust (s : State) (i j v : Nat) : (s.setScalar i j v).trust = s.trust := rfl
@[simp] theorem State.setScalar_flt (s : State) (i j v : Nat) : (s.setScalar i j v).flt = s.flt := rfl
@[simp] theorem State.setScalar_gov (s : State) (i j v : Nat) : (s.setScalar i j v).gov = s.gov := rfl

/-! ### setOct writes octs -/

@[simp] theorem State.setOct_pending (s : State) (i j k : Nat) (b : Byte) : (s.setOct i j k b).pending = s.pending := rfl
@[simp] theorem State.setOct_free (s : State) (i j k : Nat) (b : Byte) : (s.setOct i j k b).free = s.free := rfl
@[simp] theorem State.setOct_out (s : State) (i j k : Nat) (b : Byte) : (s.setOct i j k b).out = s.out := rfl
@[simp] theorem State.setOct_variant (s : State) (i j k : Nat) (b : Byte) : (s.setOct i j k b).variant = s.variant := rfl
@[simp] theorem State.setOct_clk (s : State) (i j k : Nat) (b : Byte) : (s.setOct i j k b).clk = s.clk := rfl
@[simp] theorem State.setOct_node (s : State) (i j k : Nat) (b : Byte) : (s.setOct i j k b).node = s.node := rfl
@[simp] theorem State.setOct_objs (s : State) (i j k : Nat) (b : Byte) : (s.setOct i j k b).objs = s.objs := rfl
@[simp] theorem State.setOct_tenants (s : State) (i j k : Nat) (b : Byte) : (s.setOct i j k b).tenants = s.tenants := rfl
@[simp] theorem State.setOct_comps (s : State) (i j k : Nat) (b : Byte) : (s.setOct i j k b).comps = s.comps := rfl
@[simp] theorem State.setOct_reclaims (s : State) (i j k : Nat) (b : Byte) : (s.setOct i j k b).reclaims = s.reclaims := rfl
@[simp] theorem State.setOct_geoms (s : State) (i j k : Nat) (b : Byte) : (s.setOct i j k b).geoms = s.geoms := rfl
@[simp] theorem State.setOct_seqs (s : State) (i j k : Nat) (b : Byte) : (s.setOct i j k b).seqs = s.seqs := rfl
@[simp] theorem State.setOct_mem (s : State) (i j k : Nat) (b : Byte) : (s.setOct i j k b).mem = s.mem := rfl
@[simp] theorem State.setOct_ps (s : State) (i j k : Nat) (b : Byte) : (s.setOct i j k b).ps = s.ps := rfl
@[simp] theorem State.setOct_merges (s : State) (i j k : Nat) (b : Byte) : (s.setOct i j k b).merges = s.merges := rfl
@[simp] theorem State.setOct_gens (s : State) (i j k : Nat) (b : Byte) : (s.setOct i j k b).gens = s.gens := rfl
@[simp] theorem State.setOct_reqs (s : State) (i j k : Nat) (b : Byte) : (s.setOct i j k b).reqs = s.reqs := rfl
@[simp] theorem State.setOct_nextReq (s : State) (i j k : Nat) (b : Byte) : (s.setOct i j k b).nextReq = s.nextReq := rfl
@[simp] theorem State.setOct_eng (s : State) (i j k : Nat) (b : Byte) : (s.setOct i j k b).eng = s.eng := rfl
@[simp] theorem State.setOct_wqs (s : State) (i j k : Nat) (b : Byte) : (s.setOct i j k b).wqs = s.wqs := rfl
@[simp] theorem State.setOct_cqs (s : State) (i j k : Nat) (b : Byte) : (s.setOct i j k b).cqs = s.cqs := rfl
@[simp] theorem State.setOct_fab (s : State) (i j k : Nat) (b : Byte) : (s.setOct i j k b).fab = s.fab := rfl
@[simp] theorem State.setOct_lds (s : State) (i j k : Nat) (b : Byte) : (s.setOct i j k b).lds = s.lds := rfl
@[simp] theorem State.setOct_ev (s : State) (i j k : Nat) (b : Byte) : (s.setOct i j k b).ev = s.ev := rfl
@[simp] theorem State.setOct_mgmt (s : State) (i j k : Nat) (b : Byte) : (s.setOct i j k b).mgmt = s.mgmt := rfl
@[simp] theorem State.setOct_trust (s : State) (i j k : Nat) (b : Byte) : (s.setOct i j k b).trust = s.trust := rfl
@[simp] theorem State.setOct_flt (s : State) (i j k : Nat) (b : Byte) : (s.setOct i j k b).flt = s.flt := rfl
@[simp] theorem State.setOct_gov (s : State) (i j k : Nat) (b : Byte) : (s.setOct i j k b).gov = s.gov := rfl

/-! ### emit writes out -/

@[simp] theorem State.emit_pending (s : State) (o : Out) : (s.emit o).pending = s.pending := rfl
@[simp] theorem State.emit_free (s : State) (o : Out) : (s.emit o).free = s.free := rfl
@[simp] theorem State.emit_variant (s : State) (o : Out) : (s.emit o).variant = s.variant := rfl
@[simp] theorem State.emit_clk (s : State) (o : Out) : (s.emit o).clk = s.clk := rfl
@[simp] theorem State.emit_node (s : State) (o : Out) : (s.emit o).node = s.node := rfl
@[simp] theorem State.emit_objs (s : State) (o : Out) : (s.emit o).objs = s.objs := rfl
@[simp] theorem State.emit_octs (s : State) (o : Out) : (s.emit o).octs = s.octs := rfl
@[simp] theorem State.emit_tenants (s : State) (o : Out) : (s.emit o).tenants = s.tenants := rfl
@[simp] theorem State.emit_comps (s : State) (o : Out) : (s.emit o).comps = s.comps := rfl
@[simp] theorem State.emit_reclaims (s : State) (o : Out) : (s.emit o).reclaims = s.reclaims := rfl
@[simp] theorem State.emit_geoms (s : State) (o : Out) : (s.emit o).geoms = s.geoms := rfl
@[simp] theorem State.emit_seqs (s : State) (o : Out) : (s.emit o).seqs = s.seqs := rfl
@[simp] theorem State.emit_mem (s : State) (o : Out) : (s.emit o).mem = s.mem := rfl
@[simp] theorem State.emit_ps (s : State) (o : Out) : (s.emit o).ps = s.ps := rfl
@[simp] theorem State.emit_merges (s : State) (o : Out) : (s.emit o).merges = s.merges := rfl
@[simp] theorem State.emit_gens (s : State) (o : Out) : (s.emit o).gens = s.gens := rfl
@[simp] theorem State.emit_reqs (s : State) (o : Out) : (s.emit o).reqs = s.reqs := rfl
@[simp] theorem State.emit_nextReq (s : State) (o : Out) : (s.emit o).nextReq = s.nextReq := rfl
@[simp] theorem State.emit_eng (s : State) (o : Out) : (s.emit o).eng = s.eng := rfl
@[simp] theorem State.emit_wqs (s : State) (o : Out) : (s.emit o).wqs = s.wqs := rfl
@[simp] theorem State.emit_cqs (s : State) (o : Out) : (s.emit o).cqs = s.cqs := rfl
@[simp] theorem State.emit_fab (s : State) (o : Out) : (s.emit o).fab = s.fab := rfl
@[simp] theorem State.emit_lds (s : State) (o : Out) : (s.emit o).lds = s.lds := rfl
@[simp] theorem State.emit_ev (s : State) (o : Out) : (s.emit o).ev = s.ev := rfl
@[simp] theorem State.emit_mgmt (s : State) (o : Out) : (s.emit o).mgmt = s.mgmt := rfl
@[simp] theorem State.emit_trust (s : State) (o : Out) : (s.emit o).trust = s.trust := rfl
@[simp] theorem State.emit_flt (s : State) (o : Out) : (s.emit o).flt = s.flt := rfl
@[simp] theorem State.emit_gov (s : State) (o : Out) : (s.emit o).gov = s.gov := rfl

/-! ### count writes objs -/

@[simp] theorem State.count_pending (s : State) (i j n : Nat) : (s.count i j n).pending = s.pending := rfl
@[simp] theorem State.count_free (s : State) (i j n : Nat) : (s.count i j n).free = s.free := rfl
@[simp] theorem State.count_out (s : State) (i j n : Nat) : (s.count i j n).out = s.out := rfl
@[simp] theorem State.count_variant (s : State) (i j n : Nat) : (s.count i j n).variant = s.variant := rfl
@[simp] theorem State.count_clk (s : State) (i j n : Nat) : (s.count i j n).clk = s.clk := rfl
@[simp] theorem State.count_node (s : State) (i j n : Nat) : (s.count i j n).node = s.node := rfl
@[simp] theorem State.count_octs (s : State) (i j n : Nat) : (s.count i j n).octs = s.octs := rfl
@[simp] theorem State.count_tenants (s : State) (i j n : Nat) : (s.count i j n).tenants = s.tenants := rfl
@[simp] theorem State.count_comps (s : State) (i j n : Nat) : (s.count i j n).comps = s.comps := rfl
@[simp] theorem State.count_reclaims (s : State) (i j n : Nat) : (s.count i j n).reclaims = s.reclaims := rfl
@[simp] theorem State.count_geoms (s : State) (i j n : Nat) : (s.count i j n).geoms = s.geoms := rfl
@[simp] theorem State.count_seqs (s : State) (i j n : Nat) : (s.count i j n).seqs = s.seqs := rfl
@[simp] theorem State.count_mem (s : State) (i j n : Nat) : (s.count i j n).mem = s.mem := rfl
@[simp] theorem State.count_ps (s : State) (i j n : Nat) : (s.count i j n).ps = s.ps := rfl
@[simp] theorem State.count_merges (s : State) (i j n : Nat) : (s.count i j n).merges = s.merges := rfl
@[simp] theorem State.count_gens (s : State) (i j n : Nat) : (s.count i j n).gens = s.gens := rfl
@[simp] theorem State.count_reqs (s : State) (i j n : Nat) : (s.count i j n).reqs = s.reqs := rfl
@[simp] theorem State.count_nextReq (s : State) (i j n : Nat) : (s.count i j n).nextReq = s.nextReq := rfl
@[simp] theorem State.count_eng (s : State) (i j n : Nat) : (s.count i j n).eng = s.eng := rfl
@[simp] theorem State.count_wqs (s : State) (i j n : Nat) : (s.count i j n).wqs = s.wqs := rfl
@[simp] theorem State.count_cqs (s : State) (i j n : Nat) : (s.count i j n).cqs = s.cqs := rfl
@[simp] theorem State.count_fab (s : State) (i j n : Nat) : (s.count i j n).fab = s.fab := rfl
@[simp] theorem State.count_lds (s : State) (i j n : Nat) : (s.count i j n).lds = s.lds := rfl
@[simp] theorem State.count_ev (s : State) (i j n : Nat) : (s.count i j n).ev = s.ev := rfl
@[simp] theorem State.count_mgmt (s : State) (i j n : Nat) : (s.count i j n).mgmt = s.mgmt := rfl
@[simp] theorem State.count_trust (s : State) (i j n : Nat) : (s.count i j n).trust = s.trust := rfl
@[simp] theorem State.count_flt (s : State) (i j n : Nat) : (s.count i j n).flt = s.flt := rfl
@[simp] theorem State.count_gov (s : State) (i j n : Nat) : (s.count i j n).gov = s.gov := rfl

end Sys2Proof.Machine
end

