-- ==== Sys2Proof/Laws/Requests.lean ====
section
/-! SUPPORT. Sys2Proof/Laws/Requests.lean: records kept in lists, and what the shared request operations do. -/

namespace Sys2Proof.Machine

open Sys2Proof

/-- An update that keeps the key finds the updated record. -/
theorem find_modWhere {α : Type} (p : α → Bool) (f : α → α) (hk : ∀ x, p x = true → p (f x) = true) (l : List α) :
    (modWhere p f l).find? p = (l.find? p).map f := by
  induction l with
  | nil => rfl
  | cons x l ih =>
    simp only [modWhere, List.map_cons, List.find?_cons] at ih ⊢
    cases h : p x
    · simpa [h] using ih
    · simp [hk x h]

/-- An update of other records does not change what is found. -/
theorem find_modWhere_other {α : Type} (p r : α → Bool) (f : α → α) (hk : ∀ x, p x = true → r x = false ∧ r (f x) = false) (l : List α) :
    (modWhere p f l).find? r = l.find? r := by
  induction l with
  | nil => rfl
  | cons x l ih =>
    simp only [modWhere, List.map_cons, List.find?_cons] at ih ⊢
    cases h : p x
    · simp [ih]
    · simp [hk x h, ih]

theorem find_dropWhere {α : Type} (p : α → Bool) (l : List α) : (dropWhere p l).find? p = none := by
  simp [dropWhere, List.find?_eq_none]

theorem find_dropWhere_other {α : Type} (p r : α → Bool) (hk : ∀ x, p x = true → r x = false) (l : List α) :
    (dropWhere p l).find? r = l.find? r := by
  induction l with
  | nil => rfl
  | cons x l ih =>
    simp only [dropWhere, List.filter_cons, List.find?_cons] at ih ⊢
    cases h : p x
    · simp only [Bool.not_false, if_true, List.find?_cons, ih]
    · simp [hk x h, ih]

theorem State.req_id {s : State} {r : Nat} {q : Req} (h : s.req r = some q) : q.id = r := by
  have := List.find?_some h; simpa using this

/-- The updated request is found under its number. -/
theorem State.req_modReq {s : State} {r : Nat} {q : Req} (h : s.req r = some q) (f : Req → Req) (hf : ∀ x, (f x).id = x.id) :
    (s.modReq r f).req r = some (f q) := by
  unfold State.req State.modReq
  rw [find_modWhere _ _ (by intro x hx; simpa [hf] using hx)]
  have h' : s.reqs.find? (·.id == r) = some q := h
  rw [h']; rfl

theorem State.ended_endReq {s : State} {r : Nat} {q : Req} (h : s.req r = some q) (st : Status) (n : Nat) :
    (s.endReq r st n).Ended r q st n := s.req_modReq h _ fun _ => rfl

theorem State.ended_okReq {s : State} {r : Nat} {q : Req} (h : s.req r = some q) (n : Nat) :
    (s.okReq q n).Ended r q .ok n := by
  unfold State.okReq; rw [State.req_id h]; exact s.ended_endReq h _ _

theorem State.waits_waitReq {s : State} {r : Nat} {q : Req} (h : s.req r = some q) (w : Wait) :
    (s.waitReq r w).Waits r q w := s.req_modReq h _ fun _ => rfl

/-- A request whose pieces the lower-tier controllers have served goes on. -/
theorem State.gated_open {s : State} {q : Req} (h : s.gateOpen q = true) (go : State → State) : s.gated q go = go s := by
  simp [State.gated, h]

/-- A row that may run runs its body. -/
theorem State.runReq_runs {s : State} {r op : Nat} {q : Req} (h : s.Runs r q op) (f : Req → State → State) :
    s.runReq r [op] f = f q s := by
  obtain ⟨h1, h2, h3, h4, h5, h6, h7, h8⟩ := h
  simp [State.runReq, h1, h2, h3, h4, h5, h6, h7, State.gated_open h8]

/-- A row that may not run changes nothing. -/
theorem State.runEdit_edits {s : State} {r op : Nat} {q : Req} (h : s.Edits r q op) (f : Req → State → State) :
    s.runEdit r op f = f q s := by
  rw [State.runEdit, State.runReq_runs h.1, if_neg (by simp [h.2])]

theorem State.runReq_absent {s : State} {r : Nat} (h : s.req r = none) (ops : List Nat) (f : Req → State → State) :
    s.runReq r ops f = s := by simp [State.runReq, h]

theorem State.onSeq_names {s : State} {q : Req} {x : Seq} (h : s.NamesSeq q x) (go : Seq → State) :
    s.onSeq q (opHandle q.entry) go = go x := by
  obtain ⟨h1, h2⟩ := h
  simp [State.onSeq, h1, h2]

@[simp] theorem firstFail_nil : firstFail [] = none := rfl

@[simp] theorem firstFail_cons_none (b : Bool) (st : Status) (l : List (Bool × Status)) :
    firstFail ((b, st) :: l) = none ↔ b = false ∧ firstFail l = none := by
  cases b <;> simp [firstFail]

theorem firstFail_append_none (l m : List (Bool × Status)) : firstFail (l ++ m) = none ↔ firstFail l = none ∧ firstFail m = none := by
  induction l with
  | nil => simp
  | cons x l ih => obtain ⟨b, st⟩ := x; simp [ih, and_assoc]

theorem State.checked_none {s : State} {r : Nat} {l : List (Bool × Status)} (h : firstFail l = none) (go : State → State) :
    s.checked r l go = go s := by simp [State.checked, h]

theorem State.checked_some {s : State} {r : Nat} {l : List (Bool × Status)} {st : Status} (h : firstFail l = some st) (go : State → State) :
    s.checked r l go = s.endReq r st := by simp [State.checked, h]

theorem State.turn_hasTurn {s : State} {q : Req} {h : Nat} (ht : s.HasTurn q h) (go : State → State) : s.turn q h go = go s := by
  unfold State.HasTurn at ht
  unfold State.turn
  cases ha : q.accepted
  · rw [ha, if_neg (by simp)] at ht
    simp [ht]
  · simp_all

theorem State.forkTurn_hasTurn {s : State} {q : Req} {h : Nat} (ht : s.HasForkTurn q h) (go : State → State) : s.forkTurn q h go = go s := by
  unfold State.HasForkTurn at ht
  unfold State.forkTurn
  cases ha : q.accepted <;> simp_all

/-- A request whose pages' walks do not fail goes on. -/
theorem State.withPages_none {s : State} {r : Req} {q : Seq} {ps : List (Nat × Nat)} (h : s.pagesFail q ps = none) (go : State → State) :
    s.withPages r q ps go = go s := by simp [State.withPages, h]

theorem State.withTables_ok {s : State} {r : Req} {a n : Nat} (h : s.tablesLost r.tenant a n = false) (go : State → State) :
    s.withTables r a n go = go s := by simp [State.withTables, h]

theorem State.seqAt_idx {s : State} {i : Nat} {x : Seq} (h : s.seqAt i = some x) : x.idx = i := by
  have := List.find?_some h; simpa using this

theorem State.seqAt_modSeq {s : State} {i : Nat} {x : Seq} (h : s.seqAt i = some x) (f : Seq → Seq) (hf : ∀ y, (f y).idx = y.idx) :
    (s.modSeq i f).seqAt i = some (f x) := by
  unfold State.seqAt State.modSeq
  rw [find_modWhere _ _ (by intro x hx; simpa [hf] using hx)]
  have h' : s.seqs.find? (·.idx == i) = some x := h
  rw [h']; rfl

theorem State.findSeq_at {s : State} {t h : Nat} {b : Bool} {x : Seq} (hf : s.findSeq t h b = some x) : s.seqAt x.idx = some x := by
  unfold State.findSeq at hf
  split at hf
  · cases hf
  · rename_i q hq
    split at hf
    · cases hf; rw [State.seqAt_idx hq]; exact hq
    · cases hf

end Sys2Proof.Machine
end

