-- ==== Sys2Proof/Laws/Manage.lean ====
section
/-! SUPPORT. Sys2Proof/Laws/Manage.lean: frames under a session, vendor and firmware mailbox rows, and what management work can change. -/

namespace Sys2Proof.Machine

open Sys2Proof

theorem vopArrive_session {s : State} {f : VopFrame} {x : Session} (h : s.InSession f x) :
    s.vopArrive f = answered s x f ((s.heardIn x f).vopDo x f) := by
  obtain ⟨h1, h2, h3, h4, h5, h6, h7, h8, h9, h10, h11, h12⟩ := h
  have e : s.vop f = s.vopSession x f := by
    unfold State.vop
    rw [h2, if_neg (by simp [h3]), if_neg (by simp [h4, h5]; omega), if_neg (by simp [h7]), if_neg h8, h9]
  have e2 : s.vopSession x f = (some (vopReply f (some x.key) ((s.heardIn x f).vopDo x f).st
        (((s.heardIn x f).vopDo x f).index.getD f.index) ((s.heardIn x f).vopDo x f).value ((s.heardIn x f).vopDo x f).last),
      (((s.heardIn x f).vopDo x f).state.modSession x.id fun y => { y with
            lastSeq := f.seq,
            reply := vopReply f (some x.key) ((s.heardIn x f).vopDo x f).st
              (((s.heardIn x f).vopDo x f).index.getD f.index) ((s.heardIn x f).vopDo x f).value
              ((s.heardIn x f).vopDo x f).last }).afterReply
          f ((s.heardIn x f).vopDo x f).st) := by
    unfold State.vopSession
    rw [if_neg (by simp [h2, h10]), if_neg (by simp [h11]), if_neg (by omega)]
    dsimp only
    rw [if_neg (by omega)]
  unfold State.vopArrive
  rw [if_neg (by simp [h1]), h2]; dsimp only
  rw [e, e2]

theorem vopRow_session {s : State} {f : VopFrame} {x : Session} {op : Nat} {p : Nat → Bool} (h : s.InSession f x) (ho : f.op = op)
    (hp : p f.index = true) : s.vopRow f op p = answered s x f ((s.heardIn x f).vopDo x f) := by
  unfold State.vopRow; rw [if_pos ⟨ho, hp⟩, vopArrive_session h]

theorem drawBytes_mgmt (n : Nat) (s : State) : (s.drawBytes n).2.mgmt = s.mgmt := by
  induction n generalizing s with
  | zero => rfl
  | succ n ih => unfold State.drawBytes; dsimp only; rw [ih]; rfl

theorem objAt_session {s : State} {x : Session} (i j : Nat) : objAt (s.heardIn x f).variant i j = objAt s.variant i j := rfl

/-- What the management layer's own work may change. -/
def mgmtOnly (s t : State) : Prop := t = { s with mgmt := t.mgmt, objs := t.objs, out := t.out }

theorem mgmtOnly_trans {a b c : State} (h : mgmtOnly a b) (k : mgmtOnly b c) : mgmtOnly a c := by
  unfold mgmtOnly at *; rw [k, h]

theorem restStage_mgmtOnly (s : State) : mgmtOnly s s.restStage := by unfold State.restStage; split <;> rfl

theorem endSessionsIf_mgmtOnly (s : State) (p : Session → Bool) (q : Setup → Bool) : mgmtOnly s (s.endSessionsIf p q) := by
  unfold State.endSessionsIf; dsimp only
  exact mgmtOnly_trans (by rfl) (restStage_mgmtOnly _)

theorem answered_mgmtOnly {s : State} (x : Session) (f : VopFrame) (a : Answer) (h : mgmtOnly s a.state) : mgmtOnly s (answered s x f a) := by
  unfold answered; dsimp only
  have e : ∀ u : State, mgmtOnly s u → mgmtOnly s (if u.clk.fabref = true then u.emit (.vop .mgmtPort
      (s.mgmtFrame f.mac (vopReply f (some x.key) a.st (a.index.getD f.index) a.value a.last))) else u) := by
    intro u hu; split
    · exact mgmtOnly_trans hu rfl
    · exact hu
  apply e
  unfold State.afterReply; dsimp only
  refine mgmtOnly_trans ?_ (endSessionsIf_mgmtOnly _ _ _)
  have h2 : mgmtOnly s (a.state.modSession x.id fun y => { y with
      lastSeq := f.seq, reply := vopReply f (some x.key) a.st (a.index.getD f.index) a.value a.last }) := mgmtOnly_trans h rfl
  split
  · exact mgmtOnly_trans h2 (endSessionsIf_mgmtOnly _ _ _)
  · exact h2

/-- Taking a command leaves the background slot as it is. -/
theorem mboxTake_background (s : State) (ld op : Nat) : ((s.mboxTake ld op).ld ld).background = (s.ld ld).background := by
  unfold State.mboxTake State.ld State.modLd
  dsimp only
  rw [find_modWhere (fun l : Ld => l.n == ld) _ (by intro x hx; exact hx)]
  cases s.lds.find? (·.n == ld) <;> rfl

theorem mboxTake_log (s : State) (ld op : Nat) : ((s.mboxTake ld op).ld ld).log = (s.ld ld).log := by
  unfold State.mboxTake State.ld State.modLd
  dsimp only
  rw [find_modWhere (fun l : Ld => l.n == ld) _ (by intro x hx; exact hx)]
  cases s.lds.find? (·.n == ld) <;> rfl

theorem mboxTake_extents (s : State) (ld op : Nat) : ((s.mboxTake ld op).ld ld).extents = (s.ld ld).extents := by
  unfold State.mboxTake State.ld State.modLd
  dsimp only
  rw [find_modWhere (fun l : Ld => l.n == ld) _ (by intro x hx; exact hx)]
  cases s.lds.find? (·.n == ld) <;> rfl

theorem mboxTake_busy (s : State) (ld op : Nat) : ((s.mboxTake ld op).ld ld).busy = (s.ld ld).busy := by
  unfold Ld.busy; rw [mboxTake_background]

@[simp] theorem mboxTake_isBanked (s : State) (ld op : Nat) : (s.mboxTake ld op).isBanked = s.isBanked := rfl
@[simp] theorem mboxTake_mgmtLd (s : State) (ld op : Nat) : (s.mboxTake ld op).mgmtLd = s.mgmtLd := rfl

/-- A vendor command that passes its checks runs its table. -/
theorem vendorRow_go {s : State} {ld op want n : Nat} {p : List Byte} {ok bg : Bool} {go : State → State} (h : s.linkCarries ld = true)
    (hb : s.isBanked = false) (hp : p.length = want) (ho : ok = true) (hg : bg = true → (s.ld ld).busy = false) :
    s.vendorRow ld op want n p ok bg go = go (s.mboxTake ld op) := by
  unfold State.vendorRow State.mailboxRow
  rw [if_pos h]; dsimp only; rw [if_neg (by simp [hp]), if_neg (by simp [ho]), if_neg (by rw [mboxTake_isBanked, hb]; simp), if_neg]
  rintro ⟨h1, h2⟩
  have : ((s.mboxTake ld op).ld ld).busy = (s.ld ld).busy := mboxTake_busy s ld op
  rw [this, hg h1] at h2; simp at h2

theorem fwRow_go {s : State} {ld op : Nat} {go : State → State} (h : s.linkCarries ld = true) (hm : ld = s.mgmtLd) :
    s.fwRow ld op go = go (s.mboxTake ld op) := by
  unfold State.fwRow State.mailboxRow; rw [if_pos h]; dsimp only; rw [if_pos (hm.trans (mboxTake_mgmtLd s ld op).symm)]

theorem commitChecked_bad {s v : State} {i : Nat} {c : Changes} {l : List (Bool × Status)} {g : State → State} {st : Status}
    (h : s.commitChecked i c l g = (st, v)) (hs : st ≠ .ok) : v = s := by
  unfold State.commitChecked at h
  split at h
  · exact (Prod.mk.inj h).2.symm
  · exact absurd (Prod.mk.inj h).1.symm hs

theorem unitClassAt_index {k : Nat} {u : UnitClass × Nat × Bool} (h : unitClassAt k = some u) : u.1.index = k := by
  unfold unitClassAt at h
  split at h <;> simp only [Option.some.injEq, reduceCtorEq] at h <;> subst h <;> rfl

end Sys2Proof.Machine
end

