-- ==== Sys2Proof/Laws/Memory.lean ====
section
/-! SUPPORT. Sys2Proof/Laws/Memory.lean: sparse association lists and byte memory: reads after writes, and that every operation
keeps the canonical form. -/

namespace Sys2Proof.Machine

open Sys2Proof

/-! ### Association lists -/

theorem assocWf_iff {α : Type} [DecidableEq α] (d : Nat → α) (l : List (Nat × α)) :
    assocWf d l = true ↔ l.Pairwise (fun a b => a.1 < b.1) ∧ ∀ c ∈ l, c.2 ≠ d c.1 := by
  induction l with
  | nil => simp [assocWf]
  | cons a l ih =>
    obtain ⟨k, v⟩ := a
    cases l with
    | nil => simp [assocWf]
    | cons b l =>
      obtain ⟨k', v'⟩ := b
      simp only [assocWf, Bool.and_eq_true, decide_eq_true_eq, ih]
      constructor
      · rintro ⟨⟨h1, h2⟩, h3, h4⟩
        refine ⟨List.pairwise_cons.mpr ⟨?_, h3⟩, ?_⟩
        · intro c hc
          rcases List.mem_cons.mp hc with rfl | hc
          · exact h2
          · exact h2.trans ((List.pairwise_cons.mp h3).1 c hc)
        · intro c hc
          rcases List.mem_cons.mp hc with rfl | hc
          · exact h1
          · exact h4 c hc
      · rintro ⟨h1, h2⟩
        obtain ⟨h3, h4⟩ := List.pairwise_cons.mp h1
        exact ⟨⟨h2 (k, v) List.mem_cons_self, h3 (k', v') List.mem_cons_self⟩, h4,
          fun c hc => h2 c (List.mem_cons_of_mem _ hc)⟩

/-- Keys of a stored list are those of the old list and the key stored. -/
theorem assocPut_mem {α : Type} [DecidableEq α] (l : List (Nat × α)) (k : Nat) (v d : α) :
    ∀ c ∈ assocPut l k v d, c ∈ l ∨ (c = (k, v) ∧ v ≠ d) := by
  induction l with
  | nil =>
    intro c hc
    unfold assocPut at hc
    split at hc
    · simp at hc
    · simp only [List.mem_singleton] at hc; exact .inr ⟨hc, ‹_›⟩
  | cons a l ih =>
    obtain ⟨k', v'⟩ := a
    intro c hc
    unfold assocPut at hc
    split at hc
    · split at hc
      · exact .inl hc
      · rcases List.mem_cons.mp hc with rfl | hc
        · exact .inr ⟨rfl, ‹_›⟩
        · exact .inl hc
    · split at hc
      · split at hc
        · exact .inl (List.mem_cons_of_mem _ hc)
        · rcases List.mem_cons.mp hc with rfl | hc
          · exact .inr ⟨rfl, ‹_›⟩
          · exact .inl (List.mem_cons_of_mem _ hc)
      · rcases List.mem_cons.mp hc with rfl | hc
        · exact .inl List.mem_cons_self
        · rcases ih c hc with h | h
          · exact .inl (List.mem_cons_of_mem _ h)
          · exact .inr h

theorem assocPut_sorted {α : Type} [DecidableEq α] (l : List (Nat × α)) (k : Nat) (v d : α) (h : l.Pairwise (fun a b => a.1 < b.1)) :
    (assocPut l k v d).Pairwise (fun a b => a.1 < b.1) := by
  induction l with
  | nil => unfold assocPut; split <;> simp
  | cons a l ih =>
    obtain ⟨k', v'⟩ := a
    obtain ⟨h1, h2⟩ := List.pairwise_cons.mp h
    unfold assocPut
    split
    · rename_i q
      split
      · exact h
      · refine List.pairwise_cons.mpr ⟨?_, h⟩
        intro c hc
        rcases List.mem_cons.mp hc with rfl | hc
        · exact q
        · exact q.trans (h1 c hc)
    · split
      · rename_i q1 q2
        subst q2
        split
        · exact h2
        · exact List.pairwise_cons.mpr ⟨h1, h2⟩
      · rename_i q1 q2
        refine List.pairwise_cons.mpr ⟨?_, ih h2⟩
        intro c hc
        rcases assocPut_mem l k v d c hc with hc | ⟨rfl, -⟩
        · exact h1 c hc
        · exact Nat.lt_of_le_of_ne (Nat.le_of_not_lt q1) fun e => q2 e.symm

/-- Storing keeps the canonical form. -/
theorem assocPut_wf {α : Type} [DecidableEq α] (d : Nat → α) (l : List (Nat × α)) (k : Nat) (v : α) (h : assocWf d l = true) :
    assocWf d (assocPut l k v (d k)) = true := by
  rw [assocWf_iff] at h ⊢
  refine ⟨assocPut_sorted l k v _ h.1, ?_⟩
  intro c hc
  rcases assocPut_mem l k v _ c hc with hc | ⟨rfl, hv⟩
  · exact h.2 c hc
  · exact hv

/-- Leaving entries out keeps the canonical form. -/
theorem assocWf_filter {α : Type} [DecidableEq α] (d : Nat → α) (l : List (Nat × α)) (p : Nat × α → Bool) (h : assocWf d l = true) :
    assocWf d (l.filter p) = true := by
  rw [assocWf_iff] at h ⊢
  exact ⟨h.1.filter _, fun c hc => h.2 c (List.mem_filter.mp hc).1⟩

/-- A key below every key of a list reads as the default. -/
theorem assocGet_below {α : Type} (l : List (Nat × α)) (k : Nat) (d : α) (h : ∀ c ∈ l, k < c.1) : assocGet l k d = d := by
  cases l with
  | nil => rfl
  | cons a l =>
    obtain ⟨k', v'⟩ := a
    have := h (k', v') List.mem_cons_self
    simp only at this
    unfold assocGet
    rw [if_neg (by omega), if_pos this]

/-- A stored value reads back. -/
theorem assocGet_put_same {α : Type} [DecidableEq α] (l : List (Nat × α)) (k : Nat) (v d : α)
    (h : l.Pairwise (fun a b => a.1 < b.1)) : assocGet (assocPut l k v d) k d = v := by
  induction l with
  | nil =>
    unfold assocPut
    split
    · rename_i q; subst q; rfl
    · simp [assocGet]
  | cons a l ih =>
    obtain ⟨k', v'⟩ := a
    obtain ⟨h1, h2⟩ := List.pairwise_cons.mp h
    unfold assocPut
    split
    · rename_i q
      split
      · rename_i e; subst e; unfold assocGet; rw [if_neg (by omega), if_pos q]
      · simp [assocGet]
    · split
      · rename_i q1 q2
        subst q2
        split
        · rename_i e; subst e; exact assocGet_below l k v h1
        · simp [assocGet]
      · rename_i q1 q2
        unfold assocGet
        rw [if_neg (by omega), if_neg q1]
        exact ih h2

/-- Storing under one key leaves every other key's value. -/
theorem assocGet_put_other {α : Type} [DecidableEq α] (l : List (Nat × α)) (k j : Nat) (v d e : α) (hj : j ≠ k)
    (h : l.Pairwise (fun a b => a.1 < b.1)) : assocGet (assocPut l k v d) j e = assocGet l j e := by
  induction l with
  | nil =>
    unfold assocPut
    split
    · rfl
    · simp [assocGet, Ne.symm hj]
  | cons a l ih =>
    obtain ⟨k', v'⟩ := a
    obtain ⟨h1, h2⟩ := List.pairwise_cons.mp h
    unfold assocPut
    split
    · rename_i q
      split
      · rfl
      · conv_lhs => unfold assocGet
        rw [if_neg (Ne.symm hj)]
        split
        · unfold assocGet; rw [if_neg (by omega), if_pos (by omega)]
        · rfl
    · split
      · rename_i q1 q2
        subst q2
        have e1 : assocGet ((k, v') :: l) j e = if j < k then e else assocGet l j e := by
          conv_lhs => unfold assocGet
          rw [if_neg (Ne.symm hj)]
        rw [e1]
        split
        · split
          · exact assocGet_below l j e fun c hc => by have := h1 c hc; simp only at this; omega
          · rfl
        · conv_lhs => unfold assocGet
          rw [if_neg (Ne.symm hj)]
      · conv_lhs => unfold assocGet
        conv_rhs => unfold assocGet
        rw [ih h2]

/-! ### Byte memory -/

theorem Memory.wf_sorted {m : List Host.Cell} (h : Memory.wf m = true) : m.Pairwise (fun a b => a.1 < b.1) := ((assocWf_iff _ _).mp h).1

theorem Memory.write_wf {m : List Host.Cell} (h : Memory.wf m = true) (a : Nat) (b : Byte) : Memory.wf (Memory.write m a b) = true :=
  assocPut_wf (fun _ => (0 : Byte)) m a b h

theorem Memory.writeBytes_wf {m : List Host.Cell} (h : Memory.wf m = true) (a : Nat) (bs : List Byte) :
    Memory.wf (Memory.writeBytes m a bs) = true := by
  induction bs generalizing m a with
  | nil => exact h
  | cons b bs ih => exact ih (Memory.write_wf h a b) (a + 1)

theorem Memory.zero_wf {m : List Host.Cell} (h : Memory.wf m = true) (a n : Nat) : Memory.wf (Memory.zero m a n) = true :=
  assocWf_filter _ m _ h

theorem Memory.read_write {m : List Host.Cell} (h : Memory.wf m = true) (a j : Nat) (b : Byte) :
    Memory.read (Memory.write m a b) j = if j = a then b else Memory.read m j := by
  unfold Memory.read Memory.write
  split
  · rename_i e; subst e; exact assocGet_put_same m j b 0 (Memory.wf_sorted h)
  · exact assocGet_put_other m a j b 0 0 ‹_› (Memory.wf_sorted h)

/-- A run of stored bytes: inside the run the byte stored, elsewhere the old byte. -/
theorem Memory.read_writeBytes {m : List Host.Cell} (h : Memory.wf m = true) (a : Nat) (bs : List Byte) (j : Nat) :
    Memory.read (Memory.writeBytes m a bs) j = if a ≤ j ∧ j < a + bs.length then bs.getD (j - a) 0 else Memory.read m j := by
  induction bs generalizing m a with
  | nil => simp [Memory.writeBytes]
  | cons b bs ih =>
    unfold Memory.writeBytes
    rw [ih (Memory.write_wf h a b), Memory.read_write h]
    simp only [List.length_cons]
    by_cases h1 : j = a
    · subst h1
      rw [if_neg (by omega), if_pos rfl, if_pos (by omega)]
      simp
    · by_cases h2 : a + 1 ≤ j ∧ j < a + 1 + bs.length
      · rw [if_pos h2, if_pos (by omega), show j - a = (j - (a + 1)) + 1 by omega, List.getD_cons_succ]
      · rw [if_neg h2, if_neg h1, if_neg (by omega)]

/-- What was stored reads back. -/
theorem Memory.readBytes_writeBytes {m : List Host.Cell} (h : Memory.wf m = true) (a : Nat) (bs : List Byte) :
    Memory.readBytes (Memory.writeBytes m a bs) a bs.length = bs := by
  unfold Memory.readBytes
  apply List.ext_getElem
  · simp
  · intro i h1 h2
    simp only [List.getElem_map, List.getElem_range]
    rw [Memory.read_writeBytes h, if_pos (by omega)]
    simp [h2]

/-- Reset's memory is in canonical form. -/
theorem Memory.reset_wf : Memory.wf State.reset.mem.data = true := rfl

/-! ### The stores of the node -/

/-- Storing a scalar object keeps the object store in canonical form. -/
theorem State.setScalar_objs_wf (s : State) (idx sub v : Nat) (h : assocWf (scalarDefault s.variant) s.objs = true) :
    assocWf (scalarDefault s.variant) (s.setScalar idx sub v).objs = true :=
  assocPut_wf (scalarDefault s.variant) s.objs _ v h

/-- A stored scalar reads back, and every other scalar stays. -/
theorem State.scalar_setScalar (s : State) (idx sub v i j : Nat) (h : assocWf (scalarDefault s.variant) s.objs = true) :
    (s.setScalar idx sub v).scalar i j = if objKey i j = objKey idx sub then v else s.scalar i j := by
  have hs := ((assocWf_iff _ _).mp h).1
  unfold State.scalar State.setScalar
  split
  · rename_i e; rw [e]; exact assocGet_put_same _ _ _ _ hs
  · exact assocGet_put_other _ _ _ _ _ _ ‹_› hs

end Sys2Proof.Machine
end

