-- ==== Sys2Proof/Laws/Rows.lean ====
section
/-! SUPPORT. Sys2Proof/Laws/Rows.lean: spec lemmas of the shared operations that rows call: new sequences, units, packets, queues and remote operations. -/

namespace Sys2Proof.Machine

open Sys2Proof

theorem createSeq_ok {s s' s'' : State} {q : Req} {g : Geom} {len h : Nat}
    (h1 : s.takeTables q.tenant (rangeTables (opAddrHigh q.entry) len) = some s') (h2 : s'.enterSeq (newSeq q g) = some (h, s'')) :
    s.createSeq q g len = s''.okReq q h := by
  rw [State.createSeq, h1]; dsimp only; rw [h2]

theorem nbUnit_n (s : State) (u : Nat) : (s.nbUnit u).n = u := by
  unfold State.nbUnit
  cases h : s.eng.units.find? (·.n == u) with
  | none => rfl
  | some x => have := List.find?_some h; simpa using this

theorem nbUnit_setNb (s : State) (x : NbUnit) (v : Nat) : (s.setNb x).nbUnit v = if v = x.n then x else s.nbUnit v := by
  unfold State.nbUnit State.setNb
  by_cases h : v = x.n
  · subst h; simp
  · have h' : (x.n == v) = false := by simpa using fun e => h e.symm
    simp only [List.find?_cons, h', if_neg h]
    rw [find_dropWhere_other]
    intro y hy
    simp at hy ⊢; omega

theorem count_ps (s : State) (i j n : Nat) : (s.count i j n).ps = s.ps := rfl

theorem receive_arrives {s : State} {p : Packet} {cls : PClass} {type : Nat} (h : s.Arrives p cls type) (go : State → State) :
    s.receive p cls type go = go (s.heard p) := by
  obtain ⟨h1, h2, h3, h4, h5, h6, h7, h8⟩ := h
  unfold State.receive
  rw [h1, h2, h3]; rcases h8 with h8 | h8 <;> simp [h4, h5, h6, h7, h8]

/-- What a packet that passes steps 1 to 5 leaves: counters, and whether its sender is banked. -/
theorem heard_only (s : State) (p : Packet) : ∃ o b, s.heard p = { s with objs := o, fab := { s.fab with bankedPeers := b } } := by
  unfold State.heard State.hear State.arrived
  split <;> split <;> split <;> exact ⟨_, _, rfl⟩

theorem onConn_heard {s : State} {p : Packet} {c : Conn} (h : s.OnConnOf p c) (go : Conn → State → State) :
    (s.heard p).onConn p go = go c (s.heardOn p c) := by
  obtain ⟨h0, h1, h2, h3, h4, h5⟩ := h
  unfold State.onConn
  rw [if_neg (by simp [h0]), h1]; dsimp only
  rw [if_neg (by simp [h2, h3])]
  rcases h4 with h4 | h4 <;> rw [h4] <;> simp [h5]

theorem conn_modConn {s : State} {n : Nat} {c : Conn} (h : s.conn n = some c) (f : Conn → Conn) (hf : ∀ x, (f x).num = x.num) :
    (s.modConn n f).conn n = some (f c) := by
  unfold State.conn State.modConn
  dsimp only
  rw [find_modWhere _ _ (by intro x hx; simpa [hf] using hx)]
  have h' : s.fab.conns.find? (·.num == n) = some c := h
  rw [h']; rfl

theorem wq_num {s : State} {n : Nat} {w : Wq} (h : s.wq n = some w) : w.num = n := by
  have := List.find?_some h; simpa using this

theorem wq_modWq {s : State} {n : Nat} {w : Wq} (h : s.wq n = some w) (f : Wq → Wq) (hf : ∀ x, (f x).num = x.num) :
    (s.modWq n f).wq n = some (f w) := by
  unfold State.wq State.modWq
  dsimp only
  rw [find_modWhere _ _ (by intro x hx; simpa [hf] using hx)]
  have h' : s.wqs.find? (·.num == n) = some w := h
  rw [h']; rfl

theorem wq_modWq' (s : State) (n : Nat) (f : Wq → Wq) (hf : ∀ x, (f x).num = x.num) : (s.modWq n f).wq n = (s.wq n).map f := by
  unfold State.wq State.modWq
  dsimp only
  rw [find_modWhere _ _ (by intro x hx; simpa [hf] using hx)]

theorem rcqOf_fst (s : State) (q : Req) (n psn : Nat) (h : q.origin = .remote n psn) : (s.rcqOf q).1 = n := by
  unfold State.rcqOf; rw [h]; dsimp only; split <;> rfl

theorem remoteRow_target {s : State} {r op n psn : Nat} {q : Req} {u : State} (h : s.AtTarget u r q op n psn) (d : List Byte) (go : Req → State → State) :
    s.remoteRow r op d go = s.relined q (go q u) := by
  obtain ⟨h1, h2, h3, h4, h5, h6, h7, h8, h8', h9, rfl⟩ := h
  unfold State.remoteRow
  rw [h1]; dsimp only
  rw [if_neg (by simp [h2, h3, h4, h5, h6]), h7]; dsimp only
  rw [if_pos h8, State.gated_open h8']
  unfold State.atBoundaries; rw [h9]

theorem remoteRow_queue {s : State} {r op n : Nat} {q : Req} (h1 : s.req r = some q) (h2 : q.op = op) (h3 : q.phase = .started) (h4 : q.remote = none)
    (h5 : s.coreRuns = true) (h6 : s.stalled r = false) (h7 : q.origin = .queue n) (h8 : s.gateOpen q = true) (d : List Byte) (go : Req → State → State) :
    s.remoteRow r op d go = s.issueRemote q d := by
  unfold State.remoteRow
  rw [h1]; dsimp only
  rw [if_neg (by simp [h2, h3, h4, h5, h6]), h7]; dsimp only
  rw [State.gated_open h8]

theorem comp_find_drop (s : State) (k : Nat) : (s.freeComp k).comp k = none := by
  unfold State.freeComp State.comp
  exact find_dropWhere _ _

end Sys2Proof.Machine
end

