-- ==== Sys2Proof/Tests/Slice0.lean ====
section
/-! SUPPORT. Sys2Proof/Tests/Slice0.lean: witnesses for the hypotheses of the statements, the WellFormed smoke test, and small
tests of single steps against figures of the spec. -/

open Sys2Proof Sys2Proof.Machine

set_option Elab.async false

namespace Sys2Proof.Tests

/-! ### Helpers -/

/-- A work entry from (low bit, value) pairs over an opcode. -/
def ent (op : Nat) (xs : List (Nat × Nat)) : BitVec 512 := BitVec.ofNat 512 (op + (xs.map fun x => x.2 * 2 ^ x.1).foldl (· + ·) 0)

/-- Request 0 of tenant 0, from queue 0. -/
def rq (op : Nat) (xs : List (Nat × Nat)) : Req :=
  { id := 0, origin := .queue 0, tenant := 0, comp := 0, loan := false, entry := ent op xs }

/-- The node after reset, its core running and its link up. -/
def up : State := { State.reset with node := { phase := .running, ready := true, linkUp := true } }

/-- `s` with the one request `q`. -/
def having (q : Req) (s : State) : State := { s with reqs := [q], nextReq := 1 }

/-- Five facts, then the rest. -/
theorem join5 {a b c d e f : Prop} (h : a ∧ b ∧ c ∧ d ∧ e) (x : f) : a ∧ b ∧ c ∧ d ∧ e ∧ f :=
  ⟨h.1, h.2.1, h.2.2.1, h.2.2.2.1, h.2.2.2.2, x⟩

/-- A geometry of tenant 0: one layer, one KV head of 16 BF16 elements: 16 KiB frames. -/
def g0 : Geom := { tenant := 0, id := 0, layers := 1, hkv := 1, d := 16, dv := 0, kfmt := fmtBF16, vfmt := fmtBF16, latent := false }

/-- An ACTIVE sequence of it, at 8 MiB. -/
def q0 : Seq := { idx := 0, gen := 1, tenant := 0, comp := 0, geom := 0, base := 8388608, cap := 1024, fills := [0] }

/-- The node with both. -/
def seqd : State := { up with geoms := [g0], seqs := [q0] }

/-! Parts of an answer, with a fall-back. -/

def Alloc.isGot {α : Type} : Alloc α → Bool
  | .got _ _ => true
  | _ => false

def Alloc.value {α : Type} (d : α) : Alloc α → α
  | .got a _ => a
  | _ => d

def Alloc.state {α : Type} (d : State) : Alloc α → State
  | .got _ s => s
  | _ => d

theorem Alloc.eq_got {α : Type} (x : Alloc α) (a : α) (d : State) (h : Alloc.isGot x = true) :
    x = .got (Alloc.value a x) (Alloc.state d x) := by
  cases x <;> simp_all [Alloc.isGot, Alloc.value, Alloc.state]

theorem Alloc.eq_unit (x : Alloc Unit) (d : State) (h : Alloc.isGot x = true) : x = .got () (Alloc.state d x) := by
  cases x <;> simp_all [Alloc.isGot, Alloc.state]

theorem eq_some {α : Type} (x : Option α) (d : α) (h : x.isSome = true) : x = some (x.getD d) := by
  cases x <;> simp_all

theorem eq_some_pair {α β : Type} (x : Option (α × β)) (d : α × β) (h : x.isSome = true) : x = some ((x.getD d).1, (x.getD d).2) := by
  cases x <;> simp_all

def Wrote.isDone : Wrote → Bool
  | .done _ => true
  | _ => false

def Wrote.state (d : State) : Wrote → State
  | .done s => s
  | _ => d

theorem Wrote.eq_done (x : Wrote) (d : State) (h : Wrote.isDone x = true) : x = .done (Wrote.state d x) := by
  cases x <;> simp_all [Wrote.isDone, Wrote.state]

/-- A loan frame of tenant 0, and its mapping at address 0 with both rights. -/
def f1 : Frame := { num := 1, size := 16384, tenant := 0, comp := 0, kind := .loan, place := .upper 0 0, home := 0 }
def m1 : Mapping := { tenant := 0, addr := 0, frame := 1, gen := 1, r := true, w := true, seq := false }

/-- The node with 16 KiB of writable memory at tenant address 0. -/
def ram : State := { up with mem := { frames := [f1], maps := [m1] } }

/-- A sequence that holds one page, and its frame and mapping. -/
def q1 : Seq := { q0 with fills := [256] }
def f2 : Frame := { num := 2, size := 16384, tenant := 0, comp := 0, kind := .page, place := .upper 1 0, home := 1 }
def m2 : Mapping := { tenant := 0, addr := 8388608, frame := 2, gen := 1, r := true, w := false, seq := true }

/-- The node with `q1`, its page, the loan frame, and an empty sequence 1 at 16 MiB. -/
def full : State :=
  { up with geoms := [g0], seqs := [q1, { q0 with idx := 1, base := 16777216 }], mem := { frames := [f1, f2], maps := [m1, m2] } }

def Except.val {ε α : Type} (d : α) : Except ε α → α
  | .ok a => a
  | .error _ => d

theorem eq_ok {ε α : Type} (x : Except ε α) (d : α) (h : x.toOption.isSome = true) : x = .ok (Except.val d x) := by
  cases x <;> simp_all [Except.toOption, Except.val]

theorem eq_ok_pair {ε α β : Type} (x : Except ε (α × β)) (d : α × β) (h : x.toOption.isSome = true) :
    x = .ok ((Except.val d x).1, (Except.val d x).2) := by
  cases x <;> simp_all [Except.toOption, Except.val]

theorem eq_ok_some_pair {ε α β : Type} (x : Except ε (Option (α × β))) (d : α × β)
    (h : (Except.val none x).isSome = true) :
    x = .ok (some (((Except.val none x).getD d).1, ((Except.val none x).getD d).2)) := by
  cases x with
  | error e => simp [Except.val] at h
  | ok a => cases a <;> simp_all [Except.val]

/-- `s` with bytes stored into the loan frame 1. -/
def State.put (s : State) (off : Nat) (bs : List Byte) : State := (s.writeFrame 1 off bs).getD s

/-- Composition 0 of tenant 0: this node, 0, and node 1, reached through port 0. -/
def map0 : CompMap :=
  { epoch := 1, crc := 0, nodes := [{ node := 0, nextHop := 0xFFFF, paths := [] }, { node := 1, nextHop := 0xFFFF, paths := [{ port := 0, mac := 1, ip := 0 }] }],
    adapters := [] }
def comp0 : Comp := { slot := 0, id := 1, tenant := 0, loan := false, map := some map0 }

/-- An open connection to node 1. -/
def c0 : Conn :=
  { num := 1, peer := 1, tenant := 0, comp := 0, state := .opened, peerConn := 1, slots := 64, limit := 64,
    paths := [{ port := 0, mac := 1, ip := 0, rate := 100000 }] }
def cq0 : Cq := { num := 0, tenant := 0, comp := 0, ld := 0, base := 0, log2 := 8, event := 0 }
def ports0 : List Port := (List.range 8).map fun p => { p := p, status := .up, width := 8 }

/-- `s` with the composition, a completion queue, the ports up and the connections `cs`. -/
def linked (cs : List Conn) (s : State) : State :=
  { s with comps := [comp0], cqs := [cq0], fab := { s.fab with ports := ports0, conns := cs } }

/-- A packet from node 1 on that connection, with its checksum. -/
def pk (p : Packet) : Packet :=
  let p : Packet := { p with src := 1, dst := 0, srcMac := 1, conn := 1, comp := 1, epoch := 1, len := p.payload.length }
  { p with icrc := p.crc }

theorem pk_icrc (p : Packet) : (pk p).icrc = (pk p).crc := rfl

/-! ### Sequences and mappings (chapter 3) -/

def gdefine : Req := rq opGEOM_DEFINE [(144, 1), (160, 1), (176, 16), (208, fmtBF16), (212, fmtBF16)]
def screate : Req := rq opSEQ_CREATE [(192, 1024), (256, 8388608)]
def atCreate : State := having screate { up with geoms := [g0] }
def atCreate1 : State := (atCreate.takeTables 0 (rangeTables 8388608 (rangeBytes 1 4 g0.frame))).getD up
def spin : Req := rq opSEQ_PIN [(128, 1), (176, 1)]
def squery : Req := rq opSEQ_QUERY [(128, 1)]
def atSquery : State := having squery { seqd with mem := ram.mem }
def swait : Req := { rq opSEQ_FENCE [] with phase := .waiting (.fence 1), accepted := true }
def sfork : Req := rq opFORK [(128, 1), (176, 256), (256, 33554432)]
def atFork : State := having sfork full
def atFork0 : State := atFork.modReq 0 fun q => { q with count := 256 }
def atFork1 : State := (atFork0.takeTables 0 (rangeTables 33554432 (atFork.seqRange q1) ++
  (firstPages 1 1).flatMap fun lp => tablePagesFor ((childOf sfork q1).pageAddr (atFork.seqFrameBytes q1) lp.1 lp.2)
    (atFork.seqFrameBytes q1) (leafLow (atFork.seqFrameBytes q1)))).getD up
/-- An APPEND of one token that carries its 64 bytes with it. -/
def sappend : Req :=
  { rq opAPPEND [(128, 1), (224, 1), (256, 0xFFFFFFFF), (352, fmtBF16), (356, fmtBF16)] with
    origin := .remote 0 0, inlineData := List.replicate 64 1 }
def atAppend : State := having sappend seqd
def atAppend1 : State := (atAppend.takeTables 0 ((atAppend.appendNeeds (appendOf sappend q0 g0)).flatMap fun lp =>
      tablePagesFor (q0.pageAddr g0.frame lp.1 lp.2) g0.frame (leafLow g0.frame))).getD up
def allocated : Alloc (List ((Nat × Nat) × Nat)) :=
  allocEach (fun lp s => s.allocPage 0 0 0 lp.1 lp.2 g0.frame g0.blockBytes) (atAppend.appendNeeds (appendOf sappend q0 g0)) atAppend1
def sshare : Req := rq opPAGE_SHARE [(128, 1), (208, 65537)]
def atShare : State := having sshare full
def strunc : Req := rq opSEQ_TRUNCATE [(128, 1)]
def atTrunc : State := having strunc full

/-- A concrete state and operands for every clause of GeometryAndCreateComplete. -/
theorem witness_geometryAndCreateComplete :
  (∃ (s : State), ∃ (r : _), ∃ (q : _), ∃ (vs : _), ∃ (s' : _),
    s.Runs r q opGEOM_DEFINE ∧
    q.loan = false ∧
    firstFail (geomOf q.tenant q.entry).checks = none ∧
    s.geom q.tenant (geomOf q.tenant q.entry).id = none ∧
    s.readScales q.payer (geomOf q.tenant q.entry) (opAddrHigh q.entry) = some (vs, s')) ∧
  (∃ (s : State), ∃ (r : _), ∃ (q : _),
    s.Runs r q opGEOM_RELEASE ∧
    fld q.entry 143 128 < 1024 ∧
    (s.geom q.tenant (fld q.entry 143 128)).isSome ∧
    (∀ x ∈ s.seqs, ¬ (x.tenant = q.tenant ∧ x.geom = fld q.entry 143 128))) ∧
  (∃ (s : State), ∃ (r : _), ∃ (q : _), ∃ (g : _), ∃ (s' : _), ∃ (h : _), ∃ (s'' : _),
    s.Edits r q opSEQ_CREATE ∧
    q.loan = false ∧
    s.geom q.tenant (fld q.entry 143 128) = some g ∧
    0 < fld q.entry 223 192 ∧
    fld q.entry 223 192 ≤ maxSeqTokens ∧
    s.rangeBad q.tenant (opAddrHigh q.entry) (rangeBytes g.layers (ceilDiv (fld q.entry 223 192) 256) g.frame) = false ∧
    s.tablesLost q.tenant (opAddrHigh q.entry) (rangeBytes g.layers (ceilDiv (fld q.entry 223 192) 256) g.frame) = false ∧
    s.takeTables q.tenant (rangeTables (opAddrHigh q.entry) (rangeBytes g.layers (ceilDiv (fld q.entry 223 192) 256) g.frame)) = some s' ∧
    s'.enterSeq (newSeq q g) = some (h, s'')) :=
  ⟨⟨having gdefine up, 0, gdefine, [], having gdefine up,
     by decide +kernel⟩,
   ⟨having (rq opGEOM_RELEASE []) { up with geoms := [g0] }, 0, rq opGEOM_RELEASE [],
     by decide +kernel⟩,
   ⟨atCreate, 0, screate, g0, atCreate1, 1, ((atCreate1.enterSeq (newSeq screate g0)).getD (0, up)).2,
     by decide +kernel⟩⟩

/-- A concrete state and operands for every clause of PinQueryFenceComplete. -/
theorem witness_pinQueryFenceComplete :
  (∃ (s : State), ∃ (r : _), ∃ (q : _), ∃ (x : _),
    s.Runs r q opSEQ_PIN ∧
    s.NamesSeq q x ∧
    x.state = .active ∧
    flag q.entry 176 = true ∧
    x.pinned = false ∧
    s.pinnedBytes q.tenant x ≤ s.tenantObj q.tenant 8) ∧
  (∃ (s : State), ∃ (r : _), ∃ (q : _), ∃ (x : _),
    s.Runs r q opSEQ_PIN ∧
    s.NamesSeq q x ∧
    flag q.entry 176 = false) ∧
  (∃ (s : State), ∃ (r : _), ∃ (q : _), ∃ (x : _), ∃ (s' : _),
    s.Runs r q opSEQ_QUERY ∧
    s.NamesSeq q x ∧
    s.writeTenant q.payer (opAddrHigh q.entry) (leBytes 64 (s.seqRecord x)) = .done s') ∧
  (∃ (s : State), ∃ (r : _), ∃ (q : _),
    s.Runs r q opSEQ_FENCE ∧
    q.accepted = false ∧
    (∀ w ∈ s.mem.walks, w.tenant = q.tenant → s.mem.walkEpoch ≤ w.w)) ∧
  (∃ (s : State), ∃ (r : _), ∃ (q : _), ∃ (f : _),
    s.req r = some q ∧
    q.phase = .waiting (.fence f) ∧
    s.coreRuns = true) :=
  ⟨⟨having spin seqd, 0, spin, q0,
     by decide +kernel⟩,
   ⟨having (rq opSEQ_PIN [(128, 1)]) seqd, 0, rq opSEQ_PIN [(128, 1)], q0,
     by decide +kernel⟩,
   ⟨atSquery, 0, squery, q0, _, by decide +kernel, by decide +kernel, Wrote.eq_done _ up (by decide +kernel)⟩,
   ⟨having (rq opSEQ_FENCE []) up, 0, rq opSEQ_FENCE [],
     by decide +kernel⟩,
   ⟨having swait up, 0, swait, 1,
     by decide +kernel⟩⟩

/-- A concrete state and operands for every clause of SequenceDataComplete. -/
theorem witness_sequenceDataComplete :
  (∃ (s : State), ∃ (r : _), ∃ (q : _), ∃ (p : _), ∃ (n : _), ∃ (u : _), ∃ (s' : _), ∃ (h : _), ∃ (s'' : _),
    s.Edits r q opFORK ∧
    s.NamesSeq q p ∧
    p.state = .active ∧
    n = (if q.accepted then min q.count p.length else p.length) ∧
    (u = (s.modReq r fun q => { q with count := if q.accepted then q.count else n })) ∧
    u.HasForkTurn q p.handle ∧
    s.pagesFail p (firstPages p.fills.length (ceilDiv (fld q.entry 207 176) 256)) = none ∧
    fld q.entry 207 176 ≤ n ∧
    s.swappedNeeded p (firstPages p.fills.length (ceilDiv (fld q.entry 207 176) 256)) = false ∧
    s.rangeBad q.tenant (opAddrHigh q.entry) (s.seqRange p) = false ∧
    s.shareFull p [] (firstPages p.fills.length (ceilDiv (fld q.entry 207 176) 256)) = false ∧
    s.tablesLost q.tenant (opAddrHigh q.entry) (s.seqRange p) = false ∧
    (u.takeTables q.tenant (rangeTables (opAddrHigh q.entry) (s.seqRange p) ++ (firstPages p.fills.length (ceilDiv (fld q.entry 207 176) 256)).flatMap fun lp => tablePagesFor ((childOf q p).pageAddr (s.seqFrameBytes p) lp.1 lp.2) (s.seqFrameBytes p) (leafLow (s.seqFrameBytes p))) = some s') ∧
    s'.enterSeq (childOf q p) = some (h, s'')) ∧
  (∃ (s : State), ∃ (r : _), ∃ (q : _), ∃ (x : _), ∃ (g : _), ∃ (bs : _), ∃ (dma : _), ∃ (s0 : _), ∃ (v : _), ∃ (l : _), ∃ (s3 : _),
    s.Edits r q opAPPEND ∧
    s.NamesSeq q x ∧
    s.geom x.tenant x.geom = some g ∧
    firstFail (appendChecks q.entry g) = none ∧
    s.HasTurn q x.handle ∧
    x.state = .active ∧
    firstFail (fillChecks q.entry x (layerRun (apLfirst q.entry) (apLcount q.entry) g.layers)) = none ∧
    s.source q (apSrcKey q.entry) (apSrcOffset q.entry) ((appendOf q x g).layerBytes * (appendOf q x g).layers.length) dma = .ok (some (bs, s0)) ∧
    (s0.pagesFail x ((appendOf q x g).layers.flatMap fun l => (appendSpans (appendOf q x g).fill (appendOf q x g).tokens).map fun sp => (l, sp.1)) = none) ∧
    (s0.swappedNeeded x ((appendOf q x g).layers.map fun l => (l, (appendOf q x g).fill / 256)) = false) ∧
    s0.AppendReady q x g v l ∧
    ((v.modReq q.id fun q => { q with newFrames := [] }).installFrames (appendOf q x g) l).bind (·.appendLayers (appendOf q x g) bs (appendOf q x g).layers) = some s3) ∧
  (∃ (s : State), ∃ (r : _), ∃ (q : _), ∃ (a : _), ∃ (b : _), ∃ (s' : _),
    s.Edits r q opPAGE_SHARE ∧
    s.NamesSeq q a ∧
    s.findSeq q.tenant (fld q.entry 255 208) q.accepted = some b ∧
    s.descLost b = false ∧
    s.HasTurn q b.handle ∧
    a.state = .active ∧
    b.state = .active ∧
    a.geom = b.geom ∧
    fld q.entry 191 176 < a.fills.length ∧
    fld q.entry 271 256 < b.fills.length ∧
    256 * (fld q.entry 207 192 + 1) ≤ a.fill (fld q.entry 191 176) ∧
    b.fill (fld q.entry 271 256) % 256 = 0 ∧
    b.fill (fld q.entry 271 256) + 256 ≤ b.cap ∧
    s.pagesFail a [(fld q.entry 191 176, fld q.entry 207 192)] = none ∧
    s.pagesFail b [(fld q.entry 271 256, b.fill (fld q.entry 271 256) / 256)] = none ∧
    s.swappedNeeded a [(fld q.entry 191 176, fld q.entry 207 192)] = false ∧
    s.shareFull a (s.seqFrames b) [(fld q.entry 191 176, fld q.entry 207 192)] = false ∧
    s.takeTables q.tenant (tablePagesFor (b.pageAddr (s.seqFrameBytes b) (fld q.entry 271 256) (b.fill (fld q.entry 271 256) / 256)) (s.seqFrameBytes b) (leafLow (s.seqFrameBytes b))) = some s') ∧
  (∃ (s : State), ∃ (r : _), ∃ (q : _), ∃ (x : _), ∃ (g : _), ∃ (k : _), ∃ (u : _), ∃ (v : _),
    s.Edits r q opSEQ_TRUNCATE ∧
    s.NamesSeq q x ∧
    s.HasTurn q x.handle ∧
    x.state = .active ∧
    s.geom x.tenant x.geom = some g ∧
    k = fld q.entry 207 176 ∧
    (s.pagesFail x (((s.layersAbove x k).flatMap x.pagesOf).filter fun lp => decide (k / 256 ≤ lp.2)) = none) ∧
    (k % 256 = 0 ∨ s.swappedNeeded x ((s.layersAbove x k).map fun l => (l, k / 256)) = false) ∧
    (u = (s.modSeq x.idx fun y => { y with fills := y.fills.map (min k) })) ∧
    v = (if s.layersAbove x k = [] then u else u.psForget x.handle k)) :=
  ⟨⟨atFork, 0, sfork, q1, 256, atFork0, atFork1, ((atFork1.enterSeq (childOf sfork q1)).getD (0, up)).1, ((atFork1.enterSeq (childOf sfork q1)).getD (0, up)).2,
     by decide +kernel⟩,
   ⟨atAppend, 0, sappend, q0, g0, List.replicate 64 1, [], atAppend, _, _, _,
      by decide +kernel, by decide +kernel, by decide +kernel, by decide +kernel, by decide +kernel, by decide +kernel,
      by decide +kernel, rfl, by decide +kernel, by decide +kernel,
      Or.inr ⟨rfl, _, _, eq_some _ up (by decide +kernel), Alloc.eq_got _ [] up (by decide +kernel), by decide +kernel, by decide +kernel, rfl,
        by decide +kernel⟩,
      eq_some _ up (by decide +kernel)⟩,
   ⟨atShare, 0, sshare, q1, { q0 with idx := 1, base := 16777216 }, (atShare.takeTables 0 (tablePagesFor 16777216 16384 (leafLow 16384))).getD up,
     by decide +kernel⟩,
   ⟨atTrunc, 0, strunc, q1, g0, 0, atTrunc.modSeq 0 fun y => { y with fills := y.fills.map (min 0) }, (atTrunc.modSeq 0 fun y => { y with fills := y.fills.map (min 0) }).psForget 1 0,
     by decide +kernel⟩⟩

def spreempt : Req := rq opSEQ_PREEMPT [(128, 1)]
def atPreempt : State := { having spreempt full with mem := { full.mem with swapArea := some (0, 0, 8192) }, objs := [(0x400000 + 0xA, 8192)] }
def preempted : State := { full with seqs := [{ q1 with state := .preempted }], mem := { full.mem with frames := [f1, { f2 with place := .swap 0 1 }] } }
def srestore : Req := rq opSEQ_RESTORE [(128, 1)]
def sdestroy : Req := { rq opSEQ_DESTROY [(128, 1)] with accepted := true }
def smap : Req := rq opMAP [(128, 65536), (192, 2), (228, 3)]
def atMap : State := having smap ram
def sunmap : Req := rq opUNMAP [(192, 1)]
def sremap : Req := rq opREMAP [(256, 1), (192, 65536)]
def atRemap : State := having sremap ram

/-- A concrete state and operands for every clause of PreemptRestoreDestroyComplete. -/
theorem witness_preemptRestoreDestroyComplete :
  (∃ (s : State), ∃ (r : _), ∃ (q : _), ∃ (x : _), ∃ (s' : _),
    s.Runs r q opSEQ_PREEMPT ∧
    s.NamesSeq q x ∧
    x.state = .active ∧
    q.accepted = false ∧
    (s.earlier q (fun y => y.writesInto x.handle) = []) ∧
    ((s.modSeq x.idx fun y => { y with state := .preempting, moved := 0, starter := some r }).accept r []).startSwapOut x = some s' ∧
    ((s.modSeq x.idx fun y => { y with state := .preempting, moved := 0, starter := some r }).accept r []).ownFrames x ≠ []) ∧
  (∃ (s : State), ∃ (r : _), ∃ (q : _), ∃ (x : _),
    s.Runs r q opSEQ_PREEMPT ∧
    s.NamesSeq q x ∧
    x.state = .preempted ∧
    q.accepted = false) ∧
  (∃ (s : State), ∃ (r : _), ∃ (q : _), ∃ (x : _),
    s.Runs r q opSEQ_RESTORE ∧
    s.NamesSeq q x ∧
    x.state = .preempted ∧
    s.swappedFrames x ≠ []) ∧
  (∃ (s : State), ∃ (r : _), ∃ (q : _), ∃ (x : _),
    s.Runs r q opSEQ_RESTORE ∧
    s.NamesSeq q x ∧
    x.state = .active ∧
    q.accepted = true) ∧
  (∃ (s : State), ∃ (r : _), ∃ (q : _), ∃ (x : _),
    s.Edits r q opSEQ_DESTROY ∧
    s.findSeq q.tenant (opHandle q.entry) true = some x ∧
    q.accepted = true ∧
    s.anyLive q.after = false ∧
    (x.state = .active ∨ x.state = .preempted)) ∧
  (∃ (s : State), ∃ (i : _), ∃ (x : _), ∃ (st : Status),
    s.seqAt i = some x ∧
    s.coreRuns = true ∧
    x.state = .restoring ∧
    (st = .capacity ∨ st = .mediaError ∨ st = .timeout)) :=
  ⟨⟨atPreempt, 0, spreempt, q1, _,
     join5 (by decide +kernel) (⟨eq_some _ up (by decide +kernel), by decide +kernel⟩)⟩,
   ⟨having spreempt preempted, 0, spreempt, { q1 with state := .preempted },
     by decide +kernel⟩,
   ⟨having srestore preempted, 0, srestore, { q1 with state := .preempted },
     by decide +kernel⟩,
   ⟨having { srestore with accepted := true } full, 0, { srestore with accepted := true }, q1,
     by decide +kernel⟩,
   ⟨having sdestroy { full with seqs := [{ q1 with destroying := true }] }, 0, sdestroy, { q1 with destroying := true },
     by decide +kernel⟩,
   ⟨{ full with seqs := [{ q1 with state := .restoring }] }, 0, { q1 with state := .restoring }, .timeout,
     by decide +kernel⟩⟩

/-- A concrete state and operands for every clause of MappingRowsComplete. -/
theorem witness_mappingRowsComplete :
  (∃ (s : State), ∃ (r : _), ∃ (q : _), ∃ (s1 : _), ∃ (l : _), ∃ (s2 : _),
    s.Edits r q opMAP ∧
    0 < fld q.entry 223 192 ∧
    fld q.entry 227 224 ≤ 9 ∧
    mapAddr q.entry % (granule * 2 ^ fld q.entry 227 224) = 0 ∧
    mapAddr q.entry + fld q.entry 223 192 * (granule * 2 ^ fld q.entry 227 224) ≤ s.addrLimit q.tenant ∧
    s.mappedIn q.tenant (mapAddr q.entry) (fld q.entry 223 192 * (granule * 2 ^ fld q.entry 227 224)) = false ∧
    s.seqRangeIn q.tenant (mapAddr q.entry) (fld q.entry 223 192 * (granule * 2 ^ fld q.entry 227 224)) = false ∧
    s.framesUsed q.tenant + fld q.entry 223 192 * (granule * 2 ^ fld q.entry 227 224) ≤ s.frameMax q.tenant ∧
    s.tablesLost q.tenant (mapAddr q.entry) (fld q.entry 223 192 * (granule * 2 ^ fld q.entry 227 224)) = false ∧
    s.takeTables q.tenant (tablePagesFor (mapAddr q.entry) (fld q.entry 223 192 * (granule * 2 ^ fld q.entry 227 224)) (leafLow (granule * 2 ^ fld q.entry 227 224))) = some s1 ∧
    (allocEach (fun _ s => s.allocPlain q.tenant q.comp (granule * 2 ^ fld q.entry 227 224) .loan) (List.range (fld q.entry 223 192)) s1 = .got l s2)) ∧
  (∃ (s : State), ∃ (r : _), ∃ (q : _), ∃ (ms : _),
    s.Edits r q opUNMAP ∧
    0 < fld q.entry 223 192 ∧
    fld q.entry 223 192 ≤ s.mem.maps.length ∧
    s.loanRun q.tenant (fld q.entry 223 192) (mapAddr q.entry) = some ms ∧
    mapAddr q.entry + s.runBytes ms ≤ s.addrLimit q.tenant ∧
    s.regionOver q.tenant (mapAddr q.entry) (s.runBytes ms) = false ∧
    s.mapsFail ms = none) ∧
  (∃ (s : State), ∃ (r : _), ∃ (q : _), ∃ (ms : _), ∃ (s' : _),
    s.Edits r q opREMAP ∧
    0 < fld q.entry 287 256 ∧
    fld q.entry 287 256 ≤ s.mem.maps.length ∧
    s.loanRun q.tenant (fld q.entry 287 256) (mapAddr q.entry) = some ms ∧
    mapAddr q.entry + s.runBytes ms ≤ s.addrLimit q.tenant ∧
    s.regionOver q.tenant (mapAddr q.entry) (s.runBytes ms) = false ∧
    s.mapsFail ms = none ∧
    (∀ m ∈ moved (fld q.entry 255 192) ms, m.addr % s.frameSize m.frame = 0) ∧
    fld q.entry 255 192 + s.runBytes ms ≤ s.addrLimit q.tenant ∧
    s.mappedIn q.tenant (fld q.entry 255 192) (s.runBytes ms) = false ∧
    s.seqRangeIn q.tenant (fld q.entry 255 192) (s.runBytes ms) = false ∧
    (fld q.entry 255 192 + s.runBytes ms ≤ mapAddr q.entry ∨ mapAddr q.entry + s.runBytes ms ≤ fld q.entry 255 192) ∧
    s.tablesLost q.tenant (fld q.entry 255 192) (s.runBytes ms) = false ∧
    (s.takeTables q.tenant ((moved (fld q.entry 255 192) ms).flatMap fun m => tablePagesFor m.addr (s.frameSize m.frame) (leafLow (s.frameSize m.frame))) = some s')) ∧
  (∃ (s : State), ∃ (i : _), ∃ (q : _),
    s.mem.quar.find? (·.id == i) = some q ∧
    s.walksPast q.tag = true ∧
    s.toBeZeroed q = false) :=
  ⟨⟨atMap, 0, smap, _, _, _,
     join5 (by decide +kernel) (⟨by decide +kernel, by decide +kernel, by decide +kernel, by decide +kernel, eq_some _ up (by decide +kernel), Alloc.eq_got _ [] up (by decide +kernel)⟩)⟩,
   ⟨having sunmap ram, 0, sunmap, [m1],
     by decide +kernel⟩,
   ⟨atRemap, 0, sremap, [m1], _,
     join5 (by decide +kernel) (join5 (by decide +kernel) (⟨by decide +kernel, by decide +kernel, by decide +kernel, eq_some _ up (by decide +kernel)⟩))⟩,
   ⟨{ up with mem := { quar := [{ id := 0, tag := 1, tenant := 0, what := .place (.upper 0 0) 16384 [] }] } }, 0, { id := 0, tag := 1, tenant := 0, what := .place (.upper 0 0) 16384 [] },
     by decide +kernel⟩⟩

def sattend : Req := rq opATTEND [(171, 1), (160, 1), (147, fmtBF16), (143, 1), (448, 8192), (384, 64)]
def atAttend : State := State.put (having sattend { full with mem := { full.mem with maps := [{ m1 with addr := 0 }, m2] } }) 0 (leBytes 32 (1 + 2 ^ 48 + 255 * 2 ^ 160))
def job0 : Job := { req := 0, parts := [], tenant := 0, comp := 0, loan := false }
/-- Unit 0 in a step, with `n` refreshes owed, and core 0 in a piece. -/
def busyUnit (n : Nat) : State :=
  { up with eng := { units := [{ n := 0, step := some job0, owed := n }], cores := [{ n := 0, piece := some job0 }] } }
def scast : Req := { rq opNB_EXEC [(128, 5), (448, 0)] with loan := true }
def castDesc : List Byte :=
  leBytes 8 (1 + 32 * 2 ^ 32) ++ List.replicate 56 0 ++ leBytes 16 (2 ^ 27 + fmtBF16 * 2 ^ 28 + 64 * 2 ^ 32 + 4096 * 2 ^ 64) ++
    leBytes 16 (2 ^ 27 + fmtFP32 * 2 ^ 28 + 128 * 2 ^ 32 + 8192 * 2 ^ 64)
def atCast : State := State.put (having scast ram) 0 castDesc
def castWork : LoanWork := { op := nbCAST, desc := castDesc, rows := [], jobs := [], rowsDone := 1, fwd := [] }
def gatherWork : LoanWork := { castWork with op := nbGATHER }
def doneGather : Req := { scast with phase := .waiting .work, accepted := true, loanWork := some gatherWork }
def doneCast : Req := { scast with phase := .waiting .work, accepted := true, loanWork := some castWork }
def attWork : AttWork := { geom := g0, seqs := [0], recs := [] }
def doneAttend : Req := { sattend with phase := .waiting .work, accepted := true, att := some attWork }
def mopen : Req := rq opMERGE_OPEN [(352, 16), (400, 1), (416, 1), (448, 8192)]
def mc0 : MergeCtx :=
  { slot := 0, gen := 1, tenant := 0, comp := 0, result := 8192, records := 2, contribs := 2, deadline := 1000000000, dv := 16,
    ofmt := 0, counts := true, normalise := false, frames := [2] }
def merging : State := { ram with merges := [mc0] }
def msubmit : Req := { rq opMERGE_SUBMIT [(128, mc0.id), (256, 1)] with origin := .remote 0 0, inlineData := List.replicate 88 0 }
def mclose : Req := rq opMERGE_CLOSE [(128, mc0.id)]
def mabort : Req := rq opMERGE_ABORT [(128, mc0.id)]
def tsRebuild : Req := rq opTS_REBUILD [(128, 1), (192, 1)]
def tsRead : Req := rq opTS_READ [(128, 1), (224, 1)]
def tsb0 : TsBlock := { num := 0, channel := 2, granule := 0, offset := 0, size := 128 }
def touched : State := { full with mem := { full.mem with frames := [f1, { f2 with touch := some { block := tsb0 } }] } }
def psInsert : Req := rq opPS_INSERT [(128, 1)]
def pfx : PsSlot := { bank := 0, slot := 0, gen := 1, tenant := 0, tag := 0, ckey := 0, mkey := 0, handle := 1, page := 0 }
def psRemove : Req := rq opPS_REMOVE [(128, pfx.id)]
def psSearch : Req := rq opPS_SEARCH [(352, 1), (448, 4096)]
def cached : State := { full with ps := [pfx], objs := [(0x40000C, 8)] }
def noPrefix : State := { full with variant := .fn4_1p }

/-- A concrete state and operands for every clause of AttendComplete. -/
theorem witness_attendComplete :
  (∃ (s : State), ∃ (u : _), ∃ (r : _), ∃ (q : _), ∃ (tb : _), ∃ (s1 : _), ∃ (x : _), ∃ (g : _), ∃ (blk : _), ∃ (s2 : _), ∃ (ps : _),
    s.Runs r q opATTEND ∧
    q.att = none ∧
    firstFail (attendChecks q.entry q.isRemote) = none ∧
    (u = (s.modReq r fun q => { q with row := none })) ∧
    u.attInput q 0 (atTable q.entry) (32 * atRows q.entry) = .ok (tb, s1) ∧
    firstFail (tableChecks q (rowsOf (atRows q.entry) tb)) = none ∧
    (rowsOf (atRows q.entry) tb).head?.bind (fun x => s1.findSeq q.tenant x.handle q.accepted) = some x ∧
    s1.descLost x = false ∧
    s1.geom x.tenant x.geom = some g ∧
    firstFail (geomChecks q.entry g (rowsOf (atRows q.entry) tb)) = none ∧
    s1.attInput q (32 * atRows q.entry) (atQuery q.entry) (queryBytes q.entry g (rowsOf (atRows q.entry) tb)) = .ok (blk, s2) ∧
    s2.checkRows q g 0 0 (rowsOf (atRows q.entry) tb) = .ok ps) ∧
  (∃ (s : State), ∃ (r : _), ∃ (q : _), ∃ (a : _),
    s.req r = some q ∧
    q.att = some a ∧
    a.busy = [] ∧
    a.held = [] ∧
    q.phase = .waiting .work ∧
    s.coreRuns = true) :=
  ⟨⟨atAttend, _, 0, sattend, _, _, q1, g0, _, _, _,
     by decide +kernel, by decide +kernel, by decide +kernel, rfl, eq_ok_pair _ ([], up) (by decide +kernel), join5 (by decide +kernel) (⟨eq_ok_pair _ ([], up) (by decide +kernel), eq_ok _ [] (by decide +kernel)⟩)⟩,
   ⟨having doneAttend full, 0, doneAttend, attWork,
     by decide +kernel⟩⟩

/-- A concrete state and operands for every clause of UnitEventsComplete. -/
theorem witness_unitEventsComplete :
  (∃ (s : State), ∃ (u : _), ∃ (j : _),
    (s.nbUnit u).step = some j ∧
    s.coreRuns = true) ∧
  (∃ (s : State), ∃ (u : _), ∃ (j : _),
    (s.nbUnit u).step = some j ∧
    (s.nbUnit u).owed + 1 < maxOwed) ∧
  (∃ (s : State), ∃ (u : _), ∃ (j : _),
    (s.nbUnit u).step = some j ∧
    (s.nbUnit u).owed + 1 = maxOwed ∧
    (s.nbUnit u).cut = false) ∧
  (∃ (s : State), ∃ (c : _), ∃ (j : _),
    (s.coreSt c).piece = some j ∧
    s.coreRuns = true ∧
    (s.atLower (fun x => x.item == .core c j.began) = false)) :=
  ⟨⟨busyUnit 0, 0, job0,
     by decide +kernel⟩,
   ⟨busyUnit 0, 0, job0,
     by decide +kernel⟩,
   ⟨busyUnit 7, 0, job0,
     by decide +kernel⟩,
   ⟨busyUnit 0, 0, job0,
     by decide +kernel⟩⟩

/-- A concrete state and operands for every clause of LoanOperationsComplete. -/
theorem witness_loanOperationsComplete :
  (∃ (s : State), ∃ (r : _), ∃ (q : _), ∃ (d : _), ∃ (s1 : _), ∃ (p : _), ∃ (s2 : _), ∃ (c : _), ∃ (op : _),
    (c, op) ∈ [(Instr.gatherReduce r, nbGATHER), (.ewise r, nbEWISE), (.norm r, nbNORM), (.optStep r, nbOPT), (.cast r, nbCAST)] ∧
    s.Runs r q opNB_EXEC ∧
    nbOp q.entry = op ∧
    q.loanWork = none ∧
    s.chained q (nbOrdered q.entry) = false ∧
    firstFail (s.nbChecks q) = none ∧
    s.loadTenant q.payer (nbDesc q.entry) 128 = .ok (d, s1) ∧
    s1.loanPlan q.payer op d = .ok (p, s2)) ∧
  (∃ (s : State), ∃ (r : _), ∃ (q : _), ∃ (w : _),
    s.req r = some q ∧
    q.loanWork = some w ∧
    w.jobs = [] ∧
    q.phase = .waiting .work ∧
    s.coreRuns = true ∧
    w.op ≠ nbGATHER) ∧
  (∃ (s : State), ∃ (r : _), ∃ (q : _), ∃ (w : _), ∃ (s' : _),
    s.req r = some q ∧
    q.loanWork = some w ∧
    w.jobs = [] ∧
    q.phase = .waiting .work ∧
    s.coreRuns = true ∧
    w.op = nbGATHER ∧
    s.gatherOut q.tenant w w.outs.zipIdx = some s') :=
  ⟨⟨atCast, 0, scast, _, _, _, _, .cast 0, nbCAST,
     join5 (by decide +kernel) (⟨by decide +kernel, eq_ok_pair _ ([], up) (by decide +kernel), eq_ok_pair _ (⟨[], []⟩, up) (by decide +kernel)⟩)⟩,
   ⟨having doneCast ram, 0, doneCast, castWork,
     by decide +kernel⟩,
   ⟨having doneGather ram, 0, doneGather, gatherWork, _,
     join5 (by decide +kernel) (⟨by decide +kernel, eq_some _ up (by decide +kernel)⟩)⟩⟩

/-- A concrete state and operands for every clause of MergeRowsComplete. -/
theorem witness_mergeRowsComplete :
  (∃ (s : State), ∃ (r : _), ∃ (q : _), ∃ (slot : _), ∃ (l : _), ∃ (s' : _),
    s.Runs r q opMERGE_OPEN ∧
    moOfmt q.entry ≤ 1 ∧
    0 < moRecords q.entry ∧
    moRecords q.entry ≤ 1048576 ∧
    0 < moContrib q.entry ∧
    moContrib q.entry ≤ 4096 ∧
    16 ≤ moDv q.entry ∧
    moDv q.entry ≤ 1024 ∧
    moDv q.entry % 16 = 0 ∧
    moResult q.entry % 8 = 0 ∧
    lowestFree (s.merges.map (·.slot)) maxMerges = some slot ∧
    (allocEach (fun size s => s.allocPlain q.tenant q.comp size .accumulator false) (accFrames (moRecords q.entry * accRecord (moDv q.entry))) s = .got l s')) ∧
  (∃ (s : State), ∃ (r : _), ∃ (q : _), ∃ (dma : _), ∃ (x : _), ∃ (bs : _), ∃ (s1 : _), ∃ (s2 : _),
    s.Runs r q opMERGE_SUBMIT ∧
    0 < msCount q.entry ∧
    msSrcOffset q.entry % 8 = 0 ∧
    s.findMerge q.tenant (msId q.entry) = some x ∧
    x.dv ≠ 0 ∧
    s.source q (msSrcKey q.entry) (msSrcOffset q.entry) (msCount q.entry * accRecord x.dv) dma = .ok (some (bs, s1)) ∧
    s1.contribute q.tenant (none, r) { id := msId q.entry, contrib := msContrib q.entry, rbase := msRbase q.entry, dv := x.dv, recs := recordsOf x.dv (msCount q.entry) bs, final := true } = .ok s2) ∧
  (∃ (s : State), ∃ (r : _), ∃ (q : _), ∃ (x : _),
    s.Runs r q opMERGE_CLOSE ∧
    s.findMerge q.tenant (msId q.entry) = some x ∧
    (x.closing = none ∨ x.closing = some r)) ∧
  (∃ (s : State), ∃ (r : _), ∃ (q : _), ∃ (x : _),
    s.Runs r q opMERGE_ABORT ∧
    s.findMerge q.tenant (msId q.entry) = some x) ∧
  (∃ (s : State),
    s.coreRuns = true) :=
  ⟨⟨having mopen up, 0, mopen, 0, _, _,
     join5 (by decide +kernel) (join5 (by decide +kernel) (⟨by decide +kernel, Alloc.eq_got _ [] up (by decide +kernel)⟩))⟩,
   ⟨having msubmit merging, 0, msubmit, [], mc0, _, _, _,
     join5 (by decide +kernel) (⟨eq_ok_some_pair _ ([], up) (by decide +kernel), eq_ok _ up (by decide +kernel)⟩)⟩,
   ⟨having mclose merging, 0, mclose, mc0,
     by decide +kernel⟩,
   ⟨having mabort merging, 0, mabort, mc0,
     by decide +kernel⟩,
   ⟨merging,
     by decide +kernel⟩⟩

/-- A concrete state and operands for every clause of TouchstoneRowsComplete. -/
theorem witness_touchstoneRowsComplete :
  (∃ (s : State), ∃ (r : _), ∃ (q : _), ∃ (x : _), ∃ (g : _),
    s.Runs r q opTS_REBUILD ∧
    s.NamesSeq q x ∧
    s.geom x.tenant x.geom = some g ∧
    layersBad (apLfirst q.entry) (apLcount q.entry) g.layers = false ∧
    s.HasTurn q x.handle ∧
    x.state = .active ∧
    s.pagesFail x ((layerRun (apLfirst q.entry) (apLcount q.entry) g.layers).flatMap x.pagesOf) = none ∧
    s.swappedNeeded x ((layerRun (apLfirst q.entry) (apLcount q.entry) g.layers).flatMap x.pagesOf) = false) ∧
  (∃ (s : State), ∃ (r : _), ∃ (q : _), ∃ (x : _), ∃ (g : _), ∃ (s' : _),
    s.Runs r q opTS_READ ∧
    trDest q.entry % 64 = 0 ∧
    0 < trCount q.entry ∧
    trCount q.entry ≤ 65536 ∧
    s.NamesSeq q x ∧
    s.geom x.tenant x.geom = some g ∧
    trLayer q.entry < g.layers ∧
    trFirst q.entry + trCount q.entry ≤ x.pmax ∧
    x.state = .active ∧
    (s.pagesFail x ((List.range (trCount q.entry)).map fun i => (trLayer q.entry, trFirst q.entry + i)) = none) ∧
    (s.writeTenant q.payer (trDest q.entry) ((List.range (trCount q.entry)).flatMap fun i => s.touchOut x g (trLayer q.entry) (trFirst q.entry + i)) = .done s')) ∧
  (∃ (s : State), ∃ (n : _), ∃ (f : _), ∃ (w : _), ∃ (v : _), ∃ (ps : _), ∃ (u : _),
    s.frame n = some f ∧
    f.touch = some w ∧
    (v = (if w.bad then s else s.count 0x6000 0x21).modFrame n (fun f => { f with touch := f.touch.map fun w => { w with bad := true } })) ∧
    (v.errorRebuild n).drawMirrors = (ps, u)) ∧
  (∃ (s : State), ∃ (n : _), ∃ (f : _), ∃ (w : _), ∃ (v : _), ∃ (i : _), ∃ (v' : _), ∃ (gr : _),
    s.frame n = some f ∧
    f.touch = some w ∧
    (v = (if w.bad then s else s.count 0x6000 0x21).modFrame n (fun f => { f with touch := f.touch.map fun w => { w with bad := true } })) ∧
    (if w.block.size ≤ granule then (0, v) else v.draw (blockSpan w.block.size / granule)) = (i, v') ∧
    gr = w.block.granule + i) :=
  ⟨⟨having tsRebuild full, 0, tsRebuild, q1, g0,
     by decide +kernel⟩,
   ⟨having tsRead full, 0, tsRead, q1, g0, _,
     join5 (by decide +kernel) (join5 (by decide +kernel) (Wrote.eq_done _ up (by decide +kernel)))⟩,
   ⟨touched, 2, { f2 with touch := some { block := tsb0 } }, { block := tsb0 }, _, _, _,
     by decide +kernel, by decide +kernel, rfl, rfl⟩,
   ⟨touched, 2, { f2 with touch := some { block := tsb0 } }, { block := tsb0 }, _, _, _, _,
     by decide +kernel, by decide +kernel, rfl, rfl, rfl⟩⟩

/-- A concrete state and operands for every clause of PrefixRowsComplete. -/
theorem witness_prefixRowsComplete :
  (∃ (s : State), ∃ (r : _), ∃ (q : _), ∃ (x : _), ∃ (bank : _), ∃ (slot : _),
    s.Runs r q opPS_INSERT ∧
    s.variant.prefixUnit = true ∧
    s.NamesSeq q x ∧
    firstFail (s.insertChecks q x) = none ∧
    s.psPlace (psTag (piCkey q.entry) (piMkey q.entry)) = some (bank, slot)) ∧
  (∃ (s : State), ∃ (r : _), ∃ (q : _),
    s.Runs r q opPS_REMOVE ∧
    s.variant.prefixUnit = true ∧
    (s.ps.any (fun e => e.id == prEntry q.entry && e.tenant == q.tenant) = true)) ∧
  (∃ (s : State), ∃ (r : _), ∃ (q : _), ∃ (u : _), ∃ (bs : _), ∃ (s1 : _), ∃ (xs : _), ∃ (s2 : _),
    s.Runs r q opPS_SEARCH ∧
    s.variant.prefixUnit = true ∧
    u = (s.psForgotten q).psNote q ∧
    pqRaddr q.entry % 32 = 0 ∧
    pqQaddr q.entry % 64 = 0 ∧
    0 < pqCount q.entry ∧
    pqCount q.entry ≤ 65536 ∧
    s.xlateStatus q.tenant (pqQaddr q.entry) (64 * pqCount q.entry) .read = .ok ∧
    s.xlateStatus q.tenant (pqRaddr q.entry) (32 * pqCount q.entry) .write = .ok ∧
    u.loadTenant q.payer (pqQaddr q.entry) (64 * pqCount q.entry) = .ok (bs, s1) ∧
    xs = s.psAnswers q.id q.tenant (pqMkey q.entry) (psQueries (pqCount q.entry) bs) ∧
    (s1.writeTenant q.payer (pqRaddr q.entry) (xs.flatMap fun x => leBytes 32 (s1.psResult x)) = .done s2)) ∧
  (∃ (s : State), ∃ (r : _), ∃ (q : _),
    s.Runs r q opPS_PURGE ∧
    s.variant.prefixUnit = true) ∧
  (∃ (s : State), ∃ (r : _), ∃ (q : _), ∃ (op : _), ∃ (c : _),
    (c, op) ∈ [(Instr.psInsert r, opPS_INSERT), (.psRemove r, opPS_REMOVE), (.psSearch r, opPS_SEARCH), (.psPurge r, opPS_PURGE)] ∧
    s.Runs r q op ∧
    s.variant.prefixUnit = false) :=
  ⟨⟨having psInsert { cached with ps := [] }, 0, psInsert, q1, _, _,
     by decide +kernel, by decide +kernel, by decide +kernel, by decide +kernel, eq_some_pair _ (0, 0) (by decide +kernel)⟩,
   ⟨having psRemove cached, 0, psRemove,
     by decide +kernel⟩,
   ⟨having psSearch cached, 0, psSearch, _, _, _, _, _,
     by decide +kernel, by decide +kernel, rfl, join5 (by decide +kernel) (⟨by decide +kernel, eq_ok_pair _ ([], up) (by decide +kernel), rfl, Wrote.eq_done _ up (by decide +kernel)⟩)⟩,
   ⟨having (rq opPS_PURGE []) cached, 0, rq opPS_PURGE [],
     by decide +kernel⟩,
   ⟨having (rq opPS_PURGE []) noPrefix, 0, rq opPS_PURGE [], opPS_PURGE, .psPurge 0,
     by decide +kernel⟩⟩

def tmove (tgt hold : Nat) : Req := rq opTIER_MOVE [(192, 1), (228, tgt), (230, hold)]
def fLow : Frame := { f1 with place := .lower 0, total := 64 }
def low : State := { up with mem := { frames := [fLow], maps := [m1] } }
def held : State := { ram with objs := [(0x400009, 65536)] }
def fUp : Frame := { fLow with heat := 65535, mig := some { dest := .upper 0 0 } }
def rising : State := { up with mem := { frames := [fUp], maps := [m1] } }
def sectors : Req := { rq opNB_EXEC [] with phase := .waiting .sectors, accepted := true }
def stall0 : Stall := { id := 0, kind := .alloc, tenant := 0, key := 1, req := none, copies := 2, attempts := 0 }
def stalled (n : Nat) : State := { ram with mem := { ram.mem with stalls := [{ stall0 with attempts := n }] } }
/-- `full` with sequence 0 being preempted: its page has its run. -/
def fOut : Frame := { f2 with swapRun := some (0, 1) }
def qOut : Seq := { q1 with state := .preempting }
def goingOut : State :=
  { full with seqs := [qOut], mem := { full.mem with frames := [f1, fOut], swapArea := some (0, 0, 8192) } }
/-- The page in the swap area, and the sequence being restored. -/
def fIn : Frame := { f2 with place := .swap 0 1, total := 2 }
def qIn : Seq := { q1 with state := .restoring }
def comingIn : State :=
  { full with seqs := [qIn], mem := { full.mem with frames := [f1, fIn], swapArea := some (0, 0, 8192) } }
/-- The header of its image, with the checksum that fits. -/
def goodHdr : BitVec 512 :=
  BitVec.ofNat 512 ((0x464E494D + 2 ^ 32 + 2 * 2 ^ 128) + (crc32c (comingIn.imageRead fIn 2).1).toNat * 2 ^ 160)

theorem goodHdr_good : comingIn.imageGood fIn goodHdr = true := by
  have hd : ∀ c : BitVec 32, headerOk (BitVec.ofNat 512 ((0x464E494D + 2 ^ 32 + 2 * 2 ^ 128) + c.toNat * 2 ^ 160)).toNat 0 16384 = true ∧
      fld (BitVec.ofNat 512 ((0x464E494D + 2 ^ 32 + 2 * 2 ^ 128) + c.toNat * 2 ^ 160)) 191 160 = c.toNat ∧
      fld (BitVec.ofNat 512 ((0x464E494D + 2 ^ 32 + 2 * 2 ^ 128) + c.toNat * 2 ^ 160)) 145 128 = 2 := by
    intro c
    have hc := c.isLt
    have hs : sizeCode 16384 = 0 := by decide +kernel
    have ht : (BitVec.ofNat 512 ((0x464E494D + 2 ^ 32 + 2 * 2 ^ 128) + c.toNat * 2 ^ 160)).toNat =
        (0x464E494D + 2 ^ 32 + 2 * 2 ^ 128) + c.toNat * 2 ^ 160 := by
      rw [BitVec.toNat_ofNat, Nat.mod_eq_of_lt]
      omega
    refine ⟨?_, ?_, ?_⟩
    · rw [ht]
      unfold headerOk bits
      rw [hs]
      simp
      omega
    · unfold fld bits
      rw [ht]
      omega
    · unfold fld bits
      rw [ht]
      omega
  unfold State.imageGood goodHdr
  have h := hd (crc32c (comingIn.imageRead fIn 2).1)
  dsimp only
  rw [h.2.2, h.2.1]
  rw [Bool.and_eq_true, Bool.and_eq_true, Bool.and_eq_true]
  exact ⟨⟨⟨h.1, rfl⟩, by rw [beq_iff_eq]⟩, rfl⟩

/-- A concrete state and operands for every clause of TierRowsComplete. -/
theorem witness_tierRowsComplete :
  (∃ (s : State), ∃ (r : _), ∃ (q : _), ∃ (c : _), ∃ (tg : _),
    (c, tg) ∈ [(Instr.tierMoveUp r, [0]), (.tierMoveDown r, [1]), (.tierMoveHold r, [2, 3])] ∧
    s.Runs r q opTIER_MOVE ∧
    tmTarget q.entry ∈ tg ∧
    s.chained q (tmOrdered q.entry) = false ∧
    s.framesIn q.tenant (tmAddr q.entry) (tmLen q.entry) = [] ∧
    firstFail (s.tierChecks q []) = none ∧
    s.tablesLost q.tenant (tmAddr q.entry) (tmLen q.entry) = false ∧
    s.mapsFail (s.mapsIn q.tenant (tmAddr q.entry) (tmLen q.entry)) = none) ∧
  (∃ (s : State), ∃ (r : _), ∃ (q : _), ∃ (f : _), ∃ (s' : _),
    s.Runs r q opTIER_MOVE ∧
    tmTarget q.entry = 0 ∧
    s.chained q (tmOrdered q.entry) = false ∧
    s.framesIn q.tenant (tmAddr q.entry) (tmLen q.entry) = [f] ∧
    f.place.isLower = true ∧
    f.place.isSwap = false ∧
    f.mig = none ∧
    s.allocStalled f.num = false ∧
    tmHold q.entry = false ∧
    firstFail (s.tierChecks q []) = none ∧
    s.tablesLost q.tenant (tmAddr q.entry) (tmLen q.entry) = false ∧
    s.mapsFail (s.mapsIn q.tenant (tmAddr q.entry) (tmLen q.entry)) = none ∧
    s.startUp f (some r) false = some s') ∧
  (∃ (s : State), ∃ (r : _), ∃ (q : _), ∃ (f : _), ∃ (s' : _),
    s.Runs r q opTIER_MOVE ∧
    tmTarget q.entry = 1 ∧
    s.chained q (tmOrdered q.entry) = false ∧
    s.framesIn q.tenant (tmAddr q.entry) (tmLen q.entry) = [f] ∧
    f.place.isUpper = true ∧
    f.place.isSwap = false ∧
    f.mig = none ∧
    s.allocStalled f.num = false ∧
    f.kind ≠ .accumulator ∧
    tmHold q.entry = false ∧
    firstFail (s.tierChecks q []) = none ∧
    s.tablesLost q.tenant (tmAddr q.entry) (tmLen q.entry) = false ∧
    s.mapsFail (s.mapsIn q.tenant (tmAddr q.entry) (tmLen q.entry)) = none ∧
    (s.modFrame f.num fun f => { f with held := false }).startDown f (some r) none = some s') ∧
  (∃ (s : State), ∃ (r : _), ∃ (q : _), ∃ (f : _),
    s.Runs r q opTIER_MOVE ∧
    tmTarget q.entry = 2 ∧
    s.chained q (tmOrdered q.entry) = false ∧
    s.framesIn q.tenant (tmAddr q.entry) (tmLen q.entry) = [f] ∧
    f.place.isUpper = true ∧
    f.place.isSwap = false ∧
    f.mig = none ∧
    s.allocStalled f.num = false ∧
    tmHold q.entry = true ∧
    f.held = false ∧
    firstFail (s.tierChecks q [f]) = none ∧
    s.tablesLost q.tenant (tmAddr q.entry) (tmLen q.entry) = false ∧
    s.mapsFail (s.mapsIn q.tenant (tmAddr q.entry) (tmLen q.entry)) = none) ∧
  (∃ (s : State),
    s.coreRuns = true ∧
    s.demotionDue = true) ∧
  (∃ (s : State), ∃ (n : _), ∃ (f : _), ∃ (s' : _),
    s.frame n = some f ∧
    s.coreRuns = true ∧
    s.variant.hasLower = true ∧
    s.migShare ≠ 0 ∧
    f.place.isLower = true ∧
    f.mig = none ∧
    f.swapRun = none ∧
    s.promoteHeat ≤ f.heat ∧
    s.allocStalled n = false ∧
    s.upperAtLeast s.highWm = true ∧
    s.startUp f none false = some s') ∧
  (∃ (s : State), ∃ (n : _), ∃ (f : _), ∃ (m : _),
    s.frame n = some f ∧
    f.mig = some m ∧
    m.reloc = false ∧
    s.allocStalled n = false ∧
    f.place.isSwap = false ∧
    (s.atLower (fun j => j.item == .frame n && !s.ltStale j) = false) ∧
    (m.moved = true ∨ m.dirty = [] ∨ copyPasses < m.passes) ∧
    (m.moved = true ∨ s.switchFits f m = true)) ∧
  (∃ (s : State), ∃ (n : _), ∃ (f : _), ∃ (m : _),
    s.frame n = some f ∧
    f.mig = some m ∧
    m.reloc = false ∧
    s.allocStalled n = false ∧
    f.place.isSwap = false ∧
    (s.atLower (fun j => j.item == .frame n && !s.ltStale j) = false) ∧
    m.moved = false ∧
    m.dirty ≠ [] ∧
    m.passes ≤ copyPasses) ∧
  (∃ (s : State), ∃ (n : _), ∃ (f : _), ∃ (off : _), ∃ (bs : _), ∃ (s' : _),
    s.frame n = some f ∧
    f.place.isLower = true ∧
    off + bs.length ≤ f.size ∧
    s.meetsLoss n off bs.length = false ∧
    s.writeFrame n off bs = some s') ∧
  (∃ (s : State), ∃ (n : _), ∃ (f : _), ∃ (s' : _),
    s.frame n = some f ∧
    compactDue f = true ∧
    f.mig = none ∧
    s.allocStalled n = false ∧
    s.compact n = some s') :=
  ⟨⟨having (tmove 0 0) up, 0, tmove 0 0, .tierMoveUp 0, [0],
     by decide +kernel⟩,
   ⟨having { tmove 0 0 with lower := true } low, 0, { tmove 0 0 with lower := true }, fLow, _,
     join5 (by decide +kernel) (join5 (by decide +kernel) (⟨by decide +kernel, by decide +kernel, eq_some _ up (by decide +kernel)⟩))⟩,
   ⟨having (tmove 1 0) ram, 0, tmove 1 0, f1, _,
     join5 (by decide +kernel) (join5 (by decide +kernel) (⟨by decide +kernel, by decide +kernel, by decide +kernel, eq_some _ up (by decide +kernel)⟩))⟩,
   ⟨having (tmove 2 1) held, 0, tmove 2 1, f1,
     by decide +kernel⟩,
   ⟨{ ram with objs := [(0x340001, 100)] },
     by decide +kernel⟩,
   ⟨{ low with mem := { low.mem with frames := [{ fLow with heat := 65535 }] } }, 1, { fLow with heat := 65535 }, _,
     join5 (by decide +kernel) (join5 (by decide +kernel) (eq_some _ up (by decide +kernel)))⟩,
   ⟨rising, 1, fUp, { dest := .upper 0 0 },
     by decide +kernel⟩,
   ⟨{ rising with mem := { rising.mem with frames := [{ fLow with mig := some { dest := .upper 0 0, dirty := [0] } }] } }, 1, { fLow with mig := some { dest := .upper 0 0, dirty := [0] } }, { dest := .upper 0 0, dirty := [0] },
     by decide +kernel⟩,
   ⟨low, 1, fLow, 0, [0], _,
     by decide +kernel, by decide +kernel, by decide +kernel, by decide +kernel, eq_some _ up (by decide +kernel)⟩,
   ⟨{ low with mem := { low.mem with frames := [{ fLow with dead := 32 }] } }, 1, { fLow with dead := 32 }, _,
     by decide +kernel, by decide +kernel, by decide +kernel, by decide +kernel, eq_some _ up (by decide +kernel)⟩⟩

/-- A concrete state and operands for every clause of TierWaitsComplete. -/
theorem witness_tierWaitsComplete :
  (∃ (s : State), ∃ (r : _), ∃ (q : _),
    s.req r = some q ∧
    q.phase = .waiting .sectors) ∧
  (∃ (s : State), ∃ (u : _), ∃ (v : _), ∃ (a : _), ∃ (l : _),
    s.eng.stores = a :: l ∧
    u = { s with eng := { s.eng with stores := [] } } ∧
    v = (u.serveLine a).endHostWalk a) ∧
  (∃ (s : State), ∃ (r : _), ∃ (q : _),
    s.req r = some q ∧
    s.coreRuns = true ∧
    s.variant.hasLower = true ∧
    q.live = true ∧
    s.readsLower q = true) ∧
  (∃ (s : State), ∃ (ld : _),
    s.coreRuns = true ∧
    s.linkCarries ld = true) ∧
  (∃ (s : State),
    s.coreRuns = true) ∧
  (∃ (s : State), ∃ (i : _), ∃ (x : _),
    s.mem.stalls.find? (·.id == i) = some x) ∧
  (∃ (s : State), ∃ (i : _), ∃ (x : _),
    s.mem.stalls.find? (·.id == i) = some x ∧
    x.attempts + 1 < privPasses * x.copies) ∧
  (∃ (s : State), ∃ (i : _), ∃ (x : _),
    s.mem.stalls.find? (·.id == i) = some x ∧
    privPasses * x.copies ≤ x.attempts + 1) :=
  ⟨⟨having sectors up, 0, sectors,
     by decide +kernel⟩,
   ⟨{ up with eng := { up.eng with stores := [{ ld := 0, tenant := 0, dpa := 0, addr := 0, frame := 1, line := 0, write := some 0 }] } }, _, _, _, _,
     rfl, rfl, rfl⟩,
   ⟨having (rq opNB_EXEC []) up, 0, rq opNB_EXEC [],
     by decide +kernel⟩,
   ⟨up, 0,
     by decide +kernel⟩,
   ⟨up,
     by decide +kernel⟩,
   ⟨stalled 0, 0, stall0,
     by decide +kernel⟩,
   ⟨stalled 0, 0, stall0,
     by decide +kernel⟩,
   ⟨stalled 7, 0, { stall0 with attempts := 7 },
     by decide +kernel⟩⟩

/-- A concrete state and operands for every clause of SwapRowsComplete. -/
theorem witness_swapRowsComplete :
  (∃ (s : State), ∃ (n : _), ∃ (f : _), ∃ (q : _), ∃ (l : _), ∃ (p : _), ∃ (a : _), ∃ (k : _), ∃ (s' : _),
    s.frame n = some f ∧
    s.ownerOf n = some (q, l, p) ∧
    f.swapRun = some (a, k) ∧
    f.place.isSwap = false ∧
    q.state = .preempting ∧
    s.entriesStalled f = false ∧
    (s' = (s.frameOut f q.idx a k).modSeq q.idx (fun q => { q with moved := q.moved + 1 }))) ∧
  (∃ (s : State), ∃ (n : _), ∃ (f : _), ∃ (q : _), ∃ (l : _), ∃ (p : _),
    s.frame n = some f ∧
    s.ownerOf n = some (q, l, p) ∧
    f.swapRun.isSome = true ∧
    f.place.isSwap = false ∧
    q.state = .preempting) ∧
  (∃ (s : State), ∃ (n : _), ∃ (f : _), ∃ (q : _), ∃ (l : _), ∃ (p : _), ∃ (hdr : _),
    s.frame n = some f ∧
    s.ownerOf n = some (q, l, p) ∧
    s.coreRuns = true ∧
    f.place.isSwap = true ∧
    s.readingBack q = true ∧
    s.entriesStalled f = false ∧
    s.imageGood f hdr = true) ∧
  (∃ (s : State), ∃ (n : _), ∃ (f : _), ∃ (q : _), ∃ (l : _), ∃ (p : _),
    s.frame n = some f ∧
    s.ownerOf n = some (q, l, p) ∧
    s.coreRuns = true ∧
    f.place.isSwap = true ∧
    s.readingBack q = true ∧
    s.entriesStalled f = false) ∧
  (∃ (s : State), ∃ (n : _), ∃ (f : _), ∃ (q : _), ∃ (l : _), ∃ (p : _),
    s.frame n = some f ∧
    s.ownerOf n = some (q, l, p) ∧
    f.place.isSwap = true ∧
    s.readingBack q = true) :=
  ⟨⟨goingOut, 2, fOut, qOut, 0, 0, 0, 1, _,
     join5 (by decide +kernel) (⟨by decide +kernel, rfl⟩)⟩,
   ⟨goingOut, 2, fOut, qOut, 0, 0,
     by decide +kernel⟩,
   ⟨comingIn, 2, fIn, qIn, 0, 0, goodHdr,
     join5 (by decide +kernel) (⟨by decide +kernel, goodHdr_good⟩)⟩,
   ⟨comingIn, 2, fIn, qIn, 0, 0,
     by decide +kernel⟩,
   ⟨comingIn, 2, fIn, qIn, 0, 0,
     by decide +kernel⟩⟩

def pReq : Packet := pk { cls := .req, type := 1, payload := [1, 2], mlen := 2 }
def pMerge : Packet := pk { cls := .req, type := 2, payload := [1, 2], mlen := 2 }
/-- A READ of 2 bytes into region 0, whose message has left. -/
def rop : RemoteOp := { conn := 1, reqId := 7, space := 2 }
def rread : Req := { rq opREAD [] with phase := .waiting .remote, accepted := true, remote := some rop }
def reading : State := having rread (linked [c0] up)
def pData : Packet := pk { cls := .rsp, type := 1, payload := [1, 2], reqId := 7, mlen := 2 }
def pEnd : Packet := pk { cls := .rsp, type := 2, payload := List.replicate 32 0, reqId := 7, mlen := 32 }
def pMiss : Packet := pk { cls := .rsp, type := 2, reqId := 7, offset := 0xFFFFFFFF }
def outPkt : OutPkt := { psn := 0, req := some 0, path := 0, sent := true, pkt := {} }
def cOut : Conn := { c0 with sreq := { next := 1, outs := [outPkt] } }
def pSack : Packet := pk { cls := .ack, type := 1, payload := List.replicate 96 0 }
def pAsk : Packet := pk { cls := .ack, type := 2, payload := [0, 0, 0, 8] }
def pFence : Packet := pk { cls := .ack, type := 3 }
def pComp : Packet := pk { cls := .ack, type := 4 }
def pKeep : Packet := pk { cls := .mgt, type := 1, payload := List.replicate 12 0 }
def pSetup : Packet := pk { cls := .mgt, type := 2, payload := beBytes 4 5 ++ beBytes 4 1 ++ List.replicate 12 0 ++ beBytes 4 0 ++ beBytes 2 64 ++ [0] ++ [0] }
def pAccept : Packet := pk { cls := .mgt, type := 3, payload := beBytes 4 5 ++ beBytes 4 1 ++ List.replicate 12 0 ++ beBytes 4 0 ++ beBytes 2 64 ++ [0] ++ [0] }
def cSetup : Conn := { c0 with state := .setupSent, setupId := 5, req := some 0, peerConn := 0 }
def pClose : Packet := pk { cls := .mgt, type := 4 }
def pReset : Packet := pk { cls := .mgt, type := 5 }
def admitting : State := { linked [] up with objs := [(0x40000E, 0), (0x50000D, 16)], fab := { (linked [] up).fab with ctxArea := some (0, 0, 4096) } }
def cQuiet : Conn := { c0 with rmerge := { unsacked := 1 } }
def outFree : OutPkt := { psn := 0, req := none, path := 0, sent := true, pkt := {} }
def cFree : Conn := { c0 with srsp := { next := 1, outs := [outFree] } }
def cAsk : Conn := { c0 with asking := true, limit := 0, sreq := { next := 1, outs := [{ outFree with sent := false }] } }
def ropB : RemoteOp := { rop with backoff := true }
def ropM : RemoteOp := { rop with resends := [0] }

/-- KA_PERIOD has passed. -/
def later : State := { linked [c0] up with clk := { up.clk with ltime := 2000000 } }

theorem pSack_good : (linked [c0] up).badFormat pSack = false := by
  have h : pSack.icrc = pSack.crc := pk_icrc _
  unfold State.badFormat
  rw [h]
  simp only [bne_self_eq_false]
  decide +kernel

/-- A concrete state and operands for every clause of ConnectionPacketsComplete. -/
theorem witness_connectionPacketsComplete :
  (∃ (s : State), ∃ (p : _), ∃ (c : _),
    s.Arrives p .req 1 ∧
    s.OnConnOf p c ∧
    (s.heardOn p c).takesReq = true ∧
    c.rreq.isDup p.psn = false ∧
    psnBelow p.psn c.grant = true) ∧
  (∃ (s : State), ∃ (p : _), ∃ (c : _),
    s.Arrives p .req 2 ∧
    s.OnConnOf p c ∧
    (s.heardOn p c).takesReq = true ∧
    c.rmerge.isDup p.psn = false ∧
    c.rmerge.beyond p.psn = false ∧
    (s.heardOn p c).mergeHeld ((s.heardOn p c).homeDie c.num) < mergeSlots) ∧
  (∃ (s : State), ∃ (p : _), ∃ (c : _), ∃ (q : _), ∃ (o : _), ∃ (u : _), ∃ (s' : _),
    s.Arrives p .rsp 1 ∧
    s.OnConnOf p c ∧
    (s.heardOn p c).takesRsp = true ∧
    c.rrsp.isDup p.psn = false ∧
    c.rrsp.beyond p.psn = false ∧
    (s.heardOn p c).awaiting c.num p.reqId = some (q, o) ∧
    (s.heardOn p c).holdsEpoch c.comp p.epoch = true ∧
    p.offset + p.payload.length ≤ o.space ∧
    (u = (s.heardOn p c).modRemote q.id (fun o => { o with rspHop := min o.rspHop p.hoplim })) ∧
    u.placeRsp q p.offset p.payload = .done s') ∧
  (∃ (s : State), ∃ (p : _), ∃ (c : _), ∃ (q : _), ∃ (o : _),
    s.Arrives p .rsp 2 ∧
    p.offset ≠ missOffset ∧
    s.OnConnOf p c ∧
    (s.heardOn p c).takesRsp = true ∧
    c.rrsp.isDup p.psn = false ∧
    c.rrsp.beyond p.psn = false ∧
    (s.heardOn p c).awaiting c.num p.reqId = some (q, o) ∧
    (s.heardOn p c).holdsEpoch c.comp p.epoch = true) ∧
  (∃ (s : State), ∃ (p : _), ∃ (c : _), ∃ (q : _), ∃ (o : _),
    s.Arrives p .rsp 2 ∧
    p.offset = missOffset ∧
    s.OnConnOf p c ∧
    (s.heardOn p c).takesRsp = true ∧
    (s.heardOn p c).awaiting c.num p.reqId = some (q, o) ∧
    (∃ x ∈ c.sreq.outs ++ c.smerge.outs, x.psn = p.psn ∧ x.req = some q.id ∧ x.sent = true)) ∧
  (∃ (s : State), ∃ (p : _), ∃ (c : _),
    s.Arrives p .ack 1 ∧
    s.OnConnOf p c ∧
    (s.heardOn p c).takesRsp = true ∧
    96 ≤ p.payload.length ∧
    (sackOf p.payload).space ≤ 2 ∧
    psnBelow (sackOf p.payload).cum (c.send (sackOf p.payload).space).cum = false ∧
    seqDist (c.send (sackOf p.payload).space).cum (sackOf p.payload).cum ≤ seqDist (c.send (sackOf p.payload).space).cum (c.send (sackOf p.payload).space).next) ∧
  (∃ (s : State), ∃ (p : _), ∃ (c : _),
    s.Arrives p .ack 2 ∧
    s.OnConnOf p c ∧
    (s.heardOn p c).takesRsp = true ∧
    beVal (p.payload.take 4) ≠ 0) ∧
  (∃ (s : State), ∃ (p : _), ∃ (c : _),
    s.Arrives p .ack 3 ∧
    s.OnConnOf p c ∧
    (s.heardOn p c).takesRsp = true) ∧
  (∃ (s : State), ∃ (p : _), ∃ (c : _),
    s.Arrives p .ack 4 ∧
    s.OnConnOf p c ∧
    (s.heardOn p c).takesRsp = true) :=
  ⟨⟨linked [c0] up, pReq, c0,
     by decide +kernel⟩,
   ⟨linked [c0] up, pMerge, c0,
     by decide +kernel⟩,
   ⟨having { rread with origin := .remote 1 0 } (linked [c0] up), pData, c0, { rread with origin := .remote 1 0 }, rop, _, _,
     join5 (by decide +kernel) (⟨by decide +kernel, by decide +kernel, by decide +kernel, rfl, Wrote.eq_done _ up (by decide +kernel)⟩)⟩,
   ⟨reading, pEnd, c0, rread, rop,
     by decide +kernel⟩,
   ⟨having rread (linked [cOut] up), pMiss, cOut, rread, rop,
     by decide +kernel⟩,
   ⟨linked [c0] up, pSack, c0,
     ⟨by decide +kernel, by decide +kernel, pSack_good, by decide +kernel⟩, by decide +kernel⟩,
   ⟨linked [c0] up, pAsk, c0,
     by decide +kernel⟩,
   ⟨linked [c0] up, pFence, c0,
     by decide +kernel⟩,
   ⟨linked [c0] up, pComp, c0,
     by decide +kernel⟩⟩

/-- A concrete state and operands for every clause of ManagementPacketsComplete. -/
theorem witness_managementPacketsComplete :
  (∃ (s : State), ∃ (p : _),
    s.Arrives p .mgt 1) ∧
  (∃ (s : State), ∃ (p : _), ∃ (k : _),
    s.Arrives p .mgt 2 ∧
    (s.heard p).accepted.fab.conns.find? (fun c => c.peer == p.src && c.setupId == (setupOf p.payload).setupId && !c.setupPkt.isEmpty) = none ∧
    (s.heard p).accepted.compById p.comp = some k ∧
    firstFail ((s.heard p).accepted.setupChecks p k ((s.heard p).accepted.tenantObj p.tenant 0xE)) = none) ∧
  (∃ (s : State), ∃ (p : _), ∃ (c : _), ∃ (r : _),
    s.Arrives p .mgt 3 ∧
    (s.heard p).accepted.conn (setupOf p.payload).initConn = some c ∧
    c.state = .setupSent ∧
    c.peer = p.src ∧
    c.setupId = (setupOf p.payload).setupId ∧
    (setupOf p.payload).status = Status.ok.code ∧
    c.req = some r) ∧
  (∃ (s : State), ∃ (p : _), ∃ (c : _),
    s.Arrives p .mgt 4 ∧
    (s.heard p).accepted.conn p.conn = some c ∧
    c.peer = p.src ∧
    c.tenant = p.tenant ∧
    c.state = .opened) ∧
  (∃ (s : State), ∃ (p : _), ∃ (c : _),
    s.Arrives p .mgt 5 ∧
    (s.heard p).accepted.fab.conns.find? (fun c => c.peer == p.src && c.tenant == p.tenant && c.peerConn == p.conn && (c.state == .opened || c.state == .draining)) = some c) ∧
  (∃ (s : State), ∃ (n : _),
    n < s.variant.ports ∧
    s.node.powered = true) :=
  ⟨⟨linked [c0] up, pKeep,
     by decide +kernel⟩,
   ⟨admitting, pSetup, comp0,
     by decide +kernel⟩,
   ⟨linked [cSetup] up, pAccept, cSetup, 0,
     by decide +kernel⟩,
   ⟨linked [c0] up, pClose, c0,
     by decide +kernel⟩,
   ⟨linked [c0] up, pReset, c0,
     by decide +kernel⟩,
   ⟨up, 7,
     by decide +kernel⟩⟩

/-- A concrete state and operands for every clause of TransportTimersComplete. -/
theorem witness_transportTimersComplete :
  (∃ (s : State), ∃ (n : _), ∃ (sp : _), ∃ (psn : _), ∃ (c : _), ∃ (o : _),
    s.conn n = some c ∧
    (c.send sp).outs.find? (fun o => o.psn == psn && o.sent) = some o ∧
    s.coreRuns = true ∧
    o.req = none ∧
    o.expiries < retryBudget) ∧
  (∃ (s : State), ∃ (r : _), ∃ (q : _), ∃ (o : _), ∃ (c : _),
    s.req r = some q ∧
    q.remote = some o ∧
    s.conn o.conn = some c ∧
    q.live = true ∧
    s.coreRuns = true ∧
    o.held = false ∧
    o.backoff = false ∧
    (∀ x ∈ c.sreq.outs ++ c.smerge.outs ++ c.loose, x.req ≠ some r) ∧
    o.retries < retryBudget) ∧
  (∃ (s : State), ∃ (n : _), ∃ (sp : _), ∃ (c : _),
    s.conn n = some c ∧
    s.coreRuns = true ∧
    c.state = .opened ∧
    0 < (c.recv sp).unsacked ∧
    sp ≠ 0) ∧
  (∃ (s : State), ∃ (n : _), ∃ (c : _),
    s.conn n = some c) ∧
  (∃ (s : State), ∃ (n : _), ∃ (c : _),
    s.conn n = some c ∧
    c.asking = true ∧
    c.creditHeld = true ∧
    s.coreRuns = true) ∧
  (∃ (s : State), ∃ (r : _), ∃ (q : _), ∃ (o : _),
    s.req r = some q ∧
    q.remote = some o ∧
    q.live = true ∧
    s.coreRuns = true ∧
    o.backoff = true) ∧
  (∃ (s : State), ∃ (r : _), ∃ (q : _), ∃ (o : _), ∃ (psn : _), ∃ (rest : _),
    s.req r = some q ∧
    q.remote = some o ∧
    q.live = true ∧
    s.coreRuns = true ∧
    o.backoff = false ∧
    o.resends = psn :: rest ∧
    o.retries < retryBudget) ∧
  (∃ (s : State), ∃ (n : _), ∃ c ∈ s.fab.conns, ∃ x ∈ c.paths,
    s.portLive n = true ∧
    c.state = .opened ∧
    x.port = n ∧
    (∀ d ∈ s.fab.conns, ∀ y ∈ d.paths, y.port = n → y.mac = x.mac → y.ip = x.ip → y.used + s.scalar 0x3210 0xE ≤ s.now)) ∧
  (∃ (s : State),
    s.fab.bankedPeers.Nodup) :=
  ⟨⟨linked [cFree] up, 1, 1, 0, cFree, outFree,
     by decide +kernel⟩,
   ⟨reading, 0, rread, rop, c0,
     by decide +kernel⟩,
   ⟨linked [cQuiet] up, 1, 2, cQuiet,
     by decide +kernel⟩,
   ⟨linked [c0] up, 1, c0,
     by decide +kernel⟩,
   ⟨linked [cAsk] up, 1, cAsk,
     by decide +kernel⟩,
   ⟨having { rread with remote := some ropB } (linked [c0] up), 0, { rread with remote := some ropB }, ropB,
     by decide +kernel⟩,
   ⟨having { rread with remote := some ropM } (linked [c0] up), 0, { rread with remote := some ropM }, ropM, 0, [],
     by decide +kernel⟩,
   ⟨later, 0, c0, by decide +kernel, { port := 0, mac := 1, ip := 0, rate := 100000 }, by decide +kernel⟩,
   ⟨up,
     by decide +kernel⟩⟩

/-- A concrete state and operands for every clause of ConnectionTimersComplete. -/
theorem witness_connectionTimersComplete :
  (∃ (s : State), ∃ (n : _), ∃ (c : _),
    s.conn n = some c ∧
    c.state = .setupSent ∧
    c.sends < maxSends) ∧
  (∃ (s : State), ∃ (n : _), ∃ (c : _),
    s.conn n = some c ∧
    c.state = .setupSent ∧
    maxSends ≤ c.sends) ∧
  (∃ (s : State), ∃ (n : _), ∃ (c : _),
    s.conn n = some c ∧
    c.state = .draining ∧
    0 < c.sends ∧
    c.sends < maxSends) ∧
  (∃ (s : State), ∃ (n : _), ∃ (c : _),
    s.conn n = some c ∧
    c.state = .draining ∧
    0 < c.sends ∧
    maxSends ≤ c.sends) ∧
  (∃ (s : State), ∃ (n : _), ∃ (c : _),
    s.conn n = some c ∧
    c.state = .reset) ∧
  (∃ (s : State), ∃ (n : _), ∃ (c : _),
    s.conn n = some c ∧
    c.state = .reset ∧
    c.sends < resetSends) ∧
  (∃ (s : State), ∃ (n : _), ∃ (u : _),
    s.node.powered = true ∧
    n < s.variant.ports ∧
    s.inService .port n = true ∧
    s.clk.fabref = true ∧
    u = s.takeSpareLane n (spareLane (s.lanesOut n) (s.port n).spareFor) ∧
    u.bankedPorts n = false ∧
    widestMode (badLanes (s.lanesOut n) (spareLane (s.lanesOut n) (s.port n).spareFor)) = 8) ∧
  (∃ (s : State), ∃ (n : _),
    s.node.powered = true ∧
    n < s.variant.ports) ∧
  (∃ (s : State), ∃ (n : _), ∃ (l : _),
    s.node.powered = true ∧
    n < s.variant.ports ∧
    l ≠ 0) :=
  ⟨⟨linked [cSetup] up, 1, cSetup,
     by decide +kernel⟩,
   ⟨linked [{ cSetup with sends := 16 }] up, 1, { cSetup with sends := 16 },
     by decide +kernel⟩,
   ⟨linked [{ c0 with state := .draining, sends := 1 }] up, 1, { c0 with state := .draining, sends := 1 },
     by decide +kernel⟩,
   ⟨linked [{ c0 with state := .draining, sends := 16 }] up, 1, { c0 with state := .draining, sends := 16 },
     by decide +kernel⟩,
   ⟨linked [{ c0 with state := .reset, sends := 3 }] up, 1, { c0 with state := .reset, sends := 3 },
     by decide +kernel⟩,
   ⟨linked [{ c0 with state := .reset, sends := 2 }] up, 1, { c0 with state := .reset, sends := 2 },
     by decide +kernel⟩,
   ⟨up, 0, _,
     by decide +kernel, by decide +kernel, by decide +kernel, by decide +kernel, rfl, by decide +kernel⟩,
   ⟨up, 7,
     by decide +kernel⟩,
   ⟨up, 7, 8,
     by decide +kernel⟩⟩

def wq0 : Wq := { num := 0, tenant := 0, comp := 0, ld := 0, base := 0, log2 := 8, cq := 0, pi := 1 }
def lds1 : List Ld := { n := 0, busMaster := true } :: (List.range 15).map fun n => { n := n + 1 }
def queued (w : Wq) : State := { up with comps := [comp0], wqs := [w], cqs := [cq0], lds := lds1 }
def wAhead : Wq := { wq0 with pi := 0 }
def fenceReq : Req := rq opFENCE []
def waitCount (n : Nat) : Req := rq opWAIT_COUNT [(192, n)]
def remAtt : Req := rq opSEQ_QUERY [(8, 1), (64, 1)]
def remReq (op : Nat) : Req := rq op [(64, 1), (32, 7), (416, 257), (384, 257), (288, 8), (192, 5)]
/-- A region over the loan frame, and its key 257. -/
def reg1 : Region :=
  { slot := 1, gen := 1, tenant := 0, base := 0, length := 4096, comp := 1, anyComp := true, host := false, remoteA := true,
    remoteW := true, remoteR := true, localW := true, localR := true }
def withRegion (s : State) : State := { s with fab := { s.fab with regions := [reg1] } }
def target : State := withRegion (linked [c0] ram)
def atTgt (op : Nat) (xs : List (Nat × Nat)) (d : List Byte) : Req :=
  { rq op ([(64, 1), (32, 7), (416, 257)] ++ xs) with origin := .remote 1 0, inlineData := d }
def tWrite : Req := atTgt opWRITE [(288, 2)] [1, 2]
def tRead : Req := atTgt opREAD [(288, 2)] []
def tImm : Req := atTgt opWRITE_IMM [] []
def tFadd : Req := atTgt opFADD [(192, 5)] []
def tCas : Req := atTgt opCAS [(192, 5)] []
def tCasNo : Req := atTgt opCAS [(192, 5), (128, 9)] []
def tCas128 : Req := atTgt opCAS128 [] (List.replicate 32 0)
def tLedger : Req := atTgt opLEDGER_QUERY [(288, 8)] []
def connecting : State := { linked [] up with objs := [(0x50000D, 16)], fab := { (linked [] up).fab with ctxArea := some (0, 0, 4096) } }
def cnReq : Req := rq opCONNECT [(128, 1), (144, 1)]
def dcReq : Req := rq opDISCONNECT [(64, 1)]
def regReq : Req := rq opREG [(352, 1), (384, 4096)]
def registering : State := { ram with objs := [(0x40000B, 8)] }
def rvReq : Req := rq opREVOKE [(128, 257)]
def inUse : Req := { rq opREAD [] with id := 1, uses := [1] }
def fetchC : Conn := { c0 with cached := false, fetching := true }
def fetching : State := { linked [fetchC] up with lds := lds1, fab := { (linked [fetchC] up).fab with ctxArea := some (0, 0, 4096) } }
def cIdle : Conn := { c0 with num := 8 }
def crowded : State := linked ({ fetchC with num := 2 } :: List.replicate 32768 cIdle) up

theorem foldl_first (k : Nat) (c : Conn) (f : Option Conn → Conn → Option Conn) (h : f (some c) c = some c) :
    (List.replicate k c).foldl f (some c) = some c := by
  induction k with
  | zero => rfl
  | succ k ih => rw [List.replicate_succ, List.foldl_cons, h, ih]

theorem crowded_cached : crowded.cachedOn 0 = 32768 := by
  unfold State.cachedOn
  have h : crowded.fab.conns = { fetchC with num := 2 } :: List.replicate 32768 cIdle := rfl
  rw [h, List.filter_cons_of_neg (by decide +kernel), List.filter_replicate_of_pos (by decide +kernel), List.length_replicate]

theorem crowded_evictable : crowded.evictable 0 = some cIdle := by
  unfold State.evictable
  have h : crowded.fab.conns = { fetchC with num := 2 } :: List.replicate 32768 cIdle := rfl
  rw [h, List.filter_cons_of_neg (by decide +kernel), List.filter_replicate_of_pos (by decide +kernel), List.replicate_succ,
    List.foldl_cons]
  exact foldl_first _ _ _ (by decide +kernel)

/-- A concrete state and operands for every clause of QueueRowsComplete. -/
theorem witness_queueRowsComplete :
  (∃ (s : State), ∃ (ld : _), ∃ (n : _), ∃ (v : _), ∃ (w : _),
    s.wq n = some w ∧
    s.node.powered = true ∧
    w.ld = ld ∧
    w.dead = false ∧
    w.piOk v = true) ∧
  (∃ (s : State), ∃ (ld : _), ∃ (n : _), ∃ (v : _), ∃ (w : _),
    s.wq n = some w ∧
    s.node.powered = true ∧
    w.ld = ld ∧
    w.dead = false ∧
    w.piOk v = false) ∧
  (∃ (s : State), ∃ (ld : _), ∃ (n : _), ∃ (v : _), ∃ (c : _),
    s.cq n = some c ∧
    s.node.powered = true ∧
    c.ld = ld ∧
    c.ciOk v = true) ∧
  (∃ (s : State), ∃ (n : _), ∃ (e : _), ∃ (w : _),
    s.wq n = some w ∧
    s.mayStart w = true ∧
    w.aborting = false ∧
    firstFail (s.headerChecks w e) = none ∧
    usesEngine e = false) ∧
  (∃ (s : State), ∃ (n : _), ∃ (e : _), ∃ (w : _), ∃ (st : Status),
    s.wq n = some w ∧
    s.mayStart w = true ∧
    w.aborting = false ∧
    firstFail (s.headerChecks w e) = some st) ∧
  (∃ (s : State), ∃ (r : _), ∃ (q : _), ∃ (st : Status), ∃ (n : _),
    s.req r = some q ∧
    q.phase = .ended st n ∧
    s.node.powered = true ∧
    s.mayReport q = true) :=
  ⟨⟨queued wAhead, 0, 0, 1, wAhead,
     by decide +kernel⟩,
   ⟨queued wq0, 0, 0, 0, wq0,
     by decide +kernel⟩,
   ⟨queued wq0, 0, 0, 0, cq0,
     by decide +kernel⟩,
   ⟨queued wq0, 0, ent opSEQ_QUERY [], wq0,
     by decide +kernel⟩,
   ⟨queued wq0, 0, ent 0xFE [], wq0, .rangeFault,
     by decide +kernel⟩,
   ⟨having { rq opSEQ_QUERY [] with phase := .ended .ok 0 } (queued wq0), 0, { rq opSEQ_QUERY [] with phase := .ended .ok 0 }, .ok, 0,
     by decide +kernel⟩⟩

/-- A concrete state and operands for every clause of QueueOrderComplete. -/
theorem witness_queueOrderComplete :
  (∃ (s : State), ∃ (r : _), ∃ (q : _),
    s.Runs r q opFENCE ∧
    s.anyLive q.after = false) ∧
  (∃ (s : State), ∃ (r : _), ∃ (q : _),
    s.Runs r q opFENCE ∧
    s.anyLive q.after = true) ∧
  (∃ (s : State), ∃ (r : _), ∃ (q : _), ∃ (w : _),
    s.Runs r q opWAIT_COUNT ∧
    s.wq (wcQueue q.entry) = some w ∧
    w.tenant = q.tenant ∧
    w.dead = false ∧
    wcN q.entry ≤ w.ended) ∧
  (∃ (s : State), ∃ (r : _), ∃ (q : _), ∃ (w : _),
    s.Runs r q opWAIT_COUNT ∧
    s.wq (wcQueue q.entry) = some w ∧
    w.tenant = q.tenant ∧
    w.dead = false ∧
    w.ended < wcN q.entry) ∧
  (∃ (s : State), ∃ (r : _), ∃ (q : _), ∃ (n : _),
    s.req r = some q ∧
    q.origin = .queue n ∧
    q.phase = .waiting .waitCount ∧
    s.coreRuns = true ∧
    wcAbort q.entry = false) :=
  ⟨⟨having fenceReq (queued wq0), 0, fenceReq,
     by decide +kernel⟩,
   ⟨{ queued wq0 with reqs := [{ rq opSEQ_QUERY [] with id := 1 }, { fenceReq with after := [1] }], nextReq := 2 }, 0, { fenceReq with after := [1] },
     by decide +kernel⟩,
   ⟨having (waitCount 0) (queued wq0), 0, waitCount 0, wq0,
     by decide +kernel⟩,
   ⟨having (waitCount 1) (queued wq0), 0, waitCount 1, wq0,
     by decide +kernel⟩,
   ⟨having { waitCount 1 with phase := .waiting .waitCount } (queued wq0), 0, { waitCount 1 with phase := .waiting .waitCount }, 0,
     by decide +kernel⟩⟩

/-- A concrete state and operands for every clause of RemoteOperationsComplete. -/
theorem witness_remoteOperationsComplete :
  (∃ (s : State), ∃ (r : _), ∃ (q : _), ∃ (n : _), ∃ (c : _),
    s.req r = some q ∧
    q.origin = .queue n ∧
    q.phase = .started ∧
    q.isLocal = false ∧
    opcodeRemoteOnly q.op = false ∧
    q.remote = none ∧
    s.coreRuns = true ∧
    s.stalled r = false ∧
    s.conn (hdrQp q.entry) = some c ∧
    q.op ≠ opATTEND ∧
    q.op ≠ opAPPEND) ∧
  (∃ (s : State), ∃ (r : _), ∃ (q : _), ∃ (n : _), ∃ (d : _), ∃ (c : _), ∃ (op : _),
    (c, op) ∈ [(Instr.write r d, opWRITE), (.read r d, opREAD), (.writeImm r d, opWRITE_IMM), (.cas128 r d, opCAS128)] ∧
    s.req r = some q ∧
    q.op = op ∧
    q.phase = .started ∧
    q.remote = none ∧
    s.coreRuns = true ∧
    s.stalled r = false ∧
    q.origin = .queue n ∧
    s.gateOpen q = true) ∧
  (∃ (s : State), ∃ (r : _), ∃ (q : _), ∃ (n : _), ∃ (c : _), ∃ (op : _),
    (c, op) ∈ [(Instr.fadd r, opFADD), (.swap r, opSWAP), (.cas r, opCAS), (.ledgerQuery r, opLEDGER_QUERY)] ∧
    s.req r = some q ∧
    q.op = op ∧
    q.phase = .started ∧
    q.remote = none ∧
    s.coreRuns = true ∧
    s.stalled r = false ∧
    q.origin = .queue n ∧
    s.gateOpen q = true) ∧
  (∃ (s : State), ∃ (u : _), ∃ (r : _), ∃ (q : _), ∃ (n : _), ∃ (psn : _), ∃ (g : _), ∃ (s1 : _), ∃ (s2 : _),
    s.AtTarget u r q opWRITE n psn ∧
    q.inlineData.length = remLen q.entry ∧
    u.holdKey q (remRkey q.entry) .remoteW (remRoff q.entry) (remLen q.entry) = .ok (g, s1) ∧
    s1.putLocal q.payer g (remRoff q.entry) q.inlineData = .done s2) ∧
  (∃ (s : State), ∃ (u : _), ∃ (r : _), ∃ (q : _), ∃ (n : _), ∃ (psn : _), ∃ (d : _), ∃ (g : _), ∃ (s1 : _), ∃ (bs : _), ∃ (s2 : _),
    s.AtTarget u r q opREAD n psn ∧
    u.holdKey q (remRkey q.entry) .remoteR (remRoff q.entry) (remLen q.entry) = .ok (g, s1) ∧
    s1.takeFrom q.payer g (remRoff q.entry) (remLen q.entry) d = .ok (some (bs, s2))) ∧
  (∃ (s : State), ∃ (u : _), ∃ (r : _), ∃ (q : _), ∃ (n : _), ∃ (psn : _),
    s.AtTarget u r q opWRITE_IMM n psn ∧
    q.inlineData = [] ∧
    remLen q.entry = 0 ∧
    q.accepted = false ∧
    u.cqHasFree (u.rcqOf q).2.1 1 = true) ∧
  (∃ (s : State), ∃ (u : _), ∃ (r : _), ∃ (q : _), ∃ (n : _), ∃ (psn : _), ∃ (op : _), ∃ (c : _), ∃ (new : _), ∃ (g : _), ∃ (s1 : _), ∃ (s2 : _), ∃ (old : _), ∃ (s3 : _), ∃ (s4 : _),
    s.AtTarget u r q op n psn ∧
    (c, op, new) ∈ [(Instr.fadd r, opFADD, (leVal old + remOpa q.entry) % 2 ^ 64), (.swap r, opSWAP, remOpa q.entry)] ∧
    u.holdKey q (remRkey q.entry) .remoteA (remRoff q.entry) 8 = .ok (g, s1) ∧
    s1.withLedger n = .got () s2 ∧
    s2.loadTenant q.payer (g.base + remRoff q.entry) 8 = .ok (old, s3) ∧
    s3.writeTenant q.payer (g.base + remRoff q.entry) (leBytes 8 new) = .done s4) ∧
  (∃ (s : State), ∃ (u : _), ∃ (r : _), ∃ (q : _), ∃ (n : _), ∃ (psn : _), ∃ (g : _), ∃ (s1 : _), ∃ (s2 : _), ∃ (old : _), ∃ (s3 : _), ∃ (s4 : _),
    s.AtTarget u r q opCAS n psn ∧
    u.holdKey q (remRkey q.entry) .remoteA (remRoff q.entry) 8 = .ok (g, s1) ∧
    s1.withLedger n = .got () s2 ∧
    s2.loadTenant q.payer (g.base + remRoff q.entry) 8 = .ok (old, s3) ∧
    leVal old = remOpb q.entry ∧
    s3.writeTenant q.payer (g.base + remRoff q.entry) (leBytes 8 (remOpa q.entry)) = .done s4) ∧
  (∃ (s : State), ∃ (u : _), ∃ (r : _), ∃ (q : _), ∃ (n : _), ∃ (psn : _), ∃ (g : _), ∃ (s1 : _), ∃ (s2 : _), ∃ (old : _), ∃ (s3 : _),
    s.AtTarget u r q opCAS n psn ∧
    u.holdKey q (remRkey q.entry) .remoteA (remRoff q.entry) 8 = .ok (g, s1) ∧
    s1.withLedger n = .got () s2 ∧
    s2.loadTenant q.payer (g.base + remRoff q.entry) 8 = .ok (old, s3) ∧
    leVal old ≠ remOpb q.entry ∧
    s3.xlateStatus q.tenant (g.base + remRoff q.entry) 8 .write = .ok) ∧
  (∃ (s : State), ∃ (u : _), ∃ (r : _), ∃ (q : _), ∃ (n : _), ∃ (psn : _), ∃ (g : _), ∃ (s1 : _), ∃ (s2 : _), ∃ (old : _), ∃ (s3 : _), ∃ (s4 : _),
    s.AtTarget u r q opCAS128 n psn ∧
    q.inlineData.length = 32 ∧
    u.holdKey q (remRkey q.entry) .remoteA (remRoff q.entry) 16 = .ok (g, s1) ∧
    s1.withLedger n = .got () s2 ∧
    s2.loadTenant q.payer (g.base + remRoff q.entry) 16 = .ok (old, s3) ∧
    old = q.inlineData.take 16 ∧
    s3.writeTenant q.payer (g.base + remRoff q.entry) (q.inlineData.drop 16) = .done s4) ∧
  (∃ (s : State), ∃ (u : _), ∃ (r : _), ∃ (q : _), ∃ (n : _), ∃ (psn : _), ∃ (g : _), ∃ (s1 : _), ∃ (bs : _), ∃ (s2 : _),
    s.AtTarget u r q opLEDGER_QUERY n psn ∧
    remLen q.entry = 8 ∧
    u.holdKey q (remRkey q.entry) .remoteA (remRoff q.entry) 8 = .ok (g, s1) ∧
    s1.loadTenant q.payer (g.base + remRoff q.entry) 8 = .ok (bs, s2)) :=
  ⟨⟨having remAtt (linked [c0] up), 0, remAtt, 0, c0,
     by decide +kernel⟩,
   ⟨having (remReq opREAD) (linked [c0] up), 0, remReq opREAD, 0, [], .read 0 [], opREAD,
     by decide +kernel⟩,
   ⟨having (remReq opFADD) (linked [c0] up), 0, remReq opFADD, 0, .fadd 0, opFADD,
     by decide +kernel⟩,
   ⟨having tWrite target, (having tWrite target).unlined tWrite, 0, tWrite, 1, 0, _, _, _,
     by decide +kernel, by decide +kernel, eq_ok_pair _ (reg1, up) (by decide +kernel), Wrote.eq_done _ up (by decide +kernel)⟩,
   ⟨having tRead target, (having tRead target).unlined tRead, 0, tRead, 1, 0, [], _, _, _, _,
     by decide +kernel, eq_ok_pair _ (reg1, up) (by decide +kernel), eq_ok_some_pair _ ([], up) (by decide +kernel)⟩,
   ⟨having tImm target, (having tImm target).unlined tImm, 0, tImm, 1, 0,
     by decide +kernel⟩,
   ⟨having tFadd target, (having tFadd target).unlined tFadd, 0, tFadd, 1, 0, opFADD, .fadd 0, 5, _, _, _, _, _, _,
     by decide +kernel, by decide +kernel, eq_ok_pair _ (reg1, up) (by decide +kernel), Alloc.eq_unit _ up (by decide +kernel), eq_ok_pair _ ([], up) (by decide +kernel), Wrote.eq_done _ up (by decide +kernel)⟩,
   ⟨having tCas target, (having tCas target).unlined tCas, 0, tCas, 1, 0, _, _, _, _, _, _,
     by decide +kernel, eq_ok_pair _ (reg1, up) (by decide +kernel), Alloc.eq_unit _ up (by decide +kernel), eq_ok_pair _ ([], up) (by decide +kernel), by decide +kernel, Wrote.eq_done _ up (by decide +kernel)⟩,
   ⟨having tCasNo target, (having tCasNo target).unlined tCasNo, 0, tCasNo, 1, 0, _, _, _, _, _,
     by decide +kernel, eq_ok_pair _ (reg1, up) (by decide +kernel), Alloc.eq_unit _ up (by decide +kernel), eq_ok_pair _ ([], up) (by decide +kernel), by decide +kernel⟩,
   ⟨having tCas128 target, (having tCas128 target).unlined tCas128, 0, tCas128, 1, 0, _, _, _, _, _, _,
     by decide +kernel, by decide +kernel, eq_ok_pair _ (reg1, up) (by decide +kernel), Alloc.eq_unit _ up (by decide +kernel), eq_ok_pair _ ([], up) (by decide +kernel), by decide +kernel, Wrote.eq_done _ up (by decide +kernel)⟩,
   ⟨having tLedger target, (having tLedger target).unlined tLedger, 0, tLedger, 1, 0, _, _, _, _,
     by decide +kernel, by decide +kernel, eq_ok_pair _ (reg1, up) (by decide +kernel), eq_ok_pair _ ([], up) (by decide +kernel)⟩⟩

/-- A concrete state and operands for every clause of ConnectAndRegionComplete. -/
theorem witness_connectAndRegionComplete :
  (∃ (s : State), ∃ (r : _), ∃ (q : _), ∃ (c : _), ∃ (n : _),
    s.Runs r q opCONNECT ∧
    firstFail (s.connectChecks q) = none ∧
    s.compById (cnComp q.entry) = some c ∧
    s.freeRun (cnRun q.entry) = some n) ∧
  (∃ (s : State), ∃ (r : _), ∃ (q : _), ∃ (c : _),
    s.Runs r q opDISCONNECT ∧
    s.conn (hdrQp q.entry) = some c ∧
    c.tenant = q.tenant ∧
    c.state = .opened) ∧
  (∃ (s : State), ∃ (r : _), ∃ (q : _), ∃ (slot : _),
    s.Runs r q opREG ∧
    firstFail (s.regChecks q) = none ∧
    lowestFree (s.fab.regions.map (·.slot)) maxRegions = some slot) ∧
  (∃ (s : State), ∃ (r : _), ∃ (q : _), ∃ (g : _),
    s.Runs r q opREVOKE ∧
    q.accepted = false ∧
    s.region (rvKey q.entry / 256) = some g ∧
    rvKey q.entry % 256 ≠ 0 ∧
    g.gen = rvKey q.entry % 256 ∧
    g.tenant = q.tenant ∧
    s.regionUses (rvKey q.entry / 256) = 0) ∧
  (∃ (s : State), ∃ (r : _), ∃ (q : _), ∃ (g : _),
    s.Runs r q opREVOKE ∧
    q.accepted = false ∧
    s.region (rvKey q.entry / 256) = some g ∧
    rvKey q.entry % 256 ≠ 0 ∧
    g.gen = rvKey q.entry % 256 ∧
    g.tenant = q.tenant ∧
    0 < s.regionUses (rvKey q.entry / 256)) ∧
  (∃ (s : State), ∃ (n : _), ∃ (c : _), ∃ (s1 : _), ∃ (u : _), ∃ (v : _),
    s.conn n = some c ∧
    c.fetching = true ∧
    s.ctxDmaOk = true ∧
    s.contextRoom (s.homeDie n) = some s1 ∧
    (u = s1.modConn n (fun c => { c with cached := true, fetching := false, lastUse := s1.now })) ∧
    (v = (u.reqs.filter fun q => q.live && q.remote.any fun o => o.held && o.conn == n).foldl (fun s q => s.launch q.id) u)) ∧
  (∃ (s : State), ∃ (d : _), ∃ (c : _),
    s.evictable d = some c ∧
    dieContexts ≤ s.cachedOn d ∧
    (s.fab.conns.any (fun c => c.fetching && s.homeDie c.num == d) = true)) :=
  ⟨⟨having cnReq connecting, 0, cnReq, comp0, 0,
     by decide +kernel⟩,
   ⟨having dcReq (linked [c0] up), 0, dcReq, c0,
     by decide +kernel⟩,
   ⟨having regReq registering, 0, regReq, 0,
     by decide +kernel⟩,
   ⟨having rvReq target, 0, rvReq, reg1,
     by decide +kernel⟩,
   ⟨{ target with reqs := [inUse, rvReq], nextReq := 2 }, 0, rvReq, reg1,
     by decide +kernel⟩,
   ⟨fetching, 1, fetchC, _, _, _,
     by decide +kernel, by decide +kernel, by decide +kernel, eq_some _ up (by decide +kernel), rfl, rfl⟩,
   ⟨crowded, 0, cIdle,
     crowded_evictable, Nat.le_of_eq crowded_cached.symm, by decide +kernel⟩⟩

def bindReq (n : Nat) : Req := rq opWIN_BIND [(387, n), (392, 1)]
def win0 : Window := { tenant := 0, slot := 0, rbase := 0, rkey := 257, qp0 := 1, nqp := 1 }
/-- Logical device 0 carries a window aperture of 1 MiB of tenant 0. -/
def windowed : State := { up with octs := [(octKey 0x3230 2 6, 8), (octKey 0x3230 2 18, 16)], fab := { up.fab with windows := [win0] } }
def wop : WinOp := { id := 3, ld := 0, tenant := 0, qp := 1, taken := true, dpa := 0, addr := 0, slot := 0, write := none }
def loan1 : Comp := { slot := 1, id := 2, tenant := 1, loan := true, exportKey := some 5 }
def lent : State := { linked [c0] up with comps := [comp0, loan1] }
def quench : Req := rq opQUENCH [(144, 2)]
def anneal : Req := rq opANNEAL [(144, 2), (391, 1), (392, 1)]
def tenant1 : Tenant := { id := 1, state := .zeroing }
def oldComp : Comp := { comp0 with oldMap := some map0 }
def hosted : State := { up with lds := [{ n := 0, decoders := [{ size := 268435456, committed := true }, {}, {}, {}] }] }
def evrec : LogRec := { log := 1, handle := 1, stamp := 0, body := .media false 0 }
def logged : State := { up with lds := [{ n := 0, log := [evrec] }] }
def ranged : State := { linked [] up with objs := [(0x323004, 1048576)] }
def createBs : List Byte := [0, 6, 0xFF, 0xFF, 0, 0, 1, 0] ++ List.replicate 24 0
def destroyBs : List Byte := [0, 0, 0, 0]
def grantBs : List Byte := 2 :: List.replicate 15 0 ++ leBytes 8 2097152
def reclaimBs : List Byte := BitVec.ofNat 8 opQUENCH :: List.replicate 63 0
def backed : State := { up with lds := [{ n := 0, background := some { op := 0xC101, arg := 0 } }] }
def bgEnded : Background := { op := 0xC101, arg := 0, status := some .ok, output := [0, 1, 0], reported := true }
def ended : State := { up with lds := [{ n := 0, background := some bgEnded }] }
def assayBs : List Byte := leBytes 4 0x464E4152 ++ [1, 1] ++ List.replicate 34 0
def pAssay : Packet := pk { cls := .mgt, type := 7, payload := assayBs }

theorem pAssay_good : (linked [c0] up).badFormat pAssay = false := by
  have h : pAssay.icrc = pAssay.crc := pk_icrc _
  unfold State.badFormat
  rw [h]
  simp only [bne_self_eq_false]
  decide +kernel

def quoting : State := { up with trust := { up.trust with quotes := [{ id := 0, route := .mgmtPort, session := 1, body := [] }] } }
def queued0 : State := { up with wqs := [{ num := 0, tenant := 0, comp := 0, ld := 0, base := 0, log2 := 8, cq := 0 }] }

/-- A concrete state and operands for every clause of WindowRowsComplete. -/
theorem witness_windowRowsComplete :
  (∃ (s : State), ∃ (r : _), ∃ (q : _),
    s.Runs r q opWIN_BIND ∧
    q.accepted = false ∧
    wbRbase q.entry % 64 = 0 ∧
    wbNqp q.entry = 0 ∧
    (∀ o ∈ s.fab.winOps, ¬ (o.tenant = q.tenant ∧ o.slot = wbSlot q.entry))) ∧
  (∃ (s : State), ∃ (r : _), ∃ (q : _),
    s.Runs r q opWIN_BIND ∧
    q.accepted = false ∧
    wbRbase q.entry % 64 = 0 ∧
    0 < wbNqp q.entry ∧
    wbNqp q.entry ≤ 16 ∧
    s.windowQps q.tenant (wbQp0 q.entry) (wbNqp q.entry) = true ∧
    (∀ o ∈ s.fab.winOps, ¬ (o.tenant = q.tenant ∧ o.slot = wbSlot q.entry))) ∧
  (∃ (s : State), ∃ (ld : _), ∃ (n : _), ∃ (a : _), ∃ (x : _), ∃ (w : _), ∃ (ap : _), ∃ (c : _), ∃ (wr : _), ∃ (ctr : _),
    (c, wr, ctr) ∈ [(Instr.windowRead ld n a, (none : Option (BitVec 512)), 0xA), (.windowWrite ld n a x, some x, 0xB)] ∧
    s.windowAperture ld n = some ap ∧
    a < ap.length ∧
    s.node.powered = true ∧
    s.coreRuns = true ∧
    s.window n (winSlot a) = some w) ∧
  (∃ (s : State), ∃ (ld : _), ∃ (n : _),
    s.node.powered = true ∧
    s.tenantLd n = ld) ∧
  (∃ (s : State), ∃ (i : _), ∃ (o : _),
    s.fab.winOps.find? (·.id == i) = some o ∧
    o.write = none ∧
    o.late = false ∧
    o.taken = true) :=
  ⟨⟨having (bindReq 0) up, 0, bindReq 0,
     by decide +kernel⟩,
   ⟨having (bindReq 1) (linked [c0] up), 0, bindReq 1,
     by decide +kernel⟩,
   ⟨windowed, 0, 0, 0, 5, win0, ⟨0, 1048576, 0, 0, 2⟩, .windowWrite 0 0 0 5, some 5, 0xB,
     by decide +kernel⟩,
   ⟨up, 0, 0,
     by decide +kernel⟩,
   ⟨{ up with fab := { up.fab with winOps := [wop] } }, 3, wop,
     by decide +kernel⟩⟩

/-- A concrete state and operands for every clause of LoanRowsComplete. -/
theorem witness_loanRowsComplete :
  (∃ (s : State), ∃ (r : _), ∃ (q : _), ∃ (c : _),
    s.Runs r q opQUENCH ∧
    firstFail (s.reclaimChecks q) = none ∧
    s.loanComp q.entry = some c) ∧
  (∃ (s : State), ∃ (r : _), ∃ (q : _), ∃ (c : _),
    s.Runs r q opANNEAL ∧
    q.accepted = false ∧
    firstFail (s.reclaimChecks q) = none ∧
    s.loanComp q.entry = some c ∧
    firstFail (s.annealChecks q c) = none) ∧
  (∃ (s : State), ∃ (r : _), ∃ (q : _),
    s.req r = some q ∧
    q.op = opANNEAL ∧
    q.accepted = true ∧
    q.live = true ∧
    s.coreRuns = true) ∧
  (∃ (s : State), ∃ (k : _), ∃ (c : _),
    s.comp k = some c ∧
    c.state = .annealing ∧
    s.coreRuns = true) ∧
  (∃ (s : State), ∃ (n : _), ∃ (x : _),
    s.tenant n = some x ∧
    x.state = .zeroing ∧
    s.coreRuns = true) ∧
  (∃ (s : State), ∃ (k : _), ∃ (c : _),
    s.comp k = some c ∧
    s.node.powered = true ∧
    c.state = .releasing ∧
    (s.mapUses k (fun _ => true) = 0)) ∧
  (∃ (s : State), ∃ (k : _), ∃ (c : _), ∃ (m : _),
    s.comp k = some c ∧
    c.oldMap = some m ∧
    s.node.powered = true ∧
    s.oldInflight k = 0) ∧
  (∃ (s : State),
    s.node.powered = true) :=
  ⟨⟨having quench lent, 0, quench, loan1,
     by decide +kernel⟩,
   ⟨having anneal lent, 0, anneal, loan1,
     by decide +kernel⟩,
   ⟨having { anneal with phase := .waiting (.anneal 1), accepted := true } lent, 0, { anneal with phase := .waiting (.anneal 1), accepted := true },
     by decide +kernel⟩,
   ⟨{ lent with comps := [{ loan1 with state := .annealing }] }, 1, { loan1 with state := .annealing },
     by decide +kernel⟩,
   ⟨{ up with tenants := tenant1 :: up.tenants }, 1, tenant1,
     by decide +kernel⟩,
   ⟨{ lent with comps := [{ comp0 with state := .releasing }] }, 0, { comp0 with state := .releasing },
     by decide +kernel⟩,
   ⟨{ lent with comps := [oldComp] }, 0, oldComp, map0,
     by decide +kernel⟩,
   ⟨lent,
     by decide +kernel⟩⟩

/-- A concrete state and operands for every clause of CxlAccessComplete. -/
theorem witness_cxlAccessComplete :
  (∃ (s : State), ∃ (ld : _), ∃ (hpa : _), ∃ (dpa : _),
    s.linkCarries ld = true ∧
    (s.ld ld).decode hpa = some dpa) ∧
  (∃ (s : State), ∃ (ld : _), ∃ (d : _), ∃ (b : _), ∃ (n : _), ∃ (k : _), ∃ (w : _),
    s.ldPresent ld = true ∧
    d < 4 ∧
    (s.ld ld).decoderOk d b n k w = true) ∧
  (∃ (s : State), ∃ (ld : _), ∃ (d : _), ∃ (b : _), ∃ (n : _), ∃ (k : _), ∃ (w : _),
    s.ldPresent ld = true ∧
    d < 4 ∧
    (s.ld ld).decoderOk d b n k w = false ∧
    ((s.ld ld).decoders.getD d {}).committed = false) :=
  ⟨⟨hosted, 0, 0, 0,
     by decide +kernel⟩,
   ⟨up, 0, 0, 0, 268435456, 0, 1,
     by decide +kernel⟩,
   ⟨up, 0, 0, 0, 268435456, 0, 2,
     by decide +kernel⟩⟩

/-- A concrete state and operands for every clause of MailboxStandardComplete. -/
theorem witness_mailboxStandardComplete :
  (∃ (s : State), ∃ (ld : _),
    s.linkCarries ld = true) ∧
  (∃ (s : State), ∃ (ld : _),
    s.linkCarries ld = true ∧
    (s.ld ld).background = none) ∧
  (∃ (s : State), ∃ (ld : _), ∃ (b : _),
    s.linkCarries ld = true ∧
    (s.ld ld).background = some b ∧
    b.reported = false) ∧
  (∃ (s : State), ∃ (ld : _), ∃ (b : _), ∃ (st : Status),
    s.linkCarries ld = true ∧
    (s.ld ld).background = some b ∧
    b.reported = true ∧
    b.status = some st) ∧
  (∃ (s : State), ∃ (ld : _), ∃ (off : _), ∃ (n : _),
    s.linkCarries ld = true ∧
    off + n ≤ (Config.cxlPayload effectsLog mboxOpcodes).length) ∧
  (∃ (s : State), ∃ (ld : _), ∃ (k : _),
    s.linkCarries ld = true ∧
    k ≤ logDcd) ∧
  (∃ (s : State), ∃ (ld : _), ∃ (k : _), ∃ (hs : List Nat),
    s.linkCarries ld = true ∧
    k ≤ logDcd ∧
    (∀ h ∈ hs, ∃ r ∈ (s.ld ld).log, r.log = k ∧ r.handle = h)) ∧
  (∃ (s : State), ∃ (ld : _), ∃ (k : _), ∃ (e : _),
    s.linkCarries ld = true ∧
    k ≤ logDcd ∧
    e < 2048 ∧
    bit (s.targets ld) (e / 32) = true) ∧
  (∃ (s : State), ∃ (ld : _), ∃ (rs : _),
    s.linkCarries ld = true ∧
    (acceptExtents (s.goneBlocks ld) (s.ld ld).extents rs).isSome = true) ∧
  (∃ (s : State), ∃ (ld : _), ∃ (op : _),
    s.linkCarries ld = true ∧
    op ∉ mboxOpcodes) :=
  ⟨⟨up, 0,
     by decide +kernel⟩,
   ⟨up, 0,
     by decide +kernel⟩,
   ⟨backed, 0, { op := 0xC101, arg := 0 },
     by decide +kernel⟩,
   ⟨ended, 0, bgEnded, .ok,
     by decide +kernel⟩,
   ⟨up, 0, 0, 0,
     by decide +kernel, Nat.zero_le _⟩,
   ⟨up, 0, 4,
     by decide +kernel⟩,
   ⟨logged, 0, 1, [1],
     by decide +kernel⟩,
   ⟨up, 0, 4, 2047,
     by decide +kernel⟩,
   ⟨up, 0, [],
     by decide +kernel⟩,
   ⟨up, 0, 0x0500,
     by decide +kernel⟩⟩

/-- A concrete state and operands for every clause of MailboxVendorComplete. -/
theorem witness_mailboxVendorComplete :
  (∃ (s : State), ∃ (v : _), ∃ (ld : _), ∃ (p : _), ∃ (n : _),
    s.linkCarries ld = true ∧
    s.isBanked = false ∧
    p.length = 32 ∧
    v = s.mboxTake ld 0xC100 ∧
    firstFail (v.queueChecks ld (queueSpec p)) = none ∧
    v.queueNumber (queueSpec p) = some n) ∧
  (∃ (s : State), ∃ (v : _), ∃ (ld : _), ∃ (p : _), ∃ (u : _),
    s.linkCarries ld = true ∧
    s.isBanked = false ∧
    (s.ld ld).busy = false ∧
    p.length = 4 ∧
    v = s.mboxTake ld 0xC101 ∧
    firstFail (v.destroyChecks ld (queueArg p)) = none ∧
    (u = if queueArg p / 65536 = 0 then v.modWq (queueArg p) fun w => { w with stopped := true } else v)) ∧
  (∃ (s : State), ∃ (v : _), ∃ (ld : _), ∃ (p : _), ∃ (k : _),
    s.linkCarries ld = true ∧
    s.isBanked = false ∧
    p.length = 24 ∧
    k = pfield p 0 1 ∧
    areaPermitted s ld k = true ∧
    v = s.mboxTake ld 0xC200 ∧
    k ≤ 2 ∧
    pfield p 1 7 = 0 ∧
    v.areaHeld ld k = false ∧
    pfield p 8 8 % 2097152 = 0 ∧
    pfield p 16 8 % 2097152 = 0 ∧
    (areaLength k).1 ≤ pfield p 16 8 ∧
    pfield p 16 8 ≤ (areaLength k).2) ∧
  (∃ (s : State), ∃ (v : _), ∃ (ld : _), ∃ (p : _), ∃ (k : _),
    s.linkCarries ld = true ∧
    s.isBanked = false ∧
    (s.ld ld).busy = false ∧
    p.length = 4 ∧
    k = pfield p 0 1 ∧
    areaPermitted s ld k = true ∧
    v = s.mboxTake ld 0xC201 ∧
    k ≤ 2 ∧
    v.areaHeld ld k = true ∧
    (k ≠ 1 → v.areaUsed ld k = false)) ∧
  (∃ (s : State), ∃ (ld : _), ∃ (p : _),
    s.linkCarries ld = true ∧
    s.isBanked = false ∧
    (s.ld ld).busy = false ∧
    p.length = 64 ∧
    ld = s.mgmtLd ∧
    hdrOpcode (reclaimEntry p) ∈ [opQUENCH, opANNEAL] ∧
    pfield p 1 15 = 0) ∧
  (∃ (s : State), ∃ (ld : _), ∃ (b : _),
    (s.ld ld).background = some b ∧
    s.node.powered = true ∧
    b.reported = false) ∧
  (∃ (s : State), ∃ (ld : _), ∃ (f : VopFrame), ∃ (x : _),
    s.node.powered = true ∧
    s.linkCarries ld = true ∧
    s.node.recovery = false ∧
    f.payload.length = f.len ∧
    x = (s.mboxTake ld 0xC000).vop { f with route := .mailbox ld }) ∧
  (∃ (s : State), ∃ (ld : _), ∃ (f : VopFrame),
    s.linkCarries ld = true ∧
    s.node.recovery = false ∧
    f.payload.length ≠ f.len) :=
  ⟨⟨{ ranged with cqs := [cq0] }, _, 0, createBs, 0,
     by decide +kernel, by decide +kernel, by decide +kernel, rfl, by decide +kernel⟩,
   ⟨queued0, _, 0, destroyBs, _,
     by decide +kernel, by decide +kernel, by decide +kernel, by decide +kernel, rfl, by decide +kernel, rfl⟩,
   ⟨up, _, 0, grantBs, 2,
     join5 (by decide +kernel) (⟨rfl, by decide +kernel⟩)⟩,
   ⟨{ up with objs := [(0x323004, 2097152)] }, _, 0, [2, 0, 0, 0], 2,
     join5 (by decide +kernel) (⟨by decide +kernel, rfl, by decide +kernel⟩)⟩,
   ⟨up, 0, reclaimBs,
     by decide +kernel⟩,
   ⟨backed, 0, { op := 0xC101, arg := 0 },
     by decide +kernel⟩,
   ⟨up, 0, { route := .mailbox 0 }, _,
     by decide +kernel, by decide +kernel, by decide +kernel, by decide +kernel, rfl⟩,
   ⟨up, 0, { route := .mailbox 0, len := 1 },
     by decide +kernel⟩⟩

/-- A concrete state and operands for every clause of FirmwareAndAssayComplete. -/
theorem witness_firmwareAndAssayComplete :
  (∃ (s : State), ∃ (ld : _),
    s.linkCarries ld = true ∧
    ld = s.mgmtLd) ∧
  (∃ (s : State), ∃ (v : _), ∃ (ld : _), ∃ (off : _), ∃ (bs : List Byte), ∃ (u : _),
    s.linkCarries ld = true ∧
    ld = s.mgmtLd ∧
    s.activating = false ∧
    (∀ x ∈ s.mgmt.staged, x.index = 0x7100 → x.session = mailboxSession) ∧
    off + bs.length ≤ stageBytes ∧
    v = s.mboxTake ld 0x0201 ∧
    (u = ((v.modMgmt fun m => m.stage mailboxSession 0x7100 6 (bs.zipIdx.map fun x => (off + x.2, x.1))).setScalar 0x7100 stageState 1).modLd ld (fun l => { l with transfer := true }))) ∧
  (∃ (s : State), ∃ (v : _), ∃ (ld : _),
    s.linkCarries ld = true ∧
    ld = s.mgmtLd ∧
    s.activating = false ∧
    s.recalibrating = false ∧
    s.node.warmRunning = false ∧
    s.scalar 0x7100 stageState = 2 ∧
    v = s.mboxTake ld 0x0202) ∧
  (∃ (s : State), ∃ (ld : _), ∃ (i : Nat), ∃ (p : _),
    s.linkCarries ld = true ∧
    doeProtocols[i]? = some p) ∧
  (∃ (s : State), ∃ (ld : _),
    s.linkCarries ld = true) ∧
  (∃ (s : State), ∃ (n : _), ∃ (p : _), ∃ (u : _),
    s.Arrives p .mgt 7 ∧
    p.src = n ∧
    u = (s.heard p).accepted ∧
    firstFail (u.assayChecks (.pyvas n) none p.payload) = none) ∧
  (∃ (s : State), ∃ (ld : _), ∃ (bs : _),
    s.node.powered = true ∧
    s.linkCarries ld = true ∧
    firstFail (s.assayChecks (.doe ld) none bs) = none) ∧
  (∃ (s : State), ∃ (id : _), ∃ (q : _), ∃ (u : _),
    s.trust.quotes.find? (·.id == id) = some q ∧
    u = { s with trust := { s.trust with quotes := dropWhere (·.id == id) s.trust.quotes } }) :=
  ⟨⟨up, 0,
     by decide +kernel⟩,
   ⟨up, _, 0, 0, [1], _,
     join5 (by decide +kernel) (⟨rfl, rfl⟩)⟩,
   ⟨{ up with objs := [(0x710007, 2)] }, _, 0,
     join5 (by decide +kernel) (⟨by decide +kernel, rfl⟩)⟩,
   ⟨up, 0, 2, (0x1FC5, 1),
     by decide +kernel⟩,
   ⟨up, 0,
     by decide +kernel⟩,
   ⟨linked [c0] up, 1, pAssay, _,
     ⟨by decide +kernel, by decide +kernel, pAssay_good, by decide +kernel⟩, by decide +kernel, rfl, by decide +kernel⟩,
   ⟨up, 0, assayBs,
     by decide +kernel⟩,
   ⟨quoting, 0, { id := 0, route := .mgmtPort, session := 1, body := [] }, _,
     by decide +kernel, rfl⟩⟩

/-- An object of the dictionary of FN8-2X. -/
def objx (i k : Nat) : Obj := (objAt .fn8_2x i k).getD { ty := .octets 0, acc := .ro }
def ses1 : Session := { id := 1, role := 0, route := .mgmtPort, key := [7] }
/-- A frame with the tag that session 1's key gives it. -/
def sealed (f : VopFrame) : VopFrame := { f with tag := vopTag [7] true (vopCovered f) }
def inSes (f : VopFrame) : VopFrame := { f with session := 1, seq := 1, len := f.payload.length }
/-- The node with session 1 open on the management port. -/
def managed (s : State) : State := { s with mgmt := { s.mgmt with sessions := [ses1], nextId := 2 } }

theorem sealed_tag (f : VopFrame) : vopTag [7] true (vopCovered (sealed f)) = (sealed f).tag := by
  have h : vopCovered (sealed f) = vopCovered f := by unfold vopCovered sealed; rfl
  rw [h]; unfold sealed; exact Eq.refl _

theorem in_session (s : State) (f : VopFrame) (h : s.node.powered = true ∧ f.route = .mgmtPort ∧ s.routeOn .mgmtPort = true ∧ f.ver = 1 ∧
    f.op ∈ vopOps ∧ f.len ≤ vopMax ∧ bit f.flags 7 = false ∧ f.session ≠ 0 ∧ s.mgmt.sessions.find? (·.id == f.session) = some ses1 ∧
    ses1.lastSeq < f.seq) : s.InSession (sealed f) ses1 := by
  obtain ⟨h1, h2, h3, h4, h5, h6, h7, h8, h9, h10⟩ := h
  have ht := sealed_tag f
  cases f
  exact ⟨h1, h2, h3, h4, h5, h6, h7, h8, h9, rfl, ht, h10⟩

theorem eq_ok_state {α : Type} (x : Status × α) (h : x.1 = .ok) : x = (.ok, x.2) := by
  cases x; simp_all

/-- A COMMIT of 0x2100 with a staged POWER_MAX. -/
def cval : List (Nat × Byte) := [(0, 0x58), (1, 0x02)]
def committing : State := managed { up with mgmt := { up.mgmt with staged := [{ session := 1, index := 0x2100, sub := 5, val := cval }] } }
def fCommit : VopFrame := sealed (inSes { op := opCommit, index := 0x2100, payload := [0] })
def fWo : VopFrame := sealed (inSes { op := opWrite, index := 0x2006, sub := 1, payload := [1] })
def fRwc : VopFrame := sealed (inSes { op := opWrite, index := 0x2100, sub := 5, payload := [2, 0x58] })
def fBad : VopFrame := sealed (inSes { op := opWrite, index := 0x1100, sub := 3, payload := [255] })
def fRw : VopFrame := sealed (inSes { op := opWrite, index := 0x3400, sub := 1, payload := [3] })
def fRead : VopFrame := sealed (inSes { op := opRead, index := 0x2100, sub := 5 })
def fBlockRead : VopFrame := sealed (inSes { op := opBlockRead, index := 0x3240, sub := 3, offset := 4064, payload := [0, 32] })
def fBlockWrite : VopFrame := sealed (inSes { op := opBlockWrite, index := 0x3240, sub := 3, offset := 4095, payload := [1] })
def fSub (k : Nat) : VopFrame := sealed (inSes { op := opSubscribe, index := 0x2100, sub := 5, payload := beBytes 1 k ++ beBytes 8 10000000 })
def fClose : VopFrame := sealed (inSes { op := opClose })
def fHello : VopFrame := { op := opHello, len := 133, payload := List.replicate 133 0 }
def setup1 : Setup := { id := 1, role := 0, route := .mgmtPort, hello := [], reply := [] }
def settingUp : State := { up with mgmt := { up.mgmt with setups := [setup1], nextId := 2 } }
def fProof0 : VopFrame := { op := opProof, session := 1, seq := 1 }
def fProof : VopFrame := { fProof0 with tag := vopTag setup1.key true (vopCovered fProof0) }
def sub1 : Subscription := { index := 0x2100, sub := 5, interval := 10000000 }
def subscribed : State := { up with mgmt := { up.mgmt with sessions := [{ ses1 with subs := [sub1] }], nextId := 2 } }
def lentAt (c : Comp) : State := { linked [c0] up with comps := [comp0, c] }
def loan2 : Comp := { slot := 1, id := 2, tenant := 1, loan := true }
def staged2 : State := { up with objs := [(0x710007, 2)] }
def unitState (o : Oper) : State := { up with eng := { up.eng with oper := [{ cls := .core, unit := 0, oper := o }] } }
def job1 : Job := { req := 0, parts := [], tenant := 0, comp := 0, loan := false }
def pieced : State := { up with eng := { up.eng with cores := [{ n := 0, piece := some job1 }] } }
def switchingAt (failed : List (UnitClass × Nat)) : State := { up with flt := { up.flt with switching := [(.core, 0)], failed := failed } }
def recaling : State := { up with node := { up.node with phase := .banked, recal := 15 } }
def rehearsed : State := { up with objs := [(0x700001, 1), (0x700108, 1)] }
def run0 : Rehearsal := { slot := 0, kind := 1, target := 0 }
/-- The node with every package lost. -/
def full0 : State := { up with flt := { up.flt with lost := (List.range up.variant.packages).map fun k => (false, k) } }
def booting : State := { up with node := { up.node with phase := .banked }, objs := [(0x710000 + activateState, 1)] }

/-- A concrete state and operands for EventBanksComplete. -/
theorem witness_eventBanksComplete :
  (∃ (s : State), ∃ (ld : _),
    s.linkCarries ld = true) :=
  ⟨up, 0,
     by decide +kernel⟩

/-- A concrete state and operands for every clause of AttachmentPinsComplete. -/
theorem witness_attachmentPinsComplete :
  (∃ (s : State), ∃ (ld : _), ∃ (k : Nat), ∃ (v : BitVec 8), ∃ (u : _),
    s.linkCarries ld = true ∧
    bit (s.targets ld) k = true ∧
    u = s.setTarget { s.target k with curprio := v }) ∧
  (∃ (s : State), ∃ (i : _),
    s.node.powered = true ∧
    i < 2 ∧
    s.node.pins.getLsbD (pinEvin i) = false) ∧
  (∃ (s : State), ∃ (ld : _), ∃ (on : Bool), ∃ (mk : Bool), ∃ (u : _),
    s.ldPresent ld = true ∧
    (u = s.modLd ld (fun l => { l with msixOn := on, msixMask := mk }))) ∧
  (∃ (s : State), ∃ (ld : _), ∃ (i : _),
    s.ldPresent ld = true ∧
    i < 2048) ∧
  (∃ (s : State), ∃ (ld : _),
    s.ldPresent ld = true) ∧
  (∃ (s : State), ∃ (ld : _),
    s.linkCarries ld = true) ∧
  (∃ (s : State),
    s.node.powered = true ∧
    s.node.pins.getLsbD pinPerst = false) :=
  ⟨⟨up, 0, 63, 0, _,
     by decide +kernel, by decide +kernel, rfl⟩,
   ⟨up, 1,
     by decide +kernel⟩,
   ⟨up, 0, true, false, _,
     by decide +kernel, rfl⟩,
   ⟨up, 0, 2047,
     by decide +kernel⟩,
   ⟨up, 0,
     by decide +kernel⟩,
   ⟨up, 0,
     by decide +kernel⟩,
   ⟨up,
     by decide +kernel⟩⟩

/-- A concrete state and operands for ManagementCommitsComplete. -/
theorem witness_managementCommitsComplete :
  (∃ (s : State), ∃ (f : VopFrame), ∃ (x : _), ∃ (c : _), ∃ (u : _), ∃ (v : _), ∃ (r : _), ∃ (p : _),
    s.InSession f x ∧
    s.Commits f x c u ∧
    u.commitIndex f.index c = (.ok, v) ∧
    (r, p) ∈ [(Instr.tenantAdminCommit, inRun 0x4000 0x1000), (Instr.tenantLimitsCommit, inRun 0x4000 0x1000), (Instr.compositionAdminCommit, inRun 0x5000 0x400), (Instr.mapCommit, inRun 0x5000 0x400), (Instr.apertureCommit, inRun 0x3230 16), (Instr.ldConfigCommit, inRun 0x3230 17), (Instr.routesCommit, (· == 0x3300)), (Instr.unitAdminCommit, inRun 0x3000 7), (Instr.calibrationCommit, inRun 0x2000 5), (Instr.rehearsalCommit, inRun 0x7000 17), (Instr.stageCommit, (· == 0x7100)), (Instr.governorLimitsCommit, fun i => i == 0x2100 || i == 0x2102 || i == 0x2002), (Instr.vopCommit, fun _ => true)] ∧
    p f.index = true) :=
  ⟨committing, fCommit, ses1, [(5, cval)], _, _, .governorLimitsCommit, fun i => i == 0x2100 || i == 0x2102 || i == 0x2002,
     in_session _ _ (by decide +kernel), ⟨by decide +kernel, by decide +kernel, by decide +kernel, by decide +kernel, by decide +kernel, by decide +kernel, by decide +kernel, by decide +kernel, rfl⟩, eq_ok_state _ (by decide +kernel), by simp, by decide +kernel⟩

/-- A concrete state and operands for every clause of CommitEffects. -/
theorem witness_commitEffects :
  (∃ (s : State), ∃ (n : _), ∃ (c : Changes), ∃ (v : _),
    s.tenant n = none ∧
    n < 4096 ∧
    firstFail (s.tenantChecks n c) = none ∧
    c.has 2 = true ∧
    s.would c (0x4000 + n) 2 = 1 ∧
    s.isBanked = false ∧
    s.activateTenant n c = some v) ∧
  (∃ (s : State), ∃ (n : _), ∃ (c : Changes),
    s.tenant n = none ∧
    n < 4096 ∧
    firstFail (s.tenantChecks n c) = none ∧
    c.has 2 = true ∧
    s.would c (0x4000 + n) 2 = 1 ∧
    s.isBanked = false ∧
    s.activateTenant n c = none) ∧
  (∃ (s : State), ∃ (n : _), ∃ (c : Changes), ∃ (y : _),
    s.tenant n = some y ∧
    n < 4096 ∧
    y.state = .active ∧
    firstFail (s.tenantChecks n c) = none ∧
    (c.has 2 = true → s.would c (0x4000 + n) 2 ≠ 0 ∨ n ≠ 0)) ∧
  (∃ (s : State), ∃ (k : _), ∃ (c : Changes),
    s.comp k = none ∧
    k < 1024 ∧
    firstFail (s.compChecks k c true) = none ∧
    c.has 4 = true ∧
    s.would c (0x5000 + k) 4 = 1 ∧
    (s.would c (0x5000 + k) 3 = 1 → s.noRegion (s.would c (0x5000 + k) 2) = false) ∧
    s.mapDecides k c = none) ∧
  (∃ (s : State), ∃ (k : _), ∃ (c : Changes), ∃ (y : _), ∃ (u : _),
    s.comp k = some y ∧
    y.slot = k ∧
    k < 1024 ∧
    y.state = .active ∧
    y.loan = false ∧
    s.compFixed y c = true ∧
    firstFail (s.compChecks k c false) = none ∧
    s.mapDecides k c = none ∧
    u = (if c.has 6 then (s.applyChanges (0x5000 + k) (noMap c)).takeMap k (s.stagedMap (0x5000 + k) c) else s.applyChanges (0x5000 + k) (noMap c))) ∧
  (∃ (s : State), ∃ (ld : _), ∃ (c : Changes),
    ld < 16 ∧
    (s.would c (0x3230 + ld) 1 &&& s.otherTargets ld) = 0 ∧
    (∀ a ∈ aperturesIn (s.wouldBytes c (0x3230 + ld) 2 0 2048), s.apertureOk ld a = true) ∧
    noClash Aperture.clash (aperturesIn (s.wouldBytes c (0x3230 + ld) 2 0 2048)) = true) ∧
  (∃ (s : State), ∃ (k : _), ∃ (u : _), ∃ (c : Changes),
    unitClassAt k = some u ∧
    k < 11 ∧
    s.isBanked = false ∧
    s.adminBytes c u.1 = none ∧
    s.leavesNone c u.1 = false) ∧
  (∃ (s : State), ∃ (i : _), ∃ (c : Changes),
    i ∈ [0x2100, 0x2102] ∧
    s.limitsOk i c = true) ∧
  (∃ (s : State), ∃ (c : Changes), ∃ (u : _),
    u = s.applyChanges 0x7000 c) ∧
  (∃ (s : State), ∃ (c : Changes), ∃ (u : _), ∃ (bs : _),
    s.activating = false ∧
    bs = s.wouldBytes c 0x7100 6 0 (c.length 6) ∧
    u = (s.applyChanges 0x7100 c).flashWrite) :=
  ⟨⟨up, 4095, [(2, [(0, 1)])], _,
     join5 (by decide +kernel) (⟨by decide +kernel, eq_some _ up (by decide +kernel)⟩)⟩,
   ⟨full0, 4095, [(2, [(0, 1)])],
     by decide +kernel⟩,
   ⟨up, 0, [(2, [(0, 1)])], { id := 0, root := 1, buckets := List.replicate 4 {} },
     by decide +kernel⟩,
   ⟨up, 1023, [(4, [(0, 1)])],
     by decide +kernel⟩,
   ⟨linked [] { up with objs := [(0x500001, 1), (0x500004, 1)] }, 0, [(4, [(0, 0)])], comp0, _,
     join5 (by decide +kernel) (⟨by decide +kernel, by decide +kernel, by decide +kernel, rfl⟩)⟩,
   ⟨up, 15, [(1, [(0, 0)])],
     by decide +kernel⟩,
   ⟨up, 6, (.remoteEngine, 16, true), [],
     by decide +kernel⟩,
   ⟨up, 0x2100, [(5, cval)],
     by decide +kernel⟩,
   ⟨up, [(1, [(0, 1)])], _,
     rfl⟩,
   ⟨up, [(6, [(0, 1)])], _, _,
     by decide +kernel, rfl, rfl⟩⟩

/-- A concrete state and operands for every clause of ManagementWritesComplete. -/
theorem witness_managementWritesComplete :
  (∃ (s : State), ∃ (f : VopFrame), ∃ (x : _), ∃ (o : _), ∃ (v : _), ∃ (r : _), ∃ (p : _),
    s.InSession f x ∧
    s.Writes f x o ∧
    o.acc = .wo ∧
    (s.heardIn x f).heldByOther x.id f.index = false ∧
    (s.heardIn x f).writeWo .mgmtPort x.id 0 f.index f.sub f.payload = (.ok, v) ∧
    (r, p) ∈ [(Instr.quenchNow, fun i => inRun 0x5000 0x400 i && f.sub == 0xF), (Instr.exportKeyWrite, fun i => inRun 0x5000 0x400 i && f.sub == 0xE), (Instr.recalibrate, fun i => i == 0x2006 && f.sub == 1), (Instr.activate, fun i => i == 0x7100 && f.sub == 9), (Instr.rollbackCommit, fun i => i == 0x7100 && f.sub == 0xC), (Instr.bankCmd, fun i => i == 0x3010 && f.sub == 0x13), (Instr.warmReset, fun i => i == 0x3010 && f.sub == 0x14), (Instr.vopWrite, fun _ => true)] ∧
    p f.index = true) ∧
  (∃ (s : State), ∃ (f : VopFrame), ∃ (x : _), ∃ (o : _),
    s.InSession f x ∧
    s.Writes f x o ∧
    o.acc = .rwc ∧
    (s.heardIn x f).writeOk f.index f.sub 0 (o.ty.fromWire f.payload) = true ∧
    (s.heardIn x f).heldByOther x.id f.index = false) ∧
  (∃ (s : State), ∃ (f : VopFrame), ∃ (x : _), ∃ (o : _),
    s.InSession f x ∧
    s.Writes f x o ∧
    o.acc = .rwc ∧
    (s.heardIn x f).writeOk f.index f.sub 0 (o.ty.fromWire f.payload) = false) ∧
  (∃ (s : State), ∃ (f : VopFrame), ∃ (x : _), ∃ (o : _), ∃ (u : _),
    s.InSession f x ∧
    s.Writes f x o ∧
    o.acc = .rw ∧
    u = s.heardIn x f ∧
    u.heldByOther x.id f.index = false ∧
    (u.rwRange f.index f.sub).1 ≤ leVal (o.ty.fromWire f.payload) ∧
    leVal (o.ty.fromWire f.payload) ≤ (u.rwRange f.index f.sub).2) ∧
  (∃ (s : State), ∃ (k : _), ∃ (y : _),
    s.comp k = some y ∧
    y.loan = true ∧
    k < 1024) ∧
  (∃ (s : State), ∃ (k : _), ∃ (y : _), ∃ (bs : _),
    s.comp k = some y ∧
    y.loan = true ∧
    k < 1024 ∧
    beVal bs = 1) ∧
  (∃ (s : State), ∃ (bs : _), ∃ (u : _),
    1 ≤ beVal bs ∧
    beVal bs < 16 ∧
    s.scalar 0x2006 2 ≠ 1 ∧
    u = (s.endRuns.setScalar 0x2006 2 1).setScalar 0x2006 3 0) ∧
  (∃ (s : State), ∃ (bs : _),
    s.activating = false ∧
    s.recalibrating = false ∧
    s.node.warmRunning = false ∧
    s.scalar 0x7100 stageState = 2 ∧
    beVal bs = 1) ∧
  (∃ (s : State), ∃ (bs : _), ∃ (x : _),
    s.activating = false ∧
    beVal bs = 1 ∧
    x = s.slot s.trust.runningB) ∧
  (∃ (bs : List Byte),
    beVal bs = 1) ∧
  (∃ (bs : List Byte),
    beVal bs = 0) ∧
  (∃ (s : State), ∃ (bs : _),
    beVal bs = 1 ∧
    s.activating = false) :=
  ⟨⟨managed up, fWo, ses1, objx 0x2006 1, _, .recalibrate, fun i => i == 0x2006 && fWo.sub == 1,
     in_session _ _ (by decide +kernel), by decide +kernel, by decide +kernel, by decide +kernel, eq_ok_state _ (by decide +kernel), by simp, by decide +kernel⟩,
   ⟨managed up, fRwc, ses1, objx 0x2100 5,
     in_session _ _ (by decide +kernel), by decide +kernel⟩,
   ⟨managed up, fBad, ses1, objx 0x1100 3,
     in_session _ _ (by decide +kernel), by decide +kernel⟩,
   ⟨managed up, fRw, ses1, objx 0x3400 1, _,
     in_session _ _ (by decide +kernel), by decide +kernel, by decide +kernel, rfl, by decide +kernel⟩,
   ⟨lentAt loan2, 1, loan2,
     by decide +kernel⟩,
   ⟨lentAt loan2, 1, loan2, [1],
     by decide +kernel⟩,
   ⟨up, [15], _,
     by decide +kernel, by decide +kernel, by decide +kernel, rfl⟩,
   ⟨staged2, [1],
     by decide +kernel⟩,
   ⟨up, [1], _,
     by decide +kernel, by decide +kernel, rfl⟩,
   ⟨[0, 1],
     by decide +kernel⟩,
   ⟨[0],
     by decide +kernel⟩,
   ⟨up, [1],
     by decide +kernel⟩⟩

/-- A concrete state and operands for every clause of SessionRowsComplete. -/
theorem witness_sessionRowsComplete :
  (∃ (s : State), ∃ (f : VopFrame), ∃ (x : _), ∃ (o : _),
    s.InSession f x ∧
    f.op = opRead ∧
    objAt s.variant f.index f.sub = some o ∧
    s.mayRead x.role f.index = true ∧
    o.ty.bytes ≤ vopMax) ∧
  (∃ (s : State), ∃ (f : VopFrame), ∃ (x : _), ∃ (o : _), ∃ (n : _), ∃ (u : _), ∃ (all : _),
    s.InSession f x ∧
    f.op = opBlockRead ∧
    objAt s.variant f.index f.sub = some o ∧
    s.mayRead x.role f.index = true ∧
    o.ty.isOctets = true ∧
    f.payload.length = 2 ∧
    n = beVal f.payload ∧
    0 < n ∧
    n ≤ vopMax ∧
    f.offset + n ≤ o.ty.bytes ∧
    all = (s.heardIn x f).snapshot x f o ∧
    (u = (s.heardIn x f).modSession x.id (fun y => { y with snaps := keepSnaps y f (f.offset + n == o.ty.bytes) all }))) ∧
  (∃ (s : State), ∃ (f : VopFrame), ∃ (x : _), ∃ (o : _),
    s.InSession f x ∧
    f.op = opBlockWrite ∧
    x.role = 0 ∧
    objAt s.variant f.index f.sub = some o ∧
    o.ty.isOctets = true ∧
    o.acc = .rwc ∧
    f.offset + f.payload.length ≤ o.ty.bytes ∧
    objAbsent s.variant f.index f.sub = false ∧
    (s.heardIn x f).writeOk f.index f.sub f.offset f.payload = true ∧
    (s.heardIn x f).heldByOther x.id f.index = false) ∧
  (∃ (s : State), ∃ (f : VopFrame), ∃ (x : _), ∃ (o : _), ∃ (k : _), ∃ (mine : _),
    s.InSession f x ∧
    f.op = opSubscribe ∧
    objAt s.variant f.index f.sub = some o ∧
    s.mayRead x.role f.index = true ∧
    f.payload.length = 9 ∧
    k = beVal (f.payload.take 1) ∧
    (mine = (fun u : Subscription => u.index == f.index && u.sub == f.sub)) ∧
    k = 1) ∧
  (∃ (s : State), ∃ (f : VopFrame), ∃ (x : _), ∃ (o : _), ∃ (k : _), ∃ (mine : _), ∃ (w : _),
    s.InSession f x ∧
    f.op = opSubscribe ∧
    objAt s.variant f.index f.sub = some o ∧
    s.mayRead x.role f.index = true ∧
    f.payload.length = 9 ∧
    k = beVal (f.payload.take 1) ∧
    (mine = (fun u : Subscription => u.index == f.index && u.sub == f.sub)) ∧
    k = 0 ∧
    10000000 ≤ beVal (f.payload.drop 1) ∧
    beVal (f.payload.drop 1) ≤ 3600000000000 ∧
    (dropWhere mine x.subs).length < subMax ∧
    w = ({ index := f.index, sub := f.sub, interval := beVal (f.payload.drop 1), seen := (s.heardIn x f).valueFor x f.index f.sub o, last := (s.heardIn x f).valueFor x f.index f.sub o, changed := (s.heardIn x f).now } : Subscription)) ∧
  (∃ (s : State), ∃ (f : VopFrame), ∃ (x : _),
    s.InSession f x ∧
    f.op = opClose) ∧
  (∃ (s : State), ∃ (f : VopFrame), ∃ (r : _),
    s.node.powered = true ∧
    s.node.recovery = false ∧
    f.route = .mgmtPort ∧
    s.routeOn .mgmtPort = true ∧
    f.ver = 1 ∧
    f.op = opHello ∧
    f.len ≤ vopMax ∧
    bit f.flags 7 = false ∧
    f.session = 0 ∧
    f.payload.length = 133 ∧
    beVal (f.payload.take 2) < 4096 ∧
    s.roleRoute (beVal (f.payload.take 2)) .mgmtPort = true ∧
    s.mgmt.setups.length < setupMax ∧
    r = s.vopHello f) ∧
  (∃ (s : State), ∃ (f : VopFrame), ∃ (y : Setup),
    s.node.powered = true ∧
    f.route = .mgmtPort ∧
    y.route = .mgmtPort ∧
    s.routeOn .mgmtPort = true ∧
    f.ver = 1 ∧
    f.op = opProof ∧
    f.len ≤ vopMax ∧
    bit f.flags 7 = false ∧
    f.session ≠ 0 ∧
    s.mgmt.sessions.find? (·.id == f.session) = none ∧
    s.mgmt.setups.find? (·.id == f.session) = some y ∧
    vopTag y.key true (vopCovered f) = f.tag ∧
    s.mgmt.sessions.length < sessionMax) ∧
  (∃ (s : State),
    s.node.powered = true) ∧
  (∃ (s : State), ∃ (n : _),
    s.node.powered = true ∧
    s.mgmt.setups.any (·.id == n) = true) ∧
  (∃ (s : State), ∃ (n : _), ∃ (k : Nat), ∃ (x : Session), ∃ (y : Subscription), ∃ (o : _),
    s.node.powered = true ∧
    s.mgmt.sessions.find? (·.id == n) = some x ∧
    x.subs[k]? = some y ∧
    objAt s.variant y.index y.sub = some o ∧
    s.mayRead x.role y.index = true) :=
  ⟨⟨managed up, fRead, ses1, objx 0x2100 5,
     in_session _ _ (by decide +kernel), by decide +kernel⟩,
   ⟨managed up, fBlockRead, ses1, objx 0x3240 3, 32, _, _,
     in_session _ _ (by decide +kernel), join5 (by decide +kernel) (⟨by decide +kernel, by decide +kernel, by decide +kernel, by decide +kernel, rfl, rfl⟩)⟩,
   ⟨managed up, fBlockWrite, ses1, objx 0x3240 3,
     in_session _ _ (by decide +kernel), by decide +kernel⟩,
   ⟨managed up, fSub 1, ses1, objx 0x2100 5, 1, _,
     in_session _ _ (by decide +kernel), join5 (by decide +kernel) (⟨rfl, by decide +kernel⟩)⟩,
   ⟨managed up, fSub 0, ses1, objx 0x2100 5, 0, _, _,
     in_session _ _ (by decide +kernel), join5 (by decide +kernel) (⟨rfl, by decide +kernel, by decide +kernel, by decide +kernel, by decide +kernel, rfl⟩)⟩,
   ⟨managed up, fClose, ses1,
     in_session _ _ (by decide +kernel), by decide +kernel⟩,
   ⟨up, fHello, _,
     join5 (by decide +kernel) (join5 (by decide +kernel) (⟨by decide +kernel, by decide +kernel, by decide +kernel, rfl⟩))⟩,
   ⟨settingUp, fProof, setup1,
     join5 (by decide +kernel) (join5 (by decide +kernel) (⟨by decide +kernel, rfl, by decide +kernel⟩))⟩,
   ⟨up,
     by decide +kernel⟩,
   ⟨settingUp, 1,
     by decide +kernel⟩,
   ⟨subscribed, 1, 0, { ses1 with subs := [sub1] }, sub1, objx 0x2100 5,
     by decide +kernel⟩⟩

/-- A concrete state and operands for every clause of UnitRowsComplete. -/
theorem witness_unitRowsComplete :
  (∃ (s : State), ∃ (k : _), ∃ (n : _),
    s.node.powered = true ∧
    s.oper k n = .draining ∧
    s.unitEmpty k n = true) ∧
  (∃ (s : State), ∃ (k : _), ∃ (n : _),
    s.node.powered = true ∧
    s.oper k n = .draining) ∧
  (∃ (s : State), ∃ (k : _), ∃ (n : _), ∃ (u : _),
    s.node.powered = true ∧
    s.oper k n = .testing ∧
    u = s.mapRows k n) ∧
  (∃ (s : State), ∃ (k : _), ∃ (n : _), ∃ (u : _),
    s.node.powered = true ∧
    s.oper k n = .testing ∧
    u = s.switchOut k n) ∧
  (∃ (s : State), ∃ (k : _), ∃ (n : _), ∃ (j : _),
    s.pieceOn k n = some j ∧
    s.coreRuns = true) ∧
  (∃ (s : State), ∃ (k : _), ∃ (n : _), ∃ (u : _), ∃ (p : _), ∃ (ps : _),
    s.coreRuns = true ∧
    (k, n) ∈ s.flt.switching ∧
    s.atBoundary k n = true ∧
    u = { s with flt := { s.flt with switching := s.flt.switching.erase (k, n) } } ∧
    u.sparesFor k n = p :: ps) ∧
  (∃ (s : State), ∃ (k : _), ∃ (n : _), ∃ (u : _),
    s.coreRuns = true ∧
    (k, n) ∈ s.flt.switching ∧
    s.atBoundary k n = true ∧
    u = { s with flt := { s.flt with switching := s.flt.switching.erase (k, n) } } ∧
    u.sparesFor k n = []) ∧
  (∃ (s : State), ∃ (ps : List F32), ∃ (u : _), ∃ (qs : _), ∃ (p : _),
    s.node.powered = true ∧
    u = s.count 0x6000 5 s.lowTime ∧
    (qs = (List.range 11).map (fun i => if u.dieFitted i then ps.getD i 0 else 0)) ∧
    (p = leastF32 (((List.range 11).filter u.dieFitted).map fun i => qs.getD i 0))) :=
  ⟨⟨unitState .draining, .core, 0,
     by decide +kernel⟩,
   ⟨unitState .draining, .core, 0,
     by decide +kernel⟩,
   ⟨unitState .testing, .core, 0, _,
     by decide +kernel, by decide +kernel, rfl⟩,
   ⟨unitState .testing, .core, 0, _,
     by decide +kernel, by decide +kernel, rfl⟩,
   ⟨pieced, .core, 0, job1,
     by decide +kernel⟩,
   ⟨switchingAt [], .core, 0, _, 96, [97, 98, 99, 100, 101, 102, 103],
     by decide +kernel, by decide +kernel, by decide +kernel, rfl, by decide +kernel⟩,
   ⟨switchingAt ((List.range 8).map fun i => (UnitClass.core, 96 + i)), .core, 0, _,
     by decide +kernel, by decide +kernel, by decide +kernel, rfl, by decide +kernel⟩,
   ⟨up, [], _, _, _,
     by decide +kernel, rfl, rfl, rfl⟩⟩

/-- A concrete state and operands for every clause of CalibrationRowsComplete. -/
theorem witness_calibrationRowsComplete :
  (∃ (s : State), ∃ (xs : _), ∃ (failed : BitVec 4), ∃ (gs : _), ∃ (bad : _), ∃ (u : _),
    s.node.powered = true ∧
    s.node.recal ≠ 0 ∧
    s.node.phase = .banked ∧
    gs = (List.range 4).filter s.node.recal.getLsbD ∧
    bad = gs.filter failed.getLsbD ∧
    (u = (((gs.filter fun g => !failed.getLsbD g).foldl (fun s g => s.storeGroup xs g) s).setScalar 0x2006 3 (sumOf (2 ^ ·) bad)).setScalar 0x2006 2 (if bad.isEmpty then 2 else 3))) ∧
  (∃ (s : State), ∃ (i : _), ∃ (k : _), ∃ (n : _), ∃ (u : _),
    i < 16 ∧
    s.coreRuns = true ∧
    s.node.phase = .running ∧
    s.rehEnabled = true ∧
    s.slotObj i rehState = 1 ∧
    k = s.slotObj i rehKind ∧
    n = s.slotObj i rehTarget ∧
    u = { s with flt := { s.flt with dues := assocPut s.flt.dues i (s.slotDues i + 1) 0 } }) ∧
  (∃ (s : State), ∃ (i : _), ∃ (x : _),
    s.flt.rehearsals.find? (·.slot == i) = some x) ∧
  (∃ (s : State), ∃ (u : _), ∃ (v : _),
    s.node.powered = true ∧
    s.activating = true ∧
    s.node.phase = .banked ∧
    u = s.bootSlot s.idleSlot ∧
    v = s.bootSlot s.trust.runningB) ∧
  (∃ (s : State),
    s.node.powered = true ∧
    s.activating = true ∧
    s.node.phase = .banked) :=
  ⟨⟨recaling, [], 0, _, _, _,
     by decide +kernel, by decide +kernel, by decide +kernel, rfl, rfl, rfl⟩,
   ⟨rehearsed, 0, _, _, _,
     join5 (by decide +kernel) (⟨rfl, rfl, rfl⟩)⟩,
   ⟨{ up with flt := { up.flt with rehearsals := [run0] } }, 0, run0,
     by decide +kernel⟩,
   ⟨booting, _, _,
     by decide +kernel, by decide +kernel, by decide +kernel, rfl, rfl⟩,
   ⟨booting,
     by decide +kernel⟩⟩

def pkt1 : Packet := { port := 3, src := 1 }
def missing1 : State := { up with fab := { up.fab with missBuf := [pkt1] } }
def rr0 : RetireRec := { time := 0, cause := 1, tier := 0, tenant := 0, unit := 0, lines := 1, location := 0, frame := 2, address := 0 }
def fRet : Frame := { f2 with retire := [rr0] }
def retiring (f : Frame) : State := { full with mem := { full.mem with frames := [f1, f] } }
def mRel : Migration := { dest := .upper 2 0, reloc := true }
def started : State := { State.reset with node := { phase := .starting } }
def inPhase (p : NodePhase) : State := { up with node := { up.node with phase := p } }
def pinned (i : Nat) : State := { up with node := { up.node with pins := putBit 0 i true } }
def hot : State := { up with node := { up.node with phase := .banked, causes := putBit 0 causeThermal true } }
def crit : State := { up with node := { up.node with critHold := true } }
def noRef : State := { up with clk := { up.clk with fabref := false } }
def slot1 : PsSlot := { bank := 63, slot := 65535, gen := 255, tenant := 0, tag := 0, ckey := 0, mkey := 0, handle := 1, page := 0 }
def workingUnit : State :=
  { up with eng := { units := [{ n := 0, step := some { req := 0, parts := [], tenant := 0, comp := 0, loan := false } }] } }
def psGone : Req := rq opPS_REMOVE [(128, 65536)]

/-- Witness for FrameIsLeastPowerOfTwo at the ends of its range. -/
theorem witness_frameIsLeastPowerOfTwo : (∃ p, p ≤ 8388608 ∧ ∃ k, 14 ≤ k ∧ p ≤ 2 ^ k) ∧ frameBytes 8388608 = 2 ^ 23 ∧ frameBytes 1 = 2 ^ 14 :=
  ⟨⟨8388608, by decide, 23, by decide, by decide⟩, by decide, by decide⟩

/-- A concrete state and operands for every clause of FaultRowsComplete. -/
theorem witness_faultRowsComplete :
  (∃ (s : State), ∃ (n : _), ∃ (l : _), ∃ (f : _),
    s.coreRuns = true ∧
    s.frame n = some f ∧
    f.noLine l = false) ∧
  (∃ (s : State), ∃ (c : _), ∃ (g : Nat),
    s.coreRuns = true ∧
    c < s.variant.channels ∧
    (true, c, g) ∉ s.flt.retired) ∧
  (∃ (s : State), ∃ (c : _), ∃ (g : Nat),
    s.coreRuns = true ∧
    c < s.variant.packages ∧
    (false, c, g) ∉ s.flt.retired) ∧
  (∃ (s : State),
    s.coreRuns = true) ∧
  (∃ (s : State), ∃ (p : _), ∃ (x : _),
    s.coreRuns = true ∧
    s.fab.missBuf.find? (·.port == p) = some x) ∧
  (∃ (s : State), ∃ (c : _),
    s.coreRuns = true ∧
    c < s.variant.channels) ∧
  (∃ (s : State), ∃ (c : _),
    s.coreRuns = true ∧
    c < s.variant.packages) ∧
  (∃ (s : State), ∃ (up : Bool), ∃ (c : _),
    s.node.powered = true ∧
    c < (if up then s.variant.channels else s.variant.packages)) ∧
  (∃ (s : State), ∃ (up : Bool), ∃ (c : _),
    s.coreRuns = true ∧
    c < (if up then s.variant.channels else s.variant.packages) ∧
    s.burnWaits up c = true) ∧
  (∃ (s : State), ∃ (up : Bool), ∃ (c : _), ∃ (b : _), ∃ (loc : _), ∃ (u : _),
    s.coreRuns = true ∧
    c < (if up then s.variant.channels else s.variant.packages) ∧
    s.burnWaits up c = false ∧
    b = s.burn up c ∧
    loc = b.pos / burnSpan up ∧
    u = (if b.pos % burnSpan up = 0 then { s with flt := { s.flt with ce := dropWhere (ceKey up c loc) s.flt.ce } } else s).burnNext b) ∧
  (∃ (s : State), ∃ (n : _), ∃ (f : _),
    s.frame n = some f ∧
    s.coreRuns = true ∧
    f.retire ≠ [] ∧
    s.allocStalled n = false ∧
    f.place.isSwap = true) ∧
  (∃ (s : State), ∃ (n : _), ∃ (f : _),
    s.frame n = some f ∧
    s.coreRuns = true ∧
    f.retire ≠ [] ∧
    s.allocStalled n = false ∧
    f.place.isSwap = false ∧
    f.mig = none) ∧
  (∃ (s : State), ∃ (n : _), ∃ (f : _), ∃ (m : _),
    s.frame n = some f ∧
    s.coreRuns = true ∧
    f.retire ≠ [] ∧
    s.allocStalled n = false ∧
    f.place.isSwap = false ∧
    f.mig = some m ∧
    m.reloc = true ∧
    s.walksPast f.retireTag = true) :=
  ⟨⟨ram, 1, 0, f1,
     by decide +kernel⟩,
   ⟨up, 127, 0,
     by decide +kernel⟩,
   ⟨up, 0, 0,
     by decide +kernel⟩,
   ⟨up,
     by decide +kernel⟩,
   ⟨missing1, 3, pkt1,
     by decide +kernel⟩,
   ⟨up, 0,
     by decide +kernel⟩,
   ⟨up, 0,
     by decide +kernel⟩,
   ⟨up, true, 0,
     by decide +kernel⟩,
   ⟨workingUnit, true, 0,
     by decide +kernel⟩,
   ⟨up, true, 0, _, _, _,
     by decide +kernel, by decide +kernel, by decide +kernel, rfl, rfl, rfl⟩,
   ⟨retiring { fRet with place := .swap 0 1 }, 2, { fRet with place := .swap 0 1 },
     by decide +kernel⟩,
   ⟨retiring fRet, 2, fRet,
     by decide +kernel⟩,
   ⟨retiring { fRet with mig := some mRel }, 2, { fRet with mig := some mRel }, mRel,
     by decide +kernel⟩⟩

/-- A concrete state and operands for every clause of ResetRowsComplete. -/
theorem witness_resetRowsComplete :
  (∃ (s : State), ∃ (straps : _), ∃ (u : _),
    s.node.powered = false ∧
    (u = s.flashOnly.modNode (fun n => { n with straps := straps &&& 0x1FFFF }))) ∧
  (∃ (s : State),
    s.node.powered = true ∧
    s.node.phase = .starting ∧
    s.node.ready = false) ∧
  (∃ (s : State), ∃ (u : _),
    s.node.powered = true ∧
    s.node.phase = .starting ∧
    s.node.ready = false ∧
    s.node.recovery = false ∧
    (u = (s.modNode fun n => { n with ready := true, readyTime := s.clk.ltime, phase := if s.banking then .banked else .running, coreHeld := s.banking, selfRefresh := s.banking, bankedAt := s.clk.ltime }))) ∧
  (∃ (s : State),
    s.node.powered = true ∧
    s.node.pins.getLsbD pinNodeRst = false) ∧
  (∃ (s : State), ∃ (u : _),
    s.node.powered = true ∧
    s.node.pins.getLsbD pinNodeRst = true ∧
    u = s.setPin pinNodeRst false) ∧
  (∃ (s : State),
    s.node.powered = true ∧
    s.node.phase = .running ∧
    s.banking = true) ∧
  (∃ (s : State),
    s.node.powered = true ∧
    s.node.phase = .entering) ∧
  (∃ (s : State),
    s.node.powered = true ∧
    s.node.phase = .exiting) :=
  ⟨⟨{ up with node := { up.node with powered := false } }, 0x1FFFF, _,
     by decide +kernel, rfl⟩,
   ⟨started,
     by decide +kernel⟩,
   ⟨started, _,
     by decide +kernel, by decide +kernel, by decide +kernel, by decide +kernel, rfl⟩,
   ⟨up,
     by decide +kernel⟩,
   ⟨pinned pinNodeRst, _,
     by decide +kernel, by decide +kernel, rfl⟩,
   ⟨{ inPhase .running with node := { (inPhase .running).node with causes := 1 } },
     by decide +kernel⟩,
   ⟨inPhase .entering,
     by decide +kernel⟩,
   ⟨inPhase .exiting,
     by decide +kernel⟩⟩

/-- A concrete state and operands for every clause of ThermalAndClockComplete. -/
theorem witness_thermalAndClockComplete :
  (∃ (s : State), ∃ (u : _),
    s.node.powered = true ∧
    u = (s.setPin pinForceHold true).setCause causeForceHold true) ∧
  (∃ (s : State), ∃ (u : _),
    s.node.powered = true ∧
    u = (s.setPin pinThermTrip true).thermalCause) ∧
  (∃ (s : State), ∃ (u : _),
    s.node.powered = true ∧
    u = s.setPin pinThermTrip false) ∧
  (∃ (s : State), ∃ (u : _),
    s.node.powered = true ∧
    s.node.pins.getLsbD pinThermTrip = false ∧
    s.causeSet causeThermal = true ∧
    s.allResumed = true ∧
    u = ({ s with node := { s.node with stuckDone := false } } : State).clearCause causeThermal) ∧
  (∃ (s : State),
    s.node.powered = true ∧
    s.node.pins.getLsbD pinThermTrip = true ∧
    s.node.stuckDone = false) ∧
  (∃ (s : State), ∃ (i : _), ∃ (x : _), ∃ (u : _),
    s.node.powered = true ∧
    i < 20 ∧
    s.sensorFitted i = true ∧
    u = s.setTemp i x) ∧
  (∃ (s : State),
    s.node.powered = true ∧
    s.node.critHold = true ∧
    s.allResumed = true) ∧
  (∃ (s : State), ∃ (xs : List Int), ∃ (w : _), ∃ (m : _), ∃ (u : _), ∃ (v : _), ∃ (b : _),
    s.node.powered = true ∧
    u = s.count 0x2100 8 s.throttleTime ∧
    v = { u with gov := { u.gov with temps := xs, power := w, meas := m, lastTick := u.now } } ∧
    b = govBits v.tableMv (max v.vminMv v.powerMv) (nearestMv v.vmaxMv)) ∧
  (∃ (s : State),
    s.node.powered = true ∧
    s.clk.fabref = true) ∧
  (∃ (s : State),
    s.node.powered = true ∧
    s.clk.fabref = false) ∧
  (∃ (s : State),
    s.node.powered = true ∧
    s.node.recovery = false ∧
    s.node.pins.getLsbD pinPerst = false) ∧
  (∃ (s : State), ∃ (ld : _), ∃ (off : _),
    s.linkCarries ld = true ∧
    fprioAt ≤ off ∧
    off + 8 ≤ fprioEnd) ∧
  (∃ (s : State), ∃ (ld : _), ∃ (off : _),
    s.linkCarries ld = true ∧
    (off < fprioAt ∨ fprioEnd < off + 8)) ∧
  (∃ (s : State), ∃ (ld : _), ∃ (r : HostReg),
    s.linkCarries ld = true ∧
    (∀ off, r ≠ .bar2 off)) ∧
  (∃ (s : State), ∃ (n : _),
    (s.tenant n).isSome = true ∧
    s.coreRuns = true) :=
  ⟨⟨up, _,
     by decide +kernel, rfl⟩,
   ⟨up, _,
     by decide +kernel, rfl⟩,
   ⟨up, _,
     by decide +kernel, rfl⟩,
   ⟨hot, _,
     by decide +kernel, by decide +kernel, by decide +kernel, by decide +kernel, rfl⟩,
   ⟨pinned pinThermTrip,
     by decide +kernel⟩,
   ⟨up, 0, 105000, _,
     by decide +kernel, by decide +kernel, by decide +kernel, rfl⟩,
   ⟨crit,
     by decide +kernel⟩,
   ⟨up, [], 0, 750, _, _, _,
     by decide +kernel, rfl, rfl, rfl⟩,
   ⟨up,
     by decide +kernel⟩,
   ⟨noRef,
     by decide +kernel⟩,
   ⟨up,
     by decide +kernel⟩,
   ⟨up, 0, fprioAt,
     by decide +kernel⟩,
   ⟨up, 0, 0,
     by decide +kernel⟩,
   ⟨up, 0, .aerMask,
     by decide +kernel, by intro off; simp⟩,
   ⟨up, 0,
     by decide +kernel⟩⟩

/-- A concrete state and operands for LocalCounterAdvances. -/
theorem witness_localCounterAdvances :
  (∃ (s : State),
    s.pending = [] ∧
    s.node.powered = true ∧
    s.clk.frac < 5) :=
  ⟨{ up with clk := { up.clk with frac := 4 } },
     by decide +kernel⟩

/-- A concrete state and operands for ResetState. -/
theorem witness_resetState :
  (∃ (k : _),
    k < 64) :=
  ⟨63,
     by decide +kernel⟩

/-- A concrete state and operands for every clause of EpochOrder. -/
theorem witness_epochOrder :
  (∃ (a : Nat), ∃ (b : Nat),
    a < 65536 ∧
    b < 65536 ∧
    ((a : Int) - b) % 65536 = 32768) ∧
  (∃ (s : State), ∃ (k : _), ∃ (e : _), ∃ (c : _),
    s.comp k = some c ∧
    s.holdsEpoch k e = true) :=
  ⟨⟨32768, 0,
     by decide +kernel⟩,
   ⟨linked [] up, 0, 1, comp0,
     by decide +kernel⟩⟩

/-- A concrete state and operands for every clause of PrefixEntryIds. -/
theorem witness_prefixEntryIds :
  (∃ (e : PsSlot),
    e.gen < 256 ∧
    e.bank < 64 ∧
    e.slot < 65536) ∧
  (∃ (s : State), ∃ (b : _), ∃ (i : _), ∃ (g : _),
    assocGet s.gens.prefixes (b * psSlots + i) 0 = g ∧
    g < 256) ∧
  (∃ (s : State), ∃ (r : _), ∃ (q : _),
    s.Runs r q opPS_REMOVE ∧
    s.variant.prefixUnit = true ∧
    (∀ e ∈ s.ps, 0 < e.gen ∧ e.gen < 256 ∧ e.bank < 64 ∧ e.slot < 65536) ∧
    bits (prEntry q.entry) 31 24 = 0) :=
  ⟨⟨slot1,
     by decide +kernel⟩,
   ⟨up, 63, 65535, 0,
     by decide +kernel⟩,
   ⟨having psGone { up with ps := [slot1] }, 0, psGone,
     by decide +kernel⟩⟩

/-- A concrete state and operands for every clause of HandleGenerations. -/
theorem witness_handleGenerations :
  (∃ (g : _),
    g < 65535) ∧
  (∃ (h : Nat),
    h % 65536 = 0) ∧
  (∃ (s : State), ∃ (n : _), ∃ (h : _), ∃ (a : _), ∃ (x : _),
    s.findSeq n h a = some x) :=
  ⟨⟨65534,
     by decide +kernel⟩,
   ⟨65536,
     by decide +kernel⟩,
   ⟨full, 0, 1, false, q1,
     by decide +kernel⟩⟩

/-- A concrete state and operands for PagesOfASequence. -/
theorem witness_pagesOfASequence :
  (∃ (x : Seq), ∃ (f : Nat), ∃ (layers : Nat), ∃ (l : Nat), ∃ (p : Nat), ∃ (d : Nat),
    0 < f ∧
    p < x.pmax ∧
    l < layers ∧
    d < f) :=
  ⟨q0, 16384, 1, 0, 3, 16383,
     by decide +kernel⟩

def isNext {σ φ ρ : Type} : Host.Outcome σ φ ρ → Bool
  | .next _ => true
  | _ => false

def nextOf {σ φ ρ : Type} (d : σ) : Host.Outcome σ φ ρ → σ
  | .next s => s
  | _ => d

theorem eq_next {σ φ ρ : Type} (x : Host.Outcome σ φ ρ) (d : σ) (h : isNext x = true) : x = .next (nextOf d x) := by
  cases x <;> simp_all [isNext, nextOf]

/-- Source 0x100 goes to targets 0 and 1 of logical device 0, both at priority 5, with the round-robin pointer at `n`. -/
def routed (n : Nat) : State :=
  { up with
    octs := [(octKey 0x3300 1 (16 * 0x100 + 8), 3)], lds := [{ n := 0, msixOn := true }],
    ev := { up.ev with rr := [(0x100, n)], targets := [{ t := 0, curprio := 5 }, { t := 1, curprio := 5 }] } }
def pend5 : State := { up with ev := { up.ev with pend := 32 } }
def unmasked : State := { up with ev := { up.ev with mask := 0 } }
def full16 : State := { up with mgmt := { up.mgmt with sessions := (List.range 16).map fun i => { ses1 with id := i + 2 }, setups := [] } }
def setup4 : State := { up with mgmt := { up.mgmt with setups := [setup1, setup1, setup1, setup1] } }

/-- Witness for FusesBlowOneWay: a step from a state with a revoked key. -/
theorem witness_fusesBlowOneWay : ∃ s t : State, step s = .next t ∧ s.trust.keyRevoked.getLsbD 2 = true :=
  ⟨{ up with trust := { up.trust with keyRevoked := 4 } }, _, eq_next _ up (by decide +kernel), by decide +kernel⟩

/-- Witness for EventRowsFrame's first clause: a row of it. -/
theorem witness_eventRowsFrame : (∃ (s : State), s.linkCarries 0 = true ∧
    Instr.fmaskSet 0 1 ∈ [Instr.pendSet 0 63 1, .pendClr 0 63 1, .maskSet 0 63 1, .maskClr 0 63 1, .fpendSet 0 1, .fpendClr 0 1,
      .fmaskSet 0 1, .fmaskClr 0 1]) ∧ ∃ (s : State) (i : Nat), s.node.powered = true ∧ i < 2 :=
  ⟨⟨up, by decide +kernel, by decide⟩, up, 1, by decide +kernel, by decide⟩

/-- A concrete state and operands for every clause of EventsCoalesce. -/
theorem witness_eventsCoalesce :
  (∃ (s : State), ∃ (src : _),
    src < 2048 ∧
    s.pendOf src = false ∧
    s.maskOf src = true) ∧
  (∃ (s : State), ∃ (src : _),
    src < 2048 ∧
    s.pendOf src = false ∧
    s.maskOf src = false) ∧
  (∃ (s : State), ∃ (src : _),
    s.pendOf src = true) ∧
  (∃ (s : State), ∃ (src : Nat),
    src < 2048 ∧
    src ≠ srcEvin 0 ∧
    src ≠ srcEvin 1 ∧
    s.pendOf src = true) :=
  ⟨⟨up, 2047,
     by decide +kernel⟩,
   ⟨unmasked, 0,
     by decide +kernel⟩,
   ⟨pend5, 5,
     by decide +kernel⟩,
   ⟨pend5, 5,
     by decide +kernel⟩⟩

/-- A concrete state and operands for every clause of RoutingPicksLowestPriority. -/
theorem witness_routingPicksLowestPriority :
  (∃ (s : State), ∃ (src : _), ∃ (x : _), ∃ y ∈ s.candidates src,
    s.pickTarget src = some x) ∧
  (∃ (s : State), ∃ (src : _), ∃ (x : _), ∃ y ∈ s.candidates src,
    s.pickTarget src = some x ∧
    s.curprio y = s.curprio x ∧
    assocGet s.ev.rr src 0 ≤ y) ∧
  (∃ (s : State), ∃ (src : _), ∃ (x : _), ∃ y ∈ s.candidates src,
    s.pickTarget src = some x ∧
    x < assocGet s.ev.rr src 0 ∧
    s.curprio y = s.curprio x) :=
  ⟨⟨routed 0, 0x100, 0, 1, by decide +kernel,
     by decide +kernel⟩,
   ⟨routed 0, 0x100, 0, 1, by decide +kernel,
     by decide +kernel⟩,
   ⟨routed 40, 0x100, 0, 1, by decide +kernel,
     by decide +kernel⟩⟩

/-- A concrete state and operands for FrameStoreReadsBack. -/
theorem witness_frameStoreReadsBack :
  (∃ (s : State), ∃ (n : _), ∃ (off : _), ∃ (bs : _), ∃ (t : _), ∃ (f : _), ∃ (m : _), ∃ (o : _),
    Memory.wf s.mem.data = true ∧
    (s.beforeWrite n).frame n = some f ∧
    (∀ k, f.place ≠ .lower k) ∧
    s.writeFrame n off bs = some t ∧
    off + bs.length ≤ mib8 ∧
    o < mib8 ∧
    (m ≠ n ∨ o < off ∨ off + bs.length ≤ o)) :=
  ⟨ram, 1, 16380, [1, 2, 3, 4], _, f1, 1, 16379,
     by decide +kernel, by decide +kernel, by intro k; simp [f1], eq_some _ up (by decide +kernel), by decide +kernel⟩

/-- A concrete state and operands for FailedCommitChangesNothing. -/
theorem witness_failedCommitChangesNothing :
  (∃ (s : State), ∃ (i : _), ∃ (c : Changes), ∃ (st : Status), ∃ (v : _),
    s.commitIndex i c = (st, v) ∧
    st ≠ .ok ∧
    i ≠ 0x7100) :=
  ⟨up, 0x4000, [(2, [(0, 0)])], _, _,
     rfl, by decide +kernel⟩

/-- A concrete state and operands for every clause of SessionLimits. -/
theorem witness_sessionLimits :
  (∃ (s : State), ∃ (f : VopFrame),
    f.payload.length = 133 ∧
    beVal (f.payload.take 2) < 4096 ∧
    s.roleRoute (beVal (f.payload.take 2)) f.route = true ∧
    4 ≤ s.mgmt.setups.length) ∧
  (∃ (s : State), ∃ (u : Setup), ∃ (f : VopFrame),
    f.route = u.route ∧
    f.op = opProof ∧
    vopTag u.key true (vopCovered f) = f.tag ∧
    16 ≤ s.mgmt.sessions.length) ∧
  (∃ (x : Session), ∃ (f : VopFrame),
    f.route ≠ x.route) :=
  ⟨⟨setup4, fHello,
     by decide +kernel⟩,
   ⟨full16, setup1, fProof,
     by decide +kernel, by decide +kernel, rfl, by decide +kernel⟩,
   ⟨ses1, { route := .doe 0 },
     by decide +kernel⟩⟩

/-- A concrete state and operands for every clause of VcoreStaysInRange. -/
theorem witness_vcoreStaysInRange :
  (∃ (s : State), ∃ (xs : _), ∃ (w : _), ∃ (m : _), ∃ (n : _), ∃ (t : State),
    600 ≤ s.gov.vset ∧
    s.gov.vset ≤ 850 ∧
    exec (.governorTick xs w m n) s = .next t ∧
    s.node.powered = true ∧
    s.node.critHold = true ∧
    n < 3) ∧
  (∃ (vmax : Rat),
    600 ≤ vmax) ∧
  (∃ (vt : Rat),
    600 ≤ vt) :=
  ⟨⟨crit, [], 0, 750, 0, _,
     by decide +kernel, by decide +kernel, eq_next _ up (by decide +kernel), by decide +kernel⟩,
   ⟨600,
     by decide +kernel⟩,
   ⟨600,
     by decide +kernel⟩⟩

/-- A concrete state and operands for MeaningsLeaveTheQueue. -/
theorem witness_meaningsLeaveTheQueue :
  (∃ (c : _), ∃ (s : State), ∃ (t : _),
    exec c s = .next t) :=
  ⟨.fabrefLoss, up, _,
     eq_next _ up (by decide +kernel)⟩

/-- A concrete state and operands for VariantIsFixed. -/
theorem witness_variantIsFixed :
  (∃ (s : State), ∃ (t : State),
    step s = .next t) :=
  ⟨up, _,
     eq_next _ up (by decide +kernel)⟩

/-- A concrete state and operands for LocalCounterNeverRunsBack. -/
theorem witness_localCounterNeverRunsBack :
  (∃ (s : State), ∃ (t : State),
    step s = .next t ∧
    s.clk.ltime.toNat + 7 < 2 ^ 64 ∧
    (∀ v, s.pending.head? ≠ some (.pwrgoodRise v)) ∧
    s.pending.head? ≠ some .pwrgoodFall) :=
  ⟨up, _,
     eq_next _ up (by decide +kernel), by decide +kernel, by intro v; simp [up, State.reset], by decide +kernel⟩

/-- A concrete state and operands for StoresStayCanonical. -/
theorem witness_storesStayCanonical :
  (∃ (s : State), ∃ (t : State),
    s.Canonical ∧
    step s = .next t) :=
  ⟨up, _,
     ⟨by decide +kernel, by decide +kernel, by decide +kernel⟩, eq_next _ up (by decide +kernel)⟩

/-- A concrete state and operands for ManagementReadFrame. -/
theorem witness_managementReadFrame :
  (∃ (s : State), ∃ (f : VopFrame), ∃ (x : _),
    s.InSession f x ∧
    f.op = opRead) :=
  ⟨managed up, fRead, ses1,
     in_session _ _ (by decide +kernel), by decide +kernel⟩

/-! ### WellFormed: an ill-formed term for each check -/

theorem test_wf_accepts : (Instr.reqDataRx { payload := [1], len := 1 }).wf = true ∧ (Instr.vopRead { payload := [1], len := 1 }).wf = true ∧
    (Instr.cxlMemRead 15 64).wf = true := by decide

theorem test_wf_packet : ([{ port := 8 }, { ver := 16 }, { type := 64 }, { src := 4096 }, { dst := 4096 }, { tenant := 4096 },
    { hoplim := 256 }, { conn := 2 ^ 24 }, { retry := 256 }, { psn := 2 ^ 32 }, { mlen := 2 ^ 32 }, { reqId := 2 ^ 32 }, { comp := 2 ^ 16 },
    { epoch := 2 ^ 16 }, { offset := 2 ^ 32 }, { tstamp := 2 ^ 32 }, { len := 2 ^ 16, lenOk := false }, { age := 256 },
    { len := 1 }] : List Packet).all (fun p => !(Instr.reqDataRx p).wf) = true := by decide

theorem test_wf_frame : ([{ route := .mailbox 16 }, { route := .pyvas 4096 }, { route := .doe 16 }, { ver := 256 }, { op := 256 },
    { flags := 256 }, { session := 2 ^ 32 }, { seq := 2 ^ 64 }, { index := 2 ^ 16 }, { sub := 256 }, { offset := 2 ^ 32 }, { len := 2 ^ 16 },
    { len := 1 }] : List VopFrame).all (fun f => !(Instr.vopWrite f).wf) = true := by decide

theorem test_wf_units : ([.nearBankStepEnd 1024, .attentionCorePieceEnd 96, .pauseFrameRx 8, .unitDrainDone .core 96,
    .selfTestDone .prefixUnit 1 true, .spareSwitch .nearBank 1024, .evinPinActive 2 true, .dieTripLimit 20 0] : List Instr).all
    (fun c => !c.wf) = true := by decide

theorem test_wf_host : ([.piDoorbellWrite 16 0 0, .cqCiDoorbellWrite 0 16384 0, .workEntryStart 16384 0, .windowRead 0 4096 0,
    .windowRead 0 0 (2 ^ 48), .windowWrite 0 0 32 0, .cxlMemRead 0 1, .cxlMemWrite 16 0 0 false, .hdmDecoderCommit 0 4 0 0 0 1,
    .identify 16, .vopFrame 16 {}, .busMasterEnableWrite 16 true] : List Instr).all (fun c => !c.wf) = true := by decide

theorem test_wf_events : ([.pendSet 0 32 0, .pendClr 16 0 0, .fmaskSet 16 0, .curprioWrite 0 64 0, .rehearsalRunStart 16,
    .bucketRefill 4096 0, .bucketRefill 0 4, .governorTick [] 0 0 0, .governorTick (List.replicate 20 0) 0 0 4, .paceUpdate []] : List Instr).all
    (fun c => !c.wf) = true := by decide

/-! ### Figures of the spec -/

/-- R35. -/
theorem test_statusCodes : Status.code .capacity = 0x10 ∧ Status.code .keyFault = 0x20 ∧ Status.code .staleEpoch = 0x30 ∧
    Status.code .mediaError = 0x40 ∧ Status.code .indeterminate = 0x60 ∧ Status.ofCode 0x7F = .internal := by decide

/-- R38's table: the largest finite values and the value 1 of each format. -/
theorem test_formats : toF32 (Fmt.fp8E4M3.decode 0x7E) = 0x43E00000 ∧ toF32 (Fmt.fp8E5M2.decode 0x7B) = 0x47600000 ∧
    toF32 (Fmt.fp16.decode 0x7BFF) = 0x477FE000 ∧ toF32 (Fmt.bf16.decode 0x3F80) = 0x3F800000 := by decide +kernel

/-- R46: to nearest, ties to even: halfway between two BF16 values. -/
theorem test_tiesToEven : (Fmt.bf16.encode .nearest (F32.num 0x3F808000)).1 = 0x3F80 ∧
    (Fmt.bf16.encode .nearest (F32.num 0x3F818000)).1 = 0x3F82 := by decide +kernel

/-- FP32 sums and products of small integers. -/
theorem test_f32 : F32.add 0x3F800000 0x40000000 = 0x40400000 ∧ F32.mul 0x40400000 0xC0000000 = 0xC0C00000 ∧
    F32.fma 0x40000000 0x40400000 0xC0C00000 = 0 := by decide +kernel

/-- R63: a page of 256 tokens of 128 BF16 values for K and V and 8 heads fills 1 MiB; a small one takes 16 KiB. -/
theorem test_frameBytes : frameBytes (256 * 8 * (256 + 256)) = 2 ^ 20 ∧ g0.frame = 16384 := by decide +kernel

/-- R26: five periods of 6.4 ns from 0. -/
theorem test_ltime : up.tick.clk.ltime = 6 ∧ up.tick.tick.clk.ltime = 12 ∧ up.tick.tick.tick.clk.ltime = 19 := by decide +kernel

/-- R59: GEOM_DEFINE answers the frame size. -/
theorem test_geomDefine : (nextOf up (exec (.geomDefine 0) (having gdefine up))).req 0 =
    some { gdefine with phase := .ended .ok 16384 } := by decide +kernel

/-- R65, R67: the first sequence of slot 0 has generation 1, so its handle is 1. -/
theorem test_seqCreate : (nextOf up (exec (.seqCreate 0) atCreate)).req 0 = some { screate with phase := .ended .ok 1 } := by
  decide +kernel

/-- R59: a second GEOM_DEFINE of the same GEOM_ID ends with RANGE_FAULT. -/
theorem test_geomDefineTwice : (nextOf up (exec (.geomDefine 0) (having gdefine seqd))).req 0 =
    some { gdefine with phase := .ended .rangeFault 0 } := by decide +kernel

/-- R65: a request of a tenant that names another's sequence has KEY_FAULT. -/
theorem test_wrongTenant : (nextOf up (exec (.seqDestroy 0) (having { rq opSEQ_DESTROY [(128, 1)] with tenant := 1 } seqd))).req 0 =
    some { rq opSEQ_DESTROY [(128, 1)] with tenant := 1, phase := .ended .keyFault 0 } := by decide +kernel

/-- R100: MAP of two granules maps them one after the other. -/
theorem test_map : ((nextOf up (exec (.map 0) atMap)).mem.maps.map (·.addr)) = [0, 65536, 81920] := by decide +kernel

/-- R289: FADD at the target adds 5 to a doubleword of 0. -/
theorem test_fadd : (nextOf up (exec (.fadd 0) (having tFadd target))).readFrame 1 0 8 = [5, 0, 0, 0, 0, 0, 0, 0] := by decide +kernel

/-- R369: an event that is set twice is pending once and counted as coalesced. -/
theorem test_coalesced : ((up.raiseOnce 5).raiseOnce 5).scalar 0x6500 3 = 1 ∧ (up.raiseOnce 5).pendOf 5 = true := by decide +kernel

/-- R388: a frame of a session that is not open is dropped without an answer. -/
theorem test_readNeedsSession : (nextOf up (exec (.vopRead { op := opRead, session := 9, index := 0x2100, sub := 5 }) up)).out = [] := by
  decide +kernel

/-- R449: FORCE_HOLD active sets its bank cause. -/
theorem test_forceHold : (nextOf up (exec (.forceHoldChange true) up)).causeSet causeForceHold = true := by decide +kernel

/-- An empty queue idles for one FABREF period, and a command at its front runs. -/
theorem test_step : (nextOf up (step up)).clk.ltime = 6 ∧
    (nextOf up (step { up with pending := [.fabrefLoss] })).clk.fabref = false := by decide +kernel

/-- The reset state meets the storage invariant. -/
theorem reset_canonical : State.reset.Canonical := ⟨by decide +kernel, by decide +kernel, by decide +kernel⟩

/-- R386: SHA-384 of the three bytes "abc" (FIPS 180-4). -/
theorem test_sha384 : sha384 [0x61, 0x62, 0x63] =
    0xcb00753f45a35e8bb5a03d699ac65007272c32ab0eded1631a8b605a43ff5bed8086072ba1e7cc2358baeca134c825a7#384 := by decide +kernel

/-- R386: the base point of brainpoolP384r1 lies on the curve, and a point moved off it does not. -/
theorem test_curve : onCurve (curveG.bytes) = true ∧ onCurve (curveG.bytes.dropLast ++ [0]) = false := by decide +kernel

/-- R349: a VOP_FRAME whose payload is not LEN long gets Invalid Payload Length. -/
theorem test_vopLength : ((nextOf up (exec (.vopFrame 0 { len := 1 }) up)).ld 0).mbox.rc = 0x16 := by decide +kernel

/-- R369, R344: a write to the read-only part of BAR2 changes nothing. -/
theorem test_bar2Ignored : nextOf up (exec (.registerWrite 0 (.bar2 0) 5) up) = up := by decide +kernel

end Sys2Proof.Tests
end

section
/-! The order of map epochs (R34), and the maps whose epochs a node accepts (R254). -/

namespace Sys2Proof.EpochLaws

open Sys2Proof Sys2Proof.Machine

/-- R34's comparison, on any two numbers: the model's natural-number distance is the integer difference mod 65,536. -/
theorem epochNewer_iff (a b : Nat) :
    epochNewer a b = true ↔ 1 ≤ ((a : Int) - b) % 65536 ∧ ((a : Int) - b) % 65536 ≤ 32767 := by
  have distance : (((a + 65536 - b % 65536) % 65536 : Nat) : Int) = ((a : Int) - b) % 65536 := by omega
  simp only [epochNewer, Bool.and_eq_true, decide_eq_true_eq]
  omega

/-- Half the epoch space apart is the same distance in either direction. -/
theorem distance_half_symm {a b : Nat} (half : ((a : Int) - b) % 65536 = 32768) :
    ((b : Int) - a) % 65536 = 32768 := by omega

theorem epochNewer_eq_false_of_distance_half {a b : Nat} (half : ((a : Int) - b) % 65536 = 32768) :
    epochNewer a b = false := by
  rw [Bool.eq_false_iff, ne_eq, epochNewer_iff, half]
  decide

/-- R34: an incoming epoch that is not comparable with the node's own is stale. -/
theorem epochVerdict_of_distance_half {mine theirs : Nat} (half : ((mine : Int) - theirs) % 65536 = 32768) :
    epochVerdict mine theirs = some .staleEpoch := by
  have differ : mine ≠ theirs := by omega
  have not_newer : epochNewer theirs mine = false := epochNewer_eq_false_of_distance_half (distance_half_symm half)
  simp [epochVerdict, differ, not_newer]

/-- The epochs a composition holds are those of its present and its old map. -/
theorem holdsEpoch_iff {s : State} {k e : Nat} {c : Comp} (hc : s.comp k = some c) :
    s.holdsEpoch k e = true ↔ (∃ m, c.map = some m ∧ m.epoch = e) ∨ ∃ m, c.oldMap = some m ∧ m.epoch = e := by
  simp [State.holdsEpoch, hc]

/-- Settles O43: the comparison is `epochNewer_iff` in either direction, a distance of 32,768 is newer in neither, and the maps
held are read off the composition. -/
theorem epochOrder : Obligations.EpochOrder := by
  unfold Obligations.EpochOrder
  refine ⟨fun a b _ _ => ⟨epochNewer_iff a b, epochNewer_iff b a, fun half => ?_⟩, fun s k e c hc held => (holdsEpoch_iff hc).mp held⟩
  exact ⟨epochNewer_eq_false_of_distance_half half, epochNewer_eq_false_of_distance_half (distance_half_symm half),
    epochVerdict_of_distance_half half⟩

end Sys2Proof.EpochLaws
end

section
/-! Entry IDs of the prefix search unit (R213): their fields, the generations of a slot, and the ID that names no entry. -/

namespace Sys2Proof.PrefixLaws

open Sys2Proof Sys2Proof.Machine

/-- The widths of R213's fields: an entry's GEN, BANK and SLOT fit theirs. -/
def FieldsFit (e : PsSlot) : Prop := e.gen < 256 ∧ e.bank < 64 ∧ e.slot < 65536

/-- R213's layout: with each field in its width, no field of the ID reaches into another. -/
theorem id_fields {e : PsSlot} (fit : FieldsFit e) :
    e.id < 2 ^ 32 ∧ bits e.id 31 24 = e.gen ∧ bits e.id 23 22 = 0 ∧ bits e.id 21 16 = e.bank ∧ bits e.id 15 0 = e.slot := by
  obtain ⟨gen_lt, bank_lt, slot_lt⟩ := fit
  simp only [PsSlot.id, bits]
  omega

theorem bits_id_gen {e : PsSlot} (fit : FieldsFit e) : bits e.id 31 24 = e.gen := by
  obtain ⟨-, gen_eq, -⟩ := id_fields fit
  exact gen_eq

/-- The generation that a slot's next entry takes, from the one it had last: 1 follows 0 and follows 255. -/
theorem psGen_of_last {s : State} {bank slot g : Nat} (last : assocGet s.gens.prefixes (bank * psSlots + slot) 0 = g) (g_lt : g < 256) :
    s.psGen bank slot = if g = 255 then 1 else g + 1 := by
  rw [State.psGen, last]
  split <;> omega

theorem psGen_ne_zero (s : State) (bank slot : Nat) : s.psGen bank slot ≠ 0 := Nat.succ_ne_zero _

theorem psGen_lt (s : State) (bank slot : Nat) : s.psGen bank slot < 256 := by
  unfold State.psGen
  omega

/-- Where the unit is fitted, a row of it that may run runs its body (R214). -/
theorem psRow_runs {s : State} {r op : Nat} {q : Req} (runs : s.Runs r q op) (fitted : s.variant.prefixUnit = true)
    (go : Req → State → State) : s.psRow r op go = go q s := by
  rw [State.psRow, State.runReq_runs runs, if_pos fitted]

/-- R218: a PS_REMOVE whose ID is that of no live entry of its tenant ends with KEY_FAULT, and that is all it does. -/
theorem exec_psRemove_of_absent {s : State} {r : Nat} {q : Req} (runs : s.Runs r q opPS_REMOVE) (fitted : s.variant.prefixUnit = true)
    (absent : ∀ e ∈ s.ps, e.tenant = q.tenant → e.id ≠ prEntry q.entry) :
    exec (.psRemove r) s = .next (s.endReq r .keyFault) := by
  have none_mine : (s.ps.any fun e => e.id == prEntry q.entry && e.tenant == q.tenant) = false := by
    rw [List.any_eq_false]
    intro e he mine
    rw [Bool.and_eq_true, beq_iff_eq, beq_iff_eq] at mine
    exact absent e he mine.2 mine.1
  change execPsRemove r s = _
  simp only [execPsRemove, psRow_runs runs fitted, none_mine, Bool.false_eq_true, if_false]

/-- An ID with GEN 0 is the ID of no entry that has a GEN. -/
theorem id_ne_of_gen_zero {e : PsSlot} {i : Nat} (gen_pos : 0 < e.gen) (fit : FieldsFit e) (null : bits i 31 24 = 0) : e.id ≠ i := by
  rintro rfl
  rw [bits_id_gen fit] at null
  omega

/-- Settles O44: the layout is `id_fields`, the generations are `psGen`'s rule, and an ID with GEN 0 is the ID of no live entry, so
PS_REMOVE of it finds none. -/
theorem prefixEntryIds : Obligations.PrefixEntryIds := by
  unfold Obligations.PrefixEntryIds
  refine ⟨fun e gen_lt bank_lt slot_lt => id_fields ⟨gen_lt, bank_lt, slot_lt⟩,
    fun s bank slot g last g_lt => ⟨psGen_of_last last g_lt, psGen_ne_zero s bank slot, psGen_lt s bank slot⟩,
    fun s r q runs fitted live null => ?_⟩
  have absent : ∀ e ∈ s.ps, e.tenant = q.tenant → e.id ≠ prEntry q.entry := by
    intro e he _
    obtain ⟨gen_pos, fit⟩ := live e he
    exact id_ne_of_gen_zero gen_pos fit null
  exact ⟨_, exec_psRemove_of_absent runs fitted absent, State.ended_endReq runs.1 _ _, rfl⟩

end Sys2Proof.PrefixLaws
end

section
/-! Events of one source (R369): set pending, routed or coalesced, and cleared. -/

namespace Sys2Proof.EventLaws

open Sys2Proof Sys2Proof.Machine

/-! ### Pending and mask bits -/

/-- The mask bits are no pending bits: setting or clearing a pending bit leaves every source masked or unmasked as it was. -/
@[simp] theorem maskOf_setPend (s : State) (src k : Nat) (b : Bool) : (s.setPend src b).maskOf k = s.maskOf k := by
  by_cases fast : rtFast (s.routeEntry src) = true
  · rw [State.setPend, if_pos fast]
    rfl
  · rw [State.setPend, if_neg fast]
    rfl

@[simp] theorem setPend_targets (s : State) (src : Nat) (b : Bool) : (s.setPend src b).ev.targets = s.ev.targets := by
  by_cases fast : rtFast (s.routeEntry src) = true
  · rw [State.setPend, if_pos fast]
  · rw [State.setPend, if_neg fast]

@[simp] theorem setPend_out (s : State) (src : Nat) (b : Bool) : (s.setPend src b).out = s.out := by
  rw [setPend_frame]

/-- Counting is no event: every pending bit stays. -/
@[simp] theorem pendOf_count (s : State) (i j n k : Nat) : (s.count i j n).pendOf k = s.pendOf k := rfl

@[simp] theorem maskOf_count (s : State) (i j n k : Nat) : (s.count i j n).maskOf k = s.maskOf k := rfl

/-! ### Raising a source: R369's three cases -/

theorem raiseOnce_of_pending {s : State} {src : Nat} (pending : s.pendOf src = true) :
    s.raiseOnce src = (s.count 0x6500 1).count 0x6500 3 := by
  simp [State.raiseOnce, pending]

theorem raiseOnce_of_masked {s : State} {src : Nat} (idle : s.pendOf src = false) (masked : s.maskOf src = true) :
    s.raiseOnce src = (s.count 0x6500 1).setPend src true := by
  simp [State.raiseOnce, idle, masked]

theorem raiseOnce_of_unmasked {s : State} {src : Nat} (idle : s.pendOf src = false) (unmasked : s.maskOf src = false) :
    s.raiseOnce src = ((s.count 0x6500 1).setPend src true).route src := by
  simp [State.raiseOnce, idle, unmasked]

/-- Only the two EVIN sources are under the re-trigger rule of R374. -/
theorem raise_of_not_evin {s : State} {src : Nat} (not_evin0 : src ≠ srcEvin 0) (not_evin1 : src ≠ srcEvin 1) :
    s.raise src = s.raiseOnce src := by
  rw [State.raise, if_neg not_evin0, if_neg not_evin1]

/-! ### Clearing a source -/

/-- Clearing a pending bit writes event state alone. -/
theorem clearPend_frame (s : State) (src : Nat) : s.clearPend src = { s with ev := (s.clearPend src).ev } := by
  rw [State.clearPend, setPend_frame]
  cases pinEdgeIndex src <;> rfl

/-- No register write moves a pin: a level cause that was there before the clear is there after it. -/
@[simp] theorem levelActive_clearPend (s : State) (src k : Nat) : (s.clearPend src).levelActive k = s.levelActive k := by
  rw [clearPend_frame]
  rfl

theorem pendOf_clearPend (s : State) {src : Nat} (src_lt : src < 2048) : (s.clearPend src).pendOf src = false := by
  have cleared : (s.setPend src false).pendOf src = false := pendOf_setPend s src false src_lt
  rw [← cleared, State.clearPend]
  cases pinEdgeIndex src <;> exact pendOf_of_ev src rfl rfl rfl

/-- A clear of a source other than EVIN0 and EVIN1: the bit is cleared, and a level cause still present raises the source anew. -/
theorem ackSource_of_not_evin (s : State) {src : Nat} (not_evin0 : src ≠ srcEvin 0) (not_evin1 : src ≠ srcEvin 1) :
    s.ackSource src = if s.levelActive src then (s.clearPend src).raiseOnce src else s.clearPend src := by
  simp [State.ackSource, not_evin0, not_evin1, raise_of_not_evin not_evin0 not_evin1]

theorem pendOf_ackSource (s : State) {src : Nat} (src_lt : src < 2048) (not_evin0 : src ≠ srcEvin 0) (not_evin1 : src ≠ srcEvin 1) :
    (s.ackSource src).pendOf src = s.levelActive src := by
  rw [ackSource_of_not_evin s not_evin0 not_evin1]
  by_cases present : s.levelActive src = true
  · rw [if_pos present, present, raiseOnce_pendOf _ _ src_lt]
  · rw [if_neg present, pendOf_clearPend s src_lt, Bool.eq_false_iff.mpr present]

theorem bankClr_of_pending {s : State} {src : Nat} (pending : s.pendOf src = true) : s.bankClr src = s.ackSource src := by
  rw [State.bankClr, if_pos pending]

/-- Settles O48: raising a source is one of the three `raiseOnce_of_…` equations, and a clear leaves pending what the level cause
says, `pendOf_ackSource`. -/
theorem eventsCoalesce : Obligations.EventsCoalesce := by
  unfold Obligations.EventsCoalesce
  refine ⟨fun s src src_lt idle => ⟨raiseOnce_pendOf s src src_lt, fun masked => ?_, raiseOnce_of_unmasked idle⟩,
    fun s src pending => ?_, fun s src src_lt not_evin0 not_evin1 pending => ?_⟩
  · rw [raiseOnce_of_masked idle masked, setPend_out, setPend_targets]
    exact ⟨rfl, rfl⟩
  · rw [raiseOnce_of_pending pending]
    exact ⟨rfl, rfl, rfl⟩
  · rw [bankClr_of_pending pending, pendOf_ackSource s src_lt not_evin0 not_evin1]

end Sys2Proof.EventLaws
end

section

namespace Sys2Proof.Machine
open Sys2Proof

/-- What the node was built with and what its fuses hold, with the commands that wait: no command changes them but to blow a fuse. -/
def State.built (s : State) : List Instr × Variant × Nat × BitVec 4 := (s.pending, s.variant, s.trust.rollback, s.trust.keyRevoked)

/-- What outlasts a command: `built`, and the local counter, which advances between commands only. -/
def State.lasting (s : State) : (List Instr × Variant × Nat × BitVec 4) × BitVec 64 := (s.built, s.clk.ltime)

theorem State.lasting_mk
    (pending free out variant clk node objs octs tenants comps reclaims geoms seqs mem ps merges gens reqs nextReq eng wqs
    cqs fab lds ev mgmt trust flt gov) :
    (State.mk pending free out variant clk node objs octs tenants comps reclaims geoms seqs mem ps merges gens reqs nextReq eng wqs cqs fab lds
      ev mgmt trust flt gov).lasting = ((pending, variant, trust.rollback, trust.keyRevoked), clk.ltime) := rfl

theorem State.lasting_eta (s : State) : ((s.pending, s.variant, s.trust.rollback, s.trust.keyRevoked), s.clk.ltime) = s.lasting := rfl

theorem foldl_lasting {α : Type} {f : State → α → State} (h : ∀ s x, (f s x).lasting = s.lasting) (l : List α) (s : State) :
    (l.foldl f s).lasting = s.lasting := by
  induction l generalizing s with
  | nil => rfl
  | cons a l ih => rw [List.foldl_cons, ih, h]

theorem foldl_snd_lasting {α β : Type} {f : β × State → α → β × State} (h : ∀ a x, (f a x).2.lasting = a.2.lasting) (l : List α)
    (a : β × State) : (l.foldl f a).2.lasting = a.2.lasting := by
  induction l generalizing a with
  | nil => rfl
  | cons x l ih => rw [List.foldl_cons, ih, h]

theorem getD_lasting {s : State} {o : Option State} (h : ∀ t, o = some t → t.lasting = s.lasting) : (o.getD s).lasting = s.lasting := by
  cases o with
  | none => rfl
  | some t => exact h t rfl

/-- A row that completes leaves what lasts. -/
def Leaves (s : State) (o : Host.Outcome State Fault Refusal) : Prop := ∀ t, o = .next t → t.lasting = s.lasting

theorem leaves_next {s t : State} (h : t.lasting = s.lasting) : Leaves s (.next t) := by
  intro u hu
  cases hu
  exact h

end Sys2Proof.Machine
end

section

/-! What lasts under the definitions of `Sys2Proof/Machine/Objects.lean`. -/

namespace Sys2Proof.Machine
open Sys2Proof

theorem State.setScalar_lasting (s : State) (idx sub v : ℕ) : (s.setScalar idx sub v).lasting = s.lasting := rfl

theorem State.count_lasting (s : State) (idx sub n : ℕ) : (s.count idx sub n).lasting = s.lasting := rfl

theorem State.setOct_lasting (s : State) (idx sub off : ℕ) (b : Byte) : (s.setOct idx sub off b).lasting = s.lasting := rfl

theorem State.setOctets_lasting (s : State) (idx sub n : ℕ) (xs : List Byte) : (s.setOctets idx sub n xs).lasting = s.lasting := by
  fun_induction State.setOctets s idx sub n xs <;> simp_all only [State.setOct_lasting]

theorem State.clearOctets_lasting (s : State) (idx sub : ℕ) : (s.clearOctets idx sub).lasting = s.lasting := rfl

end Sys2Proof.Machine
end

section

/-! What lasts under the definitions of `Sys2Proof/Machine/Ops.lean`. -/

namespace Sys2Proof.Machine
open Sys2Proof

theorem State.draw_lasting (s : State) (n : ℕ) : (s.draw n).2.lasting = s.lasting := rfl

theorem State.drawBits_lasting (s : State) (w : ℕ) : (s.drawBits w).2.lasting = s.lasting := rfl

theorem State.drawBytes_lasting (n : ℕ) (s : State) : (State.drawBytes n s).2.lasting = s.lasting := by
  fun_induction State.drawBytes n s <;> grind [!State.drawBits_lasting]

theorem State.emit_lasting (s : State) (o : Out) : (s.emit o).lasting = s.lasting := rfl

theorem State.modLd_lasting (s : State) (n : ℕ) (f : Ld → Ld) : (s.modLd n f).lasting = s.lasting := rfl

theorem State.setPend_lasting (s : State) (src : ℕ) (b : Bool) : (s.setPend src b).lasting = s.lasting := by
  simp only [State.setPend, State.lasting_mk, State.lasting_eta, apply_ite State.lasting, ite_self]

theorem State.setMask_lasting (s : State) (src : ℕ) (b : Bool) : (s.setMask src b).lasting = s.lasting := by
  simp only [State.setMask, State.lasting_mk, State.lasting_eta, apply_ite State.lasting, ite_self]

theorem State.setTarget_lasting (s : State) (x : Target) : (s.setTarget x).lasting = s.lasting := rfl

theorem State.sendMsix_lasting (s : State) (ld en : ℕ) : (s.sendMsix ld en).lasting = s.lasting := rfl

theorem State.deliver_lasting (s : State) (x src : ℕ) : (s.deliver x src).lasting = s.lasting := by
  simp only [State.deliver, State.count_lasting, State.setTarget_lasting, State.modLd_lasting, State.sendMsix_lasting, State.emit_lasting,
    apply_ite State.lasting, ite_self]

theorem State.route_lasting (s : State) (src : ℕ) : (s.route src).lasting = s.lasting := by
  unfold State.route
  dsimp only
  (repeat' split) <;> simp only [State.deliver_lasting, State.lasting_mk, State.lasting_eta]

theorem State.raiseOnce_lasting (s : State) (src : ℕ) : (s.raiseOnce src).lasting = s.lasting := by
  simp only [State.raiseOnce, State.count_lasting, State.setPend_lasting, State.route_lasting, apply_ite State.lasting, ite_self]

theorem State.maskStuck_lasting (s : State) (i : ℕ) : (s.maskStuck i).lasting = s.lasting := by
  simp only [State.maskStuck, State.setMask_lasting, State.raiseOnce_lasting, State.count_lasting, State.lasting_mk, State.lasting_eta]

theorem State.raiseEvin_lasting (s : State) (i : ℕ) : (s.raiseEvin i).lasting = s.lasting := by
  simp only [State.raiseEvin, State.raiseOnce_lasting, State.maskStuck_lasting, State.lasting_mk, State.lasting_eta, apply_ite
    State.lasting, ite_self]

theorem State.raise_lasting (s : State) (src : ℕ) : (s.raise src).lasting = s.lasting := by
  simp only [State.raise, State.raiseEvin_lasting, State.raiseOnce_lasting, apply_ite State.lasting, ite_self]

theorem State.raiseTenant_lasting (s : State) (t kind : ℕ) : (s.raiseTenant t kind).lasting = s.lasting := by
  unfold State.raiseTenant
  grind [!State.raise_lasting]

theorem State.rerouteWaiting_lasting (s : State) (p : ℕ → Bool) : (s.rerouteWaiting p).lasting = s.lasting := by
  unfold State.rerouteWaiting
  grind [!State.route_lasting, foldl_lasting]

theorem State.clearPend_lasting (s : State) (src : ℕ) : (s.clearPend src).lasting = s.lasting := by
  unfold State.clearPend
  dsimp only
  (repeat' split) <;> simp only [State.setPend_lasting, State.lasting_mk, State.lasting_eta]

theorem State.ackSource_lasting (s : State) (src : ℕ) : (s.ackSource src).lasting = s.lasting := by
  simp only [State.ackSource, State.clearPend_lasting, State.raise_lasting, State.lasting_mk, State.lasting_eta, apply_ite State.lasting,
    ite_self]

theorem State.setCause_lasting (s : State) (i : ℕ) (b : Bool) : (s.setCause i b).lasting = s.lasting := rfl

end Sys2Proof.Machine
end

section

/-! What lasts under the definitions of `Sys2Proof/Machine/Buckets.lean`. -/

namespace Sys2Proof.Machine
open Sys2Proof

theorem State.modComp_lasting (s : State) (slot : ℕ) (f : Comp → Comp) : (s.modComp slot f).lasting = s.lasting := rfl

theorem State.modTenant_lasting (s : State) (t : ℕ) (f : Tenant → Tenant) : (s.modTenant t f).lasting = s.lasting := rfl

theorem State.refill_lasting (s : State) (t r : ℕ) : (s.refill t r).lasting = s.lasting := rfl

theorem State.charge_lasting (s : State) (t slot r n : ℕ) : (s.charge t slot r n).lasting = s.lasting := rfl

end Sys2Proof.Machine
end

section

/-! What lasts under the definitions of `Sys2Proof/Machine/Flows.lean`. -/

namespace Sys2Proof.Machine
open Sys2Proof

theorem State.setV_lasting (s : State) (p : Point) (v : ℚ) : (s.setV p v).lasting = s.lasting := rfl

theorem State.tag_lasting (s : State) (p : Point) (j : Job) (start : ℚ) : (s.tag p j start).2.lasting = s.lasting := rfl

theorem State.enqueue_lasting (s : State) (p : Point) (q : List Job) (j : Job) : (s.enqueue p q j).2.lasting = s.lasting := by
  unfold State.enqueue
  dsimp only
  (repeat' split) <;> simp only [State.tag_lasting]

theorem State.tagHead_lasting (s : State) (p : Point) (t : ℕ) (loan : Bool) (xs : List Job) :
    (s.tagHead p t loan xs).2.lasting = s.lasting := by
  fun_induction State.tagHead s p t loan xs <;> grind [!State.tag_lasting]

theorem State.takeHead_lasting (s : State) (p : Point) (j : Job) (q : List Job) : (s.takeHead p j q).2.lasting = s.lasting := by
  simp only [State.takeHead, State.tagHead_lasting, State.setV_lasting]

theorem State.notePins_lasting (s : State) (p bytes : ℕ) : (s.notePins p bytes).lasting = s.lasting := rfl

theorem State.setLt_lasting (s : State) (c : LtCtl) : (s.setLt c).lasting = s.lasting := rfl

theorem State.enterLower_lasting (s : State) (j : Job) (ps : List (ℕ × ℕ)) : (s.enterLower j ps).lasting = s.lasting := by
  unfold State.enterLower
  grind [!State.enqueue_lasting, !State.setLt_lasting, foldl_lasting]

theorem State.ltDrop_lasting (s : State) (p : ℕ) (j : Job) : (s.ltDrop p j).lasting = s.lasting := by
  unfold State.ltDrop
  dsimp only
  (repeat' split) <;> simp only [State.takeHead_lasting, State.setLt_lasting]

theorem State.ltServe_lasting (s : State) (p : ℕ) : (s.ltServe p).lasting = s.lasting := by
  unfold State.ltServe
  grind [!State.ltDrop_lasting, !State.setLt_lasting, !State.takeHead_lasting, foldl_lasting]

theorem State.ltPump_lasting (s : State) : (s.ltPump).lasting = s.lasting := by
  unfold State.ltPump
  grind [!State.ltServe_lasting, foldl_lasting]

theorem State.enterMove_lasting (s : State) (req : Option ℕ) (n p bytes : ℕ) : (s.enterMove req n p bytes).lasting = s.lasting := by
  unfold State.enterMove
  grind [!State.enterLower_lasting]

theorem State.gated_lasting (s : State) (q : Req) (go : State → State) (hgo : ∀ u, (go u).lasting = u.lasting) :
    (s.gated q go).lasting = s.lasting := by
  unfold State.gated
  split
  · exact hgo s
  split
  · rfl
  dsimp only
  split
  · exact hgo s
  · exact State.enterLower_lasting ..

end Sys2Proof.Machine
end

section

/-! What lasts under the definitions of `Sys2Proof/Machine/Storage.lean`. -/

namespace Sys2Proof.Machine
open Sys2Proof

theorem State.modMem_lasting (s : State) (f : Mem → Mem) : (s.modMem f).lasting = s.lasting := rfl

theorem State.modFrame_lasting (s : State) (n : ℕ) (f : Frame → Frame) : (s.modFrame n f).lasting = s.lasting := rfl

theorem State.putFrame_lasting (s : State) (n off : ℕ) (bs : List Byte) : (s.putFrame n off bs).lasting = s.lasting := rfl

theorem State.zeroFrame_lasting (s : State) (n : ℕ) : (s.zeroFrame n).lasting = s.lasting := rfl

theorem State.newSerial_lasting (s : State) : (s.newSerial).2.lasting = s.lasting := rfl

theorem State.modTsGran_lasting (s : State) (f : List TsGranule → List TsGranule) : (s.modTsGran f).lasting = s.lasting := rfl

theorem State.blockIn_lasting (s : State) (t size ch : ℕ) {v : TsBlock} {u : State} (h : s.blockIn t size ch = some (v, u)) :
    u.lasting = s.lasting := by
  unfold State.blockIn at h
  grind [!State.modTsGran_lasting]

theorem State.placeBlock_lasting (s : State) (t home size : ℕ) {v : TsBlock} {u : State} (h : s.placeBlock t home size = some (v, u)) :
    u.lasting = s.lasting := by
  obtain ⟨c, -, hc⟩ := List.exists_of_findSome?_eq_some h
  exact State.blockIn_lasting _ _ _ _ hc

theorem State.freeBlock_lasting (s : State) (b : TsBlock) : (s.freeBlock b).lasting = s.lasting := rfl

theorem State.quarantine_lasting (s : State) (t : ℕ) (what : Storage) (frame : Option ℕ) (block : Option TsBlock) (victim : Option ℕ) :
    (s.quarantine t what frame block victim).lasting = s.lasting := rfl

theorem State.endQuarantine_lasting (s : State) (q : QItem) : (s.endQuarantine q).lasting = s.lasting := by
  unfold State.endQuarantine
  dsimp only
  (repeat' split) <;> simp only [State.modMem_lasting, State.zeroFrame_lasting, State.freeBlock_lasting]

theorem State.retireGranule_lasting (s : State) (ch gr : ℕ) : (s.retireGranule ch gr).lasting = s.lasting := by
  simp only [State.retireGranule, State.count_lasting, State.lasting_mk, State.lasting_eta, apply_ite State.lasting, ite_self]

theorem State.retireChunk_lasting (s : State) (k ch : ℕ) : (s.retireChunk k ch).lasting = s.lasting := by
  simp only [State.retireChunk, State.count_lasting, State.lasting_mk, State.lasting_eta, apply_ite State.lasting, ite_self]

theorem State.retireRecord_lasting (s : State) (x : RetireRec) : (s.retireRecord x).lasting = s.lasting := by
  simp only [State.retireRecord, State.raise_lasting, State.lasting_mk, State.lasting_eta]

theorem State.retireAt_lasting (s : State) (upper : Bool) (unit loc : ℕ) : (s.retireAt upper unit loc).lasting = s.lasting := by
  simp only [State.retireAt, State.retireGranule_lasting, State.retireChunk_lasting, apply_ite State.lasting, ite_self]

theorem State.retireFree_lasting (s : State) (upper : Bool) (unit loc cause : ℕ) :
    (s.retireFree upper unit loc cause).lasting = s.lasting := by
  simp only [State.retireFree, State.retireRecord_lasting, State.retireAt_lasting, apply_ite State.lasting, ite_self]

theorem State.drawSpot_lasting (s : State) (up : Bool) (not : Option ℕ) : (s.drawSpot up not).2.lasting = s.lasting := by
  unfold State.drawSpot
  dsimp only
  (repeat' split) <;> simp only [State.draw_lasting]

theorem State.drawMirrors_lasting (s : State) : (s.drawMirrors).2.lasting = s.lasting := by
  simp only [State.drawMirrors, State.drawSpot_lasting]

theorem State.retireFreed_lasting (s : State) (f : Frame) : (s.retireFreed f).lasting = s.lasting := by
  unfold State.retireFreed
  grind [!State.retireRecord_lasting, foldl_lasting]

theorem State.releaseFrame_lasting (s : State) (n : ℕ) : (s.releaseFrame n).lasting = s.lasting := by
  unfold State.releaseFrame
  dsimp only
  (repeat' split) <;> simp only [State.retireFreed_lasting, State.modMem_lasting, State.quarantine_lasting]

theorem State.tlbDrop_lasting (s : State) (p : ℕ × ℕ × ℕ → Bool) : (s.tlbDrop p).lasting = s.lasting := rfl

theorem State.unmapOne_lasting (s : State) (m : Mapping) : (s.unmapOne m).lasting = s.lasting := by
  simp only [State.unmapOne, State.tlbDrop_lasting, State.modMem_lasting, State.releaseFrame_lasting, apply_ite State.lasting, ite_self]

theorem State.newPage_lasting (s : State) (t n : ℕ) (p : ℕ × ℕ) {u : State} (h : s.newPage t n p = some u) : u.lasting = s.lasting := by
  unfold State.newPage at h
  grind [!State.modMem_lasting]

theorem State.addTable_lasting (s : State) (t : ℕ) (p : ℕ × ℕ) {u : State} (h : s.addTable t p = some u) : u.lasting = s.lasting := by
  unfold State.addTable at h
  grind [→ State.newPage_lasting]

theorem State.addRoot_lasting (s : State) (t : ℕ) {u : State} (h : s.addRoot t = some u) : u.lasting = s.lasting := by
  unfold State.addRoot at h
  grind [→ State.newPage_lasting]

theorem State.addTables_lasting (s : State) (t : ℕ) (xs : List (ℕ × ℕ)) {u : State} (h : s.addTables t xs = some u) :
    u.lasting = s.lasting := by
  fun_induction State.addTables s t xs <;> grind [→ State.addTable_lasting]

theorem State.modTable_lasting (s : State) (k : ℕ × ℕ × ℕ) (f : TablePage → TablePage) : (s.modTable k f).lasting = s.lasting := rfl

theorem State.moveTable_lasting (s : State) (bad : Bool → ℕ → ℕ → Bool) (p : TablePage) : (s.moveTable bad p).lasting = s.lasting := by
  unfold State.moveTable
  dsimp only
  (repeat' split) <;> simp only [State.modTable_lasting]

theorem State.moveTables_lasting (s : State) (bad : Bool → ℕ → ℕ → Bool) : (s.moveTables bad).lasting = s.lasting := by
  unfold State.moveTables
  grind [!State.moveTable_lasting, foldl_lasting]

theorem State.takeTables_lasting (s : State) (t : ℕ) (ps : List (ℕ × ℕ)) {u : State} (h : s.takeTables t ps = some u) :
    u.lasting = s.lasting := by
  unfold State.takeTables at h
  grind [→ State.addTables_lasting]

theorem State.enterFrame_lasting (s : State) (n gen t comp size : ℕ) (k : FrameKind) (p : Place) (home : ℕ) (touch : Option Touch) :
    (s.enterFrame n gen t comp size k p home touch).lasting = s.lasting := by
  unfold State.enterFrame
  dsimp only
  (repeat' split) <;> simp only [State.newSerial_lasting, State.modMem_lasting, State.lasting_mk, State.lasting_eta]

theorem State.allocPlain_lasting (s : State) (t comp size : ℕ) (k : FrameKind) (lowerToo : Bool) {got : ℕ} {u : State}
    (h : s.allocPlain t comp size k lowerToo = .got got u) : u.lasting = s.lasting := by
  unfold State.allocPlain at h
  grind [!State.enterFrame_lasting]

theorem State.allocPage_lasting (s : State) (t comp idx layer page size blk : ℕ) {got : ℕ} {u : State}
    (h : s.allocPage t comp idx layer page size blk = .got got u) : u.lasting = s.lasting := by
  unfold State.allocPage at h
  grind [!State.enterFrame_lasting, → State.placeBlock_lasting, !State.modFrame_lasting]

theorem allocEach_lasting {α : Type} (f : α → State → Alloc ℕ) (xs : List α) (s : State) {got : List (α × ℕ)} {t : State}
    (hf : ∀ x u a t, f x u = .got a t → t.lasting = u.lasting) (h : allocEach f xs s = .got got t) : t.lasting = s.lasting := by
  induction xs generalizing s got t with
  | nil => cases h; rfl
  | cons x xs ih =>
    unfold allocEach at h
    split at h
    · cases h
    · cases h
    · split at h
      · cases h
        exact (ih _ ‹_›).trans (hf _ _ _ _ ‹_›)
      · cases h
      · cases h

theorem State.mapFrame_lasting (s : State) (t a n : ℕ) (r w sq : Bool) : (s.mapFrame t a n r w sq).lasting = s.lasting := rfl

theorem State.noteFailed_lasting (s : State) (t a n : ℕ) (need : Right) : (s.noteFailed t a n need).lasting = s.lasting := by
  unfold State.noteFailed
  grind [!State.count_lasting]

theorem State.startDown_lasting (s : State) (f : Frame) (req thenUp : Option ℕ) (table : Option (ℕ × ℕ × ℕ)) {t : State}
    (h : s.startDown f req thenUp table = some t) : t.lasting = s.lasting := by
  unfold State.startDown at h
  grind [!State.newSerial_lasting, !State.enterMove_lasting, !State.modFrame_lasting, Option.map_eq_some_iff]

theorem State.giveUpper_lasting (s : State) (k : ℕ × ℕ × ℕ) : (s.giveUpper k).lasting = s.lasting := by
  unfold State.giveUpper
  grind [!State.modMem_lasting]

theorem State.warmTable_lasting (s : State) (p : TablePage) : (s.warmTable p).lasting = s.lasting := by
  unfold State.warmTable
  split
  · rfl
  split
  · exact State.giveUpper_lasting ..
  split
  · rfl
  split
  · split
    · exact getD_lasting fun t h => State.startDown_lasting _ _ _ _ _ h
    · rfl
  · rfl

theorem State.tlbFill_lasting (s : State) (x : ℕ × ℕ × ℕ) : (s.tlbFill x).lasting = s.lasting := by
  unfold State.tlbFill
  dsimp only
  (repeat' split) <;> simp only [State.draw_lasting, State.modMem_lasting]

theorem State.heatWalk_lasting (s : State) (t a n : ℕ) : (s.heatWalk t a n).lasting = s.lasting := by
  unfold State.heatWalk
  grind [!State.modFrame_lasting, !State.modMem_lasting, !State.tlbFill_lasting, !State.warmTable_lasting, foldl_lasting]

theorem State.heatFrame_lasting (s : State) (t n : ℕ) : (s.heatFrame t n).lasting = s.lasting := by
  unfold State.heatFrame
  grind [!State.heatWalk_lasting]

theorem State.heatPieces_lasting (s : State) (t n : ℕ) (xs : List (ℕ × ℕ × ℕ)) : (s.heatPieces t n xs).lasting = s.lasting := by
  fun_induction State.heatPieces s t n xs <;> simp_all only [State.heatWalk_lasting]

theorem State.chargeAt_lasting (s : State) (y : Payer) (pl : Place) (bytes : ℕ) : (s.chargeAt y pl bytes).lasting = s.lasting := by
  unfold State.chargeAt
  grind [!State.charge_lasting, !State.notePins_lasting]

theorem State.chargePins_lasting (s : State) (y : Payer) (n bytes : ℕ) : (s.chargePins y n bytes).lasting = s.lasting := by
  simp only [State.chargePins, State.chargeAt_lasting]

theorem State.chargePieces_lasting (s s0 : State) (y : Payer) (ps : List (ℕ × ℕ × ℕ)) : (s.chargePieces s0 y ps).lasting = s.lasting := by
  unfold State.chargePieces
  grind [!State.chargePins_lasting, foldl_lasting]

theorem State.loadTenant_lasting (s : State) (y : Payer) (a n : ℕ) {v : List Byte} {t : State} (h : s.loadTenant y a n = .ok (v, t)) :
    t.lasting = s.lasting := by
  unfold State.loadTenant at h
  grind [!State.heatPieces_lasting, !State.chargePieces_lasting]

theorem State.compact_lasting (s : State) (n : ℕ) {t : State} (h : s.compact n = some t) : t.lasting = s.lasting := by
  unfold State.compact at h
  grind [!State.newSerial_lasting, !State.modFrame_lasting, !State.quarantine_lasting]

theorem State.switchPlace_lasting (s : State) (f : Frame) (m : Migration) : (s.switchPlace f m).lasting = s.lasting := rfl

theorem State.beforeWrite_lasting (s : State) (n : ℕ) : (s.beforeWrite n).lasting = s.lasting := by
  unfold State.beforeWrite
  grind [!State.switchPlace_lasting]

theorem State.zeroBad_lasting (s : State) (f : Frame) : (s.zeroBad f).lasting = s.lasting := by
  unfold State.zeroBad
  grind [!State.count_lasting, !State.putFrame_lasting, foldl_lasting]

theorem State.writeInPlace_lasting (s : State) (n off : ℕ) (bs : List Byte) {t : State} (h : s.writeInPlace n off bs = some t) :
    t.lasting = s.lasting := by
  unfold State.writeInPlace at h
  grind [!State.modFrame_lasting, !State.putFrame_lasting, → State.compact_lasting]

theorem State.writeFrame_lasting (s : State) (n off : ℕ) (bs : List Byte) {t : State} (h : s.writeFrame n off bs = some t) :
    t.lasting = s.lasting := by
  unfold State.writeFrame at h
  grind [→ State.writeInPlace_lasting, !State.beforeWrite_lasting]

theorem State.writePieces_lasting (s : State) (xs : List (ℕ × ℕ × ℕ)) (ys : List Byte) {t : State} (h : s.writePieces xs ys = some t) :
    t.lasting = s.lasting := by
  fun_induction State.writePieces s xs ys <;> grind [→ State.writeFrame_lasting]

theorem State.writeTenant_done_lasting (s : State) (y : Payer) (a : ℕ) (bs : List Byte) {t : State} (h : s.writeTenant y a bs = .done t) :
    t.lasting = s.lasting := by
  unfold State.writeTenant at h
  grind [→ State.writePieces_lasting, !State.heatPieces_lasting, !State.chargePieces_lasting]

theorem State.writeTenant_bad_lasting (s : State) (y : Payer) (a : ℕ) (bs : List Byte) {st : Status} {t : State}
    (h : s.writeTenant y a bs = .bad st t) : t.lasting = s.lasting := by
  unfold State.writeTenant at h
  grind [!State.noteFailed_lasting]

theorem State.blurLine_lasting (s : State) (y : Payer) (a n : ℕ) : (s.blurLine y a n).lasting = s.lasting := by
  unfold State.blurLine
  grind [!State.draw_lasting, !State.drawBytes_lasting, → State.writeTenant_done_lasting]

theorem State.blurLines_lasting (s : State) (y : Payer) (n k m : ℕ) : (s.blurLines y n k m).lasting = s.lasting := by
  fun_induction State.blurLines s y n k m <;> simp_all only [State.blurLine_lasting]

theorem State.mixLines_lasting (s : State) (y : Payer) (n k : ℕ) (xs : List Byte) : (s.mixLines y n k xs).lasting = s.lasting := by
  fun_induction State.mixLines s y n k xs <;> grind [!State.draw_lasting, → State.writeTenant_done_lasting]

theorem State.mix_lasting (s : State) (y : Payer) (a : ℕ) (bs : List Byte) : (s.mix y a bs).lasting = s.lasting := by
  simp only [State.mix, State.mixLines_lasting]

theorem State.blur_lasting (s : State) (y : Payer) (a n : ℕ) : (s.blur y a n).lasting = s.lasting := by
  simp only [State.blur, State.blurLines_lasting, apply_ite State.lasting, ite_self]

end Sys2Proof.Machine
end

section

/-! What lasts under the definitions of `Sys2Proof/Machine/Requests.lean`. -/

namespace Sys2Proof.Machine
open Sys2Proof

theorem State.modReq_lasting (s : State) (r : ℕ) (f : Req → Req) : (s.modReq r f).lasting = s.lasting := rfl

theorem State.endReq_lasting (s : State) (r : ℕ) (st : Status) (result : ℕ) : (s.endReq r st result).lasting = s.lasting := rfl

theorem State.endRead_lasting (s : State) (q : Req) (a n : ℕ) (st : Status) : (s.endRead q a n st).lasting = s.lasting := by
  simp only [State.endRead, State.endReq_lasting, State.noteFailed_lasting]

theorem State.waitReq_lasting (s : State) (r : ℕ) (w : Wait) : (s.waitReq r w).lasting = s.lasting := rfl

theorem State.wake_lasting (s : State) (w : Wait) : (s.wake w).lasting = s.lasting := rfl

theorem State.runReq_lasting (s : State) (r : ℕ) (ops : List ℕ) (f : Req → State → State) (hf : ∀ q u, (f q u).lasting = u.lasting) :
    (s.runReq r ops f).lasting = s.lasting := by
  unfold State.runReq
  grind [State.gated_lasting]

theorem State.checked_lasting (s : State) (r : ℕ) (checks : List (Bool × Status)) (go : State → State)
    (hgo : ∀ u, (go u).lasting = u.lasting) : (s.checked r checks go).lasting = s.lasting := by
  unfold State.checked
  grind [!State.endReq_lasting]

theorem State.tierEnd_lasting (s : State) : (s.tierEnd).lasting = s.lasting := rfl

theorem State.holdKey_lasting (s : State) (q : Req) (key : ℕ) (need : KeyRight) (off len : ℕ) {v : Region} {t : State}
    (h : s.holdKey q key need off len = .ok (v, t)) : t.lasting = s.lasting := by
  unfold State.holdKey at h
  grind [!State.modReq_lasting]

end Sys2Proof.Machine
end

section

/-! What lasts under the definitions of `Sys2Proof/Machine/Broadcast.lean`. -/

namespace Sys2Proof.Machine
open Sys2Proof

theorem State.broadcast_lasting (n : ℕ) (x : Job) (k m : ℕ) (xs : List Byte) (ys : List (ℕ × List Work)) (s : State) :
    (State.broadcast n x k m xs ys s).lasting = s.lasting := by
  fun_induction State.broadcast n x k m xs ys s <;> simp_all only [State.lasting_mk, State.lasting_eta]

theorem State.queueCore_lasting (s : State) (j : Job) (planned : ℕ) : (s.queueCore j planned).lasting = s.lasting := by
  simp only [State.queueCore, State.enqueue_lasting, State.lasting_mk, State.lasting_eta]

theorem State.bareWork_lasting (s : State) (j : Job) (frame op body : ℕ) (slot : List Byte) (bytes near : ℕ) :
    (s.bareWork j frame op body slot bytes near).lasting = s.lasting := by
  unfold State.bareWork
  dsimp only
  (repeat' split) <;> simp only [State.broadcast_lasting, State.queueCore_lasting]

theorem State.copyWork_lasting (s : State) (j : Job) (src dst : ℕ) (from_ to_ : Place) (off len : ℕ) :
    (s.copyWork j src dst from_ to_ off len).lasting = s.lasting := by
  unfold State.copyWork
  dsimp only
  (repeat' split) <;> simp only [State.broadcast_lasting, State.queueCore_lasting]

end Sys2Proof.Machine
end

section

/-! What lasts under the definitions of `Sys2Proof/Machine/Pages.lean`. -/

namespace Sys2Proof.Machine
open Sys2Proof

theorem State.modSeq_lasting (s : State) (idx : ℕ) (f : Seq → Seq) : (s.modSeq idx f).lasting = s.lasting := rfl

theorem State.cowEdit_lasting (s0 s : State) (n : ℕ) : (s0.cowEdit s n).lasting = s.lasting := by
  unfold State.cowEdit
  split
  · rfl
  · exact State.tlbDrop_lasting ..

theorem State.psDrop_lasting (s : State) (p : PsSlot → Bool) : (s.psDrop p).lasting = s.lasting := rfl

theorem State.psForget_lasting (s : State) (handle len : ℕ) : (s.psForget handle len).lasting = s.lasting := rfl

theorem State.countExc_lasting (s : State) (t : ℕ) (e : Exc) : (s.countExc t e).lasting = s.lasting := rfl

theorem State.widenTouch_lasting (s : State) (g : Geom) (layer n lo hi : ℕ) : (s.widenTouch g layer n lo hi).lasting = s.lasting := by
  unfold State.widenTouch
  dsimp only
  (repeat' split) <;> simp only [State.modFrame_lasting]

theorem State.rebuildTouch_lasting (s : State) (g : Geom) (layer n count : ℕ) : (s.rebuildTouch g layer n count).2.lasting = s.lasting := by
  unfold State.rebuildTouch
  grind [→ State.placeBlock_lasting, !State.quarantine_lasting, !State.modFrame_lasting]

theorem State.touchWork_lasting (s : State) (j : Job) (g : Geom) (n lo count mode srcK srcV : ℕ) (tokens : List Byte) :
    (s.touchWork j g n lo count mode srcK srcV tokens).lasting = s.lasting := by
  unfold State.touchWork
  dsimp only
  (repeat' split) <;> simp only [State.bareWork_lasting]

theorem State.takeRun_lasting (s : State) (n : ℕ) {t : State} (h : s.takeRun n = some t) : t.lasting = s.lasting := by
  unfold State.takeRun at h
  grind [!State.tierEnd_lasting, !State.modFrame_lasting, Option.map_eq_some_iff]

theorem State.takeRuns_lasting (s : State) (xs : List ℕ) {t : State} (h : s.takeRuns xs = some t) : t.lasting = s.lasting := by
  fun_induction State.takeRuns s xs <;> grind [→ State.takeRun_lasting]

theorem State.startSwapOut_lasting (s : State) (q : Seq) {t : State} (h : s.startSwapOut q = some t) : t.lasting = s.lasting := by
  unfold State.startSwapOut at h
  grind [!State.wake_lasting, !State.modSeq_lasting, → State.takeRuns_lasting, Option.map_eq_some_iff]

theorem State.makeRoom_lasting (s : State) (t rclass : ℕ) (needer : Option ℕ) (noPreempt : Bool) (tried victims : List ℕ) {v : List ℕ}
    {u : State}
    (h : s.makeRoom t rclass needer noPreempt tried victims = some (v, u)) : u.lasting = s.lasting := by
  unfold State.makeRoom at h
  grind [→ State.startSwapOut_lasting, Option.map_eq_some_iff]

theorem State.reqRoom_lasting (s : State) (r : Req) (rclass : ℕ) (needer : Option ℕ) (noPreempt : Bool) {t : State}
    (h : s.reqRoom r rclass needer noPreempt = some t) : t.lasting = s.lasting := by
  unfold State.reqRoom at h
  grind [!State.modReq_lasting, → State.makeRoom_lasting, Option.map_eq_some_iff]

theorem State.nodeRoom_lasting (s : State) (t : ℕ) {u : State} (h : s.nodeRoom t = some u) : u.lasting = s.lasting := by
  unfold State.nodeRoom at h
  grind [→ State.makeRoom_lasting, Option.map_eq_some_iff]

theorem State.startRestore_lasting (s : State) (q : Seq) (starter : Option ℕ) : (s.startRestore q starter).lasting = s.lasting := by
  simp only [State.startRestore, State.wake_lasting, State.modSeq_lasting, apply_ite State.lasting, ite_self]

theorem State.reclaimFailed_lasting (s : State) (st : Status) : (s.reclaimFailed st).lasting = s.lasting := by
  simp only [State.reclaimFailed, State.modLd_lasting, apply_ite State.lasting, ite_self]

theorem State.failRestore_lasting (s : State) (idx : ℕ) (st : Status) : (s.failRestore idx st).lasting = s.lasting := by
  simp only [State.failRestore, State.modSeq_lasting, State.reclaimFailed_lasting, State.lasting_mk, State.lasting_eta]

theorem State.letIn_lasting (s : State) (r : Req) (q : Seq) (wait : Bool) {t : State} (h : s.letIn r q wait = some t) :
    t.lasting = s.lasting := by
  unfold State.letIn at h
  grind [!State.waitReq_lasting, !State.endReq_lasting, !State.startRestore_lasting]

theorem State.accept_lasting (s : State) (r : ℕ) (after : List ℕ) : (s.accept r after).lasting = s.lasting := rfl

theorem State.turn_lasting (s : State) (r : Req) (h : ℕ) (go : State → State) (hgo : ∀ u, (go u).lasting = u.lasting) :
    (s.turn r h go).lasting = s.lasting := by
  unfold State.turn
  grind [!State.accept_lasting]

theorem State.blurRun_lasting (s : State) (n off len : ℕ) : (s.blurRun n off len).lasting = s.lasting := by
  unfold State.blurRun
  grind [!State.draw_lasting, !State.drawBytes_lasting, → State.writeFrame_lasting, getD_lasting]

theorem State.blurSlots_lasting (s : State) (g : Geom) (l n lo hi : ℕ) : (s.blurSlots g l n lo hi).lasting = s.lasting := by
  unfold State.blurSlots
  grind [!State.blurRun_lasting, !State.draw_lasting, !State.widenTouch_lasting, foldl_lasting]

theorem State.blurLayer_lasting (s : State) (x : Seq) (g : Geom) (l n : ℕ) : (s.blurLayer x g l n).lasting = s.lasting := by
  unfold State.blurLayer
  grind [!State.blurSlots_lasting, foldl_lasting]

theorem State.blurAppend_lasting (s : State) (r : Req) : (s.blurAppend r).lasting = s.lasting := by
  unfold State.blurAppend
  grind [!State.blurLayer_lasting, foldl_lasting]

end Sys2Proof.Machine
end

section

/-! What lasts under the definitions of `Sys2Proof/Machine/HostLog.lean`. -/

namespace Sys2Proof.Machine
open Sys2Proof

theorem State.logRecord_lasting (s : State) (ld log : ℕ) (x : EvRec) : (s.logRecord ld log x).lasting = s.lasting := by
  simp only [State.logRecord, State.modLd_lasting, State.raise_lasting]

theorem State.vendorRecord_lasting (s : State) (ld cause : ℕ) (write : Bool) (tenant dpa addr : ℕ) :
    (s.vendorRecord ld cause write tenant dpa addr).lasting = s.lasting := by
  simp only [State.vendorRecord, State.modLd_lasting, State.logRecord_lasting, apply_ite State.lasting, ite_self]

theorem State.dcRecord_lasting (s : State) (c : Comp) (ld kind region off len : ℕ) :
    (s.dcRecord c ld kind region off len).lasting = s.lasting := by
  simp only [State.dcRecord, State.logRecord_lasting]

theorem State.withdraw_lasting (s : State) (t a : ℕ) : (s.withdraw t a).lasting = s.lasting := by
  unfold State.withdraw
  dsimp only
  (repeat' split) <;> simp only [State.modLd_lasting, State.dcRecord_lasting, State.modComp_lasting]

theorem State.undefLine_lasting (s : State) (ld : ℕ) : (s.undefLine ld).lasting = s.lasting := rfl

theorem State.aerError_lasting (s : State) (ld : ℕ) : (s.aerError ld).lasting = s.lasting := by
  simp only [State.aerError, State.modLd_lasting, State.emit_lasting, apply_ite State.lasting, ite_self]

theorem State.mediaLine_lasting (s : State) (a : HostLine) : (s.mediaLine a).lasting = s.lasting := by
  simp only [State.mediaLine, State.undefLine_lasting, State.logRecord_lasting, State.aerError_lasting, State.withdraw_lasting, apply_ite
    State.lasting, ite_self]

theorem State.holdLine_lasting (s : State) (a : HostLine) : (s.holdLine a).lasting = s.lasting := rfl

theorem State.serveLine_lasting (s : State) (a : HostLine) : (s.serveLine a).lasting = s.lasting := by
  unfold State.serveLine
  grind [!State.undefLine_lasting, !State.logRecord_lasting, !State.count_lasting, !State.mediaLine_lasting, !State.emit_lasting,
    !State.putFrame_lasting, → State.writeFrame_lasting, → State.nodeRoom_lasting, !State.holdLine_lasting, !State.vendorRecord_lasting]

end Sys2Proof.Machine
end

section

/-! What lasts under the definitions of `Sys2Proof/Machine/Answers.lean`. -/

namespace Sys2Proof.Machine
open Sys2Proof

theorem State.mixAnswer_lasting (s : State) (q : Req) : (s.mixAnswer q).lasting = s.lasting := by
  unfold State.mixAnswer
  grind [!State.mix_lasting]

end Sys2Proof.Machine
end

section

/-! What lasts under the definitions of `Sys2Proof/Machine/Schedule.lean`. -/

namespace Sys2Proof.Machine
open Sys2Proof

theorem State.setNb_lasting (s : State) (u : NbUnit) : (s.setNb u).lasting = s.lasting := rfl

theorem State.sweepCmds_lasting (s : State) : (s.sweepCmds).lasting = s.lasting := rfl

theorem State.dropFrom_lasting (s : State) (p : Point) (r : ℕ) (q : List Job) : (s.dropFrom p r q).2.lasting = s.lasting := by
  unfold State.dropFrom
  grind [!State.tagHead_lasting]

theorem State.dropUnits_lasting (s : State) (r : ℕ) (xs : List NbUnit) : (s.dropUnits r xs).2.lasting = s.lasting := by
  fun_induction State.dropUnits s r xs <;> grind [!State.dropFrom_lasting]

theorem State.dropJobs_lasting (s : State) (r : ℕ) : (s.dropJobs r).lasting = s.lasting := by
  simp only [State.dropJobs, State.dropUnits_lasting, State.dropFrom_lasting, State.sweepCmds_lasting, State.lasting_mk,
    State.lasting_eta]

theorem State.refence_lasting (s : State) : (s.refence).lasting = s.lasting := rfl

theorem State.endWalks_lasting (s : State) (r : ℕ) : (s.endWalks r).lasting = s.lasting := rfl

theorem State.blurResult_lasting (s : State) (r : ℕ) (st : Status) : (s.blurResult r st).lasting = s.lasting := by
  unfold State.blurResult
  dsimp only
  (repeat' split) <;> simp only [State.blur_lasting, State.blurAppend_lasting, State.mixAnswer_lasting]

theorem State.putLine_lasting (s : State) (t : ℕ) (w : LineWrite) {u : State} (h : s.putLine t w = some u) : u.lasting = s.lasting := by
  unfold State.putLine at h
  grind [!State.putFrame_lasting, → State.writeFrame_lasting, !State.countExc_lasting, Option.map_eq_some_iff]

theorem State.putLines_lasting (s : State) (t : ℕ) (xs : List LineWrite) {u : State} (h : s.putLines t xs = some u) :
    u.lasting = s.lasting := by
  fun_induction State.putLines s t xs <;> grind [→ State.putLine_lasting]

theorem State.finishSteps_lasting (s : State) (p : ℕ → Bool) : (s.finishSteps p).lasting = s.lasting :=
  foldl_lasting (fun _ _ => getD_lasting fun _ h => State.putLines_lasting _ _ _ h) _ s

theorem State.abandon_lasting (s : State) (r : ℕ) (st : Status) : (s.abandon r st).lasting = s.lasting := by
  simp only [State.abandon, State.endReq_lasting, State.modReq_lasting, State.endWalks_lasting, State.dropJobs_lasting,
    State.blurResult_lasting, State.finishSteps_lasting]

end Sys2Proof.Machine
end

section

/-! What lasts under the definitions of `Sys2Proof/Machine/AttendWork.lean`. -/

namespace Sys2Proof.Machine
open Sys2Proof

theorem State.refSlots_lasting (sigma cap : F32) (q : List F32) (xs : List SeenSlot) (s : State) :
    (State.refSlots sigma cap q xs s).2.lasting = s.lasting := by
  fun_induction State.refSlots sigma cap q xs s <;> grind [!State.draw_lasting]

theorem State.reference_lasting (s : State) (e : BitVec 512) (g : Geom) (p : RowPlan) (blk : List Byte) (kv t h : ℕ) :
    (s.reference e g p blk kv t h).2.lasting = s.lasting := by
  simp only [State.reference, State.refSlots_lasting]

theorem State.recWork_lasting (s : State) (e : BitVec 512) (g : Geom) (blk : List Byte) (p : RowPlan) (t h : ℕ) :
    (s.recWork e g blk p t h).2.lasting = s.lasting := by
  simp only [State.recWork, State.reference_lasting]

theorem State.allRecs_lasting (s : State) (e : BitVec 512) (g : Geom) (blk : List Byte) (xs : List (RowPlan × ℕ × ℕ)) :
    (s.allRecs e g blk xs).2.lasting = s.lasting := by
  fun_induction State.allRecs s e g blk xs <;> grind [!State.recWork_lasting]

theorem State.drawRecord_lasting (s : State) (dv : ℕ) : (s.drawRecord dv).2.lasting = s.lasting := by
  unfold State.drawRecord
  dsimp only
  refine (foldl_snd_lasting ?_ _ _).trans ((State.drawBits_lasting _ 32).trans (State.drawBits_lasting s 32))
  exact fun a _ => State.drawBits_lasting a.2 32

theorem State.formPartial_lasting (s : State) (dv : ℕ) (r : RecWork) (pages : List ℕ) :
    (s.formPartial dv r pages).2.lasting = s.lasting := by
  simp only [State.formPartial, State.drawRecord_lasting]

theorem State.sendPartials_lasting (s : State) (dv : ℕ) (rs : List RecWork) (xs : List Partial) :
    (s.sendPartials dv rs xs).2.lasting = s.lasting := by
  fun_induction State.sendPartials s dv rs xs <;> grind [!State.formPartial_lasting]

end Sys2Proof.Machine
end

section

/-! What lasts under the definitions of `Sys2Proof/Machine/Sequences.lean`. -/

namespace Sys2Proof.Machine
open Sys2Proof

theorem State.needRoom_lasting (s : State) (r : Req) (rclass : ℕ) (needer : Option ℕ) (noPreempt : Bool) :
    (s.needRoom r rclass needer noPreempt).lasting = s.lasting := by
  unfold State.needRoom
  grind [→ State.reqRoom_lasting, !State.accept_lasting, !State.endReq_lasting]

theorem State.needSectors_lasting (s : State) (r : Req) (rclass : ℕ) (needer : Option ℕ) :
    (s.needSectors r rclass needer).lasting = s.lasting := by
  unfold State.needSectors
  grind [→ State.reqRoom_lasting, !State.waitReq_lasting, !State.endReq_lasting]

theorem State.store_lasting (s : State) (r : Req) (a : ℕ) (bs : List Byte) (go : State → State) (hgo : ∀ u, (go u).lasting = u.lasting) :
    (s.store r a bs go).lasting = s.lasting := by
  unfold State.store
  grind [→ State.writeTenant_done_lasting, → State.writeTenant_bad_lasting, !State.endReq_lasting, !State.needSectors_lasting]

theorem State.onSeq_lasting (s : State) (r : Req) (handle : ℕ) (go : Seq → State) (hgo : ∀ x, (go x).lasting = s.lasting) :
    (s.onSeq r handle go).lasting = s.lasting := by
  unfold State.onSeq
  grind [!State.endReq_lasting]

theorem State.countWalk_lasting (s : State) (t : ℕ) (w : Walked) : (s.countWalk t w).lasting = s.lasting := by
  simp only [State.countWalk, State.count_lasting, apply_ite State.lasting, ite_self]

theorem State.withPages_lasting (s : State) (r : Req) (q : Seq) (ps : List (ℕ × ℕ)) (go : State → State)
    (hgo : ∀ u, (go u).lasting = u.lasting) : (s.withPages r q ps go).lasting = s.lasting := by
  unfold State.withPages
  grind [!State.endReq_lasting, !State.countWalk_lasting]

theorem State.withTables_lasting (s : State) (r : Req) (a len : ℕ) (go : State → State) (hgo : ∀ u, (go u).lasting = u.lasting) :
    (s.withTables r a len go).lasting = s.lasting := by
  unfold State.withTables
  grind [!State.endReq_lasting]

theorem State.runEdit_lasting (s : State) (r op : ℕ) (f : Req → State → State) (hf : ∀ q u, (f q u).lasting = u.lasting) :
    (s.runEdit r op f).lasting = s.lasting := by
  unfold State.runEdit
  grind [State.runReq_lasting]

theorem State.okReq_lasting (s : State) (r : Req) (result : ℕ) : (s.okReq r result).lasting = s.lasting := rfl

theorem State.readScales_lasting (s : State) (y : Payer) (g : Geom) (a : ℕ) {v : List (BitVec 16)} {t : State}
    (h : s.readScales y g a = some (v, t)) : t.lasting = s.lasting := by
  unfold State.readScales at h
  grind [→ State.loadTenant_lasting]

theorem ite_lasting {c : Prop} [Decidable c] {s t u : State} (ht : t.lasting = s.lasting) (hu : u.lasting = s.lasting) :
    (if c then t else u).lasting = s.lasting := by
  split <;> assumption

theorem execGeomDefine_lasting (r : ℕ) (s : State) : Leaves s (execGeomDefine r s) := by
  refine leaves_next (State.runReq_lasting _ _ _ _ fun q u => State.checked_lasting _ _ _ _ fun u => ?_)
  split
  · exact State.endReq_lasting ..
  next hv => exact (State.okReq_lasting ..).trans (State.readScales_lasting _ _ _ _ hv :)

theorem execGeomRelease_lasting (r : ℕ) (s : State) : Leaves s (execGeomRelease r s) :=
  leaves_next (State.runReq_lasting _ _ _ _ fun _ _ => State.checked_lasting _ _ _ _ fun _ => State.okReq_lasting ..)

theorem State.enterSeq_lasting (s : State) (q : Seq) {v : ℕ} {t : State} (h : s.enterSeq q = some (v, t)) : t.lasting = s.lasting := by
  obtain ⟨idx, -, ht⟩ := Option.map_eq_some_iff.mp h
  cases ht
  rfl

theorem State.createSeq_lasting (s : State) (q : Req) (g : Geom) (len : ℕ) : (s.createSeq q g len).lasting = s.lasting := by
  unfold State.createSeq
  grind [!State.endReq_lasting, !State.okReq_lasting, → State.takeTables_lasting, → State.enterSeq_lasting]

theorem execSeqCreate_lasting (r : ℕ) (s : State) : Leaves s (execSeqCreate r s) := by
  refine leaves_next ?_
  grind [State.runEdit_lasting, !State.endReq_lasting, State.checked_lasting, State.withTables_lasting, !State.createSeq_lasting]

theorem State.sharePages_lasting (s : State) (src dst : Seq) (f : ℕ) (xs : List ((ℕ × ℕ) × ℕ × ℕ)) :
    (s.sharePages src dst f xs).lasting = s.lasting := by
  fun_induction State.sharePages s src dst f xs <;> simp_all only [State.cowEdit_lasting, State.mapFrame_lasting]

theorem State.forkTurn_lasting (s : State) (q : Req) (h : ℕ) (go : State → State) (hgo : ∀ u, (go u).lasting = u.lasting) :
    (s.forkTurn q h go).lasting = s.lasting := by
  unfold State.forkTurn
  grind [!State.accept_lasting]

theorem execFork_lasting (r : ℕ) (s : State) : Leaves s (execFork r s) := by
  refine leaves_next (State.runEdit_lasting _ _ _ _ fun q u => State.onSeq_lasting _ _ _ _ fun x => ?_)
  refine (State.forkTurn_lasting _ _ _ _ fun u => ?_).trans (State.modReq_lasting ..)
  split
  next hv => exact State.letIn_lasting _ _ _ _ hv
  refine ite_lasting (State.endReq_lasting ..) ?_
  refine State.withPages_lasting _ _ _ _ _ fun u => ?_
  split
  · exact State.waitReq_lasting ..
  refine State.checked_lasting _ _ _ _ fun u => State.withTables_lasting _ _ _ _ _ fun u => ?_
  dsimp only
  split
  · exact State.endReq_lasting ..
  next hv =>
    split
    · exact State.endReq_lasting ..
    next hw =>
      refine (State.okReq_lasting ..).trans ((State.sharePages_lasting ..).trans ?_)
      exact (State.enterSeq_lasting _ _ hw).trans (State.takeTables_lasting _ _ _ hv)

theorem State.applyWrites_lasting (s : State) (y : Payer) (n : ℕ) (xs : List (ℕ × List Byte)) {t : State}
    (h : s.applyWrites y n xs = some t) : t.lasting = s.lasting := by
  fun_induction State.applyWrites s y n xs <;> grind [→ State.writeFrame_lasting, !State.chargePins_lasting]

theorem State.copySlots_lasting (s : State) (g : Geom) (src dst n : ℕ) : (s.copySlots g src dst n).lasting = s.lasting := by
  unfold State.copySlots
  grind [!State.putFrame_lasting, foldl_lasting]

theorem State.repoint_lasting (s : State) (q : Seq) (f l p n : ℕ) : (s.repoint q f l p n).lasting = s.lasting := rfl

theorem State.settle_lasting (s : State) (n : ℕ) {t : State} (h : s.settle n = some t) : t.lasting = s.lasting := by
  unfold State.settle at h
  grind [!State.modFrame_lasting]

theorem State.cowCopy_lasting (s : State) (j : Job) (g : Geom) (old new n : ℕ) : (s.cowCopy j g old new n).lasting = s.lasting := by
  unfold State.cowCopy
  grind [!State.copyWork_lasting, !State.copySlots_lasting, foldl_lasting]

theorem State.cowPage_lasting (s : State) (j : Job) (q : Seq) (g : Geom) (l p old new : ℕ) {t : State}
    (h : s.cowPage j q g l p old new = some t) : t.lasting = s.lasting := by
  unfold State.cowPage at h
  grind [!State.modFrame_lasting, !State.cowEdit_lasting, !State.repoint_lasting, !State.releaseFrame_lasting, → State.settle_lasting,
    !State.touchWork_lasting, !State.widenTouch_lasting, Option.map_eq_some_iff]

theorem State.endMedia_lasting (s : State) (r n : ℕ) : (s.endMedia r n).lasting = s.lasting := by
  simp only [State.endMedia, State.endReq_lasting, State.count_lasting, apply_ite State.lasting, ite_self]

theorem State.installFrames_lasting (s : State) (a : Append) (xs : List ((ℕ × ℕ) × ℕ)) {t : State} (h : s.installFrames a xs = some t) :
    t.lasting = s.lasting := by
  fun_induction State.installFrames s a xs <;> grind [→ State.cowPage_lasting, !State.mapFrame_lasting]

theorem State.appendLayer_lasting (s : State) (a : Append) (bs : List Byte) (l : ℕ) (xs : List (ℕ × ℕ × ℕ)) {t : State}
    (h : s.appendLayer a bs l xs = some t) : t.lasting = s.lasting := by
  fun_induction State.appendLayer s a bs l xs <;> grind [→ State.applyWrites_lasting, !State.heatFrame_lasting, !State.countExc_lasting,
    !State.touchWork_lasting, !State.widenTouch_lasting]

theorem State.appendLayers_lasting (s : State) (a : Append) (bs : List Byte) (xs : List ℕ) {t : State}
    (h : s.appendLayers a bs xs = some t) : t.lasting = s.lasting := by
  fun_induction State.appendLayers s a bs xs <;> grind [→ State.appendLayer_lasting]

theorem State.source_lasting (s : State) (r : Req) (key off len : ℕ) (dma : List Byte) {v : List Byte} {t : State}
    (h : s.source r key off len dma = .ok (some (v, t))) : t.lasting = s.lasting := by
  unfold State.source at h
  split at h
  · grind
  · grind [→ State.holdKey_lasting, → State.loadTenant_lasting]

theorem State.appendSectors_lasting (s : State) (r : Req) (q : Seq) : (s.appendSectors r q).lasting = s.lasting := by
  unfold State.appendSectors
  grind [→ State.reqRoom_lasting, !State.waitReq_lasting, !State.endReq_lasting, !State.blurAppend_lasting]

theorem State.appendWrite_lasting (s : State) (r : Req) (a : Append) (l : List ((ℕ × ℕ) × ℕ)) (bs : List Byte) :
    (s.appendWrite r a l bs).lasting = s.lasting := by
  unfold State.appendWrite
  split
  · exact State.appendSectors_lasting ..
  · rename_i s3 h
    obtain ⟨u, hu, h3⟩ := Option.bind_eq_some_iff.mp h
    have written := (State.appendLayers_lasting _ _ _ _ h3).trans ((State.installFrames_lasting _ _ _ hu).trans (State.modReq_lasting ..))
    exact ((State.okReq_lasting ..).trans (State.modSeq_lasting ..)).trans written

theorem State.appendCopies_lasting (s : State) (r : Req) (a : Append) (l : List ((ℕ × ℕ) × ℕ)) (bs : List Byte) :
    (s.appendCopies r a l bs).lasting = s.lasting := by
  unfold State.appendCopies
  grind [!State.modReq_lasting, !State.cowCopy_lasting, !State.appendWrite_lasting, foldl_lasting]

theorem State.appendRun_lasting (s : State) (r : Req) (a : Append) (bs : List Byte) : (s.appendRun r a bs).lasting = s.lasting := by
  unfold State.appendRun
  dsimp only
  split
  · split
    · rfl
    · exact State.appendWrite_lasting ..
  split
  · exact State.endReq_lasting ..
  rename_i s1 tables
  have taken := State.takeTables_lasting _ _ _ tables
  split
  · exact State.endReq_lasting ..
  · exact State.needRoom_lasting ..
  rename_i l s2 frames
  have got := allocEach_lasting _ _ _ (fun lp u n t h => State.allocPage_lasting _ _ _ _ _ _ _ _ h) frames
  split
  · exact State.endMedia_lasting ..
  · exact State.endMedia_lasting ..
  · exact (State.appendCopies_lasting ..).trans (got.trans taken)

theorem execAppend_lasting (r : ℕ) (dma : List Byte) (s : State) : Leaves s (execAppend r dma s) := by
  refine leaves_next (State.runEdit_lasting _ _ _ _ fun q u => State.onSeq_lasting _ _ _ _ fun x => ?_)
  split
  · exact State.endReq_lasting ..
  refine State.checked_lasting _ _ _ _ fun u => State.turn_lasting _ _ _ _ fun u => ?_
  split
  next hv => exact State.letIn_lasting _ _ _ _ hv
  refine State.checked_lasting _ _ _ _ fun u => ?_
  split
  · exact State.endRead_lasting ..
  · rfl
  next hv =>
    refine (State.withPages_lasting _ _ _ _ _ fun u => ?_).trans (State.source_lasting _ _ _ _ _ _ hv)
    split
    · exact State.waitReq_lasting ..
    · exact State.appendRun_lasting ..

theorem execPageShare_lasting (r : ℕ) (s : State) : Leaves s (execPageShare r s) := by
  refine leaves_next (State.runEdit_lasting _ _ _ _ fun q u => State.onSeq_lasting _ _ _ _ fun x => ?_)
  refine State.onSeq_lasting _ _ _ _ fun y => State.turn_lasting _ _ _ _ fun u => ?_
  split
  next hv => exact State.letIn_lasting _ _ _ _ hv
  split
  next hv => exact State.letIn_lasting _ _ _ _ hv
  refine State.checked_lasting _ _ _ _ fun u => State.withPages_lasting _ _ _ _ _ fun u => State.withPages_lasting _ _ _ _ _ fun u => ?_
  split
  · exact State.waitReq_lasting ..
  refine State.checked_lasting _ _ _ _ fun u => ?_
  split
  · exact State.endReq_lasting ..
  next hv =>
    refine (State.okReq_lasting ..).trans ((State.modSeq_lasting ..).trans ((State.sharePages_lasting ..).trans ?_))
    exact State.takeTables_lasting _ _ _ hv

theorem execSeqPin_lasting (r : ℕ) (s : State) : Leaves s (execSeqPin r s) := by
  refine leaves_next ?_
  grind [State.runReq_lasting, State.onSeq_lasting, !State.okReq_lasting, !State.modSeq_lasting, !State.waitReq_lasting,
    State.checked_lasting]

theorem State.preemptNow_lasting (s : State) (q : Req) (x : Seq) : (s.preemptNow q x).lasting = s.lasting := by
  unfold State.preemptNow
  grind [→ State.startSwapOut_lasting, !State.endReq_lasting, !State.wake_lasting, !State.modSeq_lasting, !State.okReq_lasting,
    !State.waitReq_lasting]

theorem execSeqPreempt_lasting (r : ℕ) (s : State) : Leaves s (execSeqPreempt r s) := by
  refine leaves_next ?_
  grind [State.runReq_lasting, State.onSeq_lasting, !State.accept_lasting, !State.modSeq_lasting, !State.preemptNow_lasting,
    !State.waitReq_lasting, !State.okReq_lasting]

theorem execSeqRestore_lasting (r : ℕ) (s : State) : Leaves s (execSeqRestore r s) := by
  refine leaves_next ?_
  grind [State.runReq_lasting, State.onSeq_lasting, !State.okReq_lasting, !State.waitReq_lasting, !State.startRestore_lasting]

theorem execRestoreFailed_lasting (seq : ℕ) (st : Status) (s : State) : Leaves s (execRestoreFailed seq st s) := by
  refine leaves_next ?_
  (repeat' split) <;> simp only [State.failRestore_lasting]

theorem State.unmapAll_lasting (s : State) (xs : List Mapping) (n : ℕ) : (s.unmapAll xs n).1.lasting = s.lasting := by
  fun_induction State.unmapAll s xs n <;> simp_all only [State.cowEdit_lasting, State.unmapOne_lasting]

theorem State.destroySeq_lasting (s : State) (q : Req) (x : Seq) : (s.destroySeq q x).lasting = s.lasting := by
  simp only [State.destroySeq, State.unmapAll_lasting, State.modMem_lasting, State.okReq_lasting, State.lasting_mk, State.lasting_eta]

theorem State.destroyWait_lasting (s : State) (q : Req) (x : Seq) (after : List ℕ) : (s.destroyWait q x after).lasting = s.lasting := by
  unfold State.destroyWait
  grind [!State.waitReq_lasting, !State.destroySeq_lasting]

theorem execSeqDestroy_lasting (r : ℕ) (s : State) : Leaves s (execSeqDestroy r s) := by
  refine leaves_next (State.runEdit_lasting _ _ _ _ fun q u => ?_)
  split
  · exact State.endReq_lasting ..
  split
  · exact State.destroyWait_lasting ..
  · refine (State.destroyWait_lasting ..).trans ((State.accept_lasting ..).trans ?_)
    exact (State.psForget_lasting ..).trans (State.modSeq_lasting ..)

theorem State.rebuildFor_lasting (s : State) (j : Job) (g : Geom) (layer n count : ℕ) :
    (s.rebuildFor j g layer n count).2.lasting = s.lasting := by
  simp only [State.rebuildFor, State.rebuildTouch_lasting, State.touchWork_lasting, apply_ite State.lasting, ite_self]

theorem State.rebuildTails_lasting (s : State) (j : Job) (x : Seq) (g : Geom) (k : ℕ) (xs : List ℕ) :
    (s.rebuildTails j x g k xs).lasting = s.lasting := by
  fun_induction State.rebuildTails s j x g k xs <;> simp_all only [State.rebuildFor_lasting]

theorem execSeqTruncate_lasting (r : ℕ) (s : State) : Leaves s (execSeqTruncate r s) := by
  refine leaves_next ?_
  grind [State.runEdit_lasting, State.onSeq_lasting, State.turn_lasting, → State.letIn_lasting, State.withPages_lasting,
    !State.waitReq_lasting, !State.modSeq_lasting, !State.psForget_lasting, !State.unmapAll_lasting, !State.rebuildTails_lasting,
    !State.okReq_lasting]

theorem execSeqQuery_lasting (r : ℕ) (s : State) : Leaves s (execSeqQuery r s) := by
  refine leaves_next ?_
  grind [State.runReq_lasting, State.onSeq_lasting, State.store_lasting, !State.okReq_lasting]

theorem execSeqFence_lasting (r : ℕ) (s : State) : Leaves s (execSeqFence r s) := by
  refine leaves_next ?_
  grind [State.runReq_lasting, !State.waitReq_lasting, !State.modReq_lasting, !State.okReq_lasting]

theorem execSeqFenceTimeout_lasting (r : ℕ) (s : State) : Leaves s (execSeqFenceTimeout r s) := by
  refine leaves_next ?_
  (repeat' split) <;> simp only [State.endReq_lasting]

theorem execQuarantineEnd_lasting (item : ℕ) (s : State) : Leaves s (execQuarantineEnd item s) := by
  refine leaves_next ?_
  (repeat' split) <;> simp only [State.endQuarantine_lasting]

theorem execMap_lasting (r : ℕ) (s : State) : Leaves s (execMap r s) := by
  refine leaves_next (State.runEdit_lasting _ _ _ _ fun q u => State.checked_lasting _ _ _ _ fun u => ?_)
  refine State.withTables_lasting _ _ _ _ _ fun u => ?_
  split
  · exact State.endReq_lasting ..
  next hv =>
    split
    · exact State.endReq_lasting ..
    · exact State.needRoom_lasting ..
    next hw =>
      refine (State.okReq_lasting ..).trans ((foldl_lasting (fun _ _ => State.mapFrame_lasting ..) _ _).trans ?_)
      refine (allocEach_lasting _ _ _ (fun _ _ _ _ h => ?_) hw).trans (State.takeTables_lasting _ _ _ hv)
      exact State.allocPlain_lasting _ _ _ _ _ _ h

theorem State.withRun_lasting (s : State) (q : Req) (go : List Mapping → State) (hgo : ∀ x, (go x).lasting = s.lasting) :
    (s.withRun q go).lasting = s.lasting := by
  unfold State.withRun
  grind [!State.endReq_lasting, !State.countWalk_lasting]

theorem execUnmap_lasting (r : ℕ) (s : State) : Leaves s (execUnmap r s) := by
  refine leaves_next ?_
  grind [State.runEdit_lasting, State.withRun_lasting, !State.unmapAll_lasting, !State.okReq_lasting]

theorem execRemap_lasting (r : ℕ) (s : State) : Leaves s (execRemap r s) := by
  refine leaves_next ?_
  grind [State.runEdit_lasting, State.withRun_lasting, State.checked_lasting, State.withTables_lasting, → State.takeTables_lasting,
    !State.endReq_lasting, !State.modMem_lasting, !State.okReq_lasting, !State.tlbDrop_lasting]

end Sys2Proof.Machine
end

section

/-! What lasts under the definitions of `Sys2Proof/Machine/Tiers.lean`. -/

namespace Sys2Proof.Machine
open Sys2Proof

theorem execHeatPeriodExpiry_lasting (s : State) : Leaves s (execHeatPeriodExpiry s) := leaves_next rfl

theorem State.startUp_lasting (s : State) (f : Frame) (req : Option ℕ) (hold : Bool) {t : State} (h : s.startUp f req hold = some t) :
    t.lasting = s.lasting := by
  unfold State.startUp at h
  grind [!State.modFrame_lasting, !State.enterMove_lasting, Option.map_eq_some_iff]

theorem State.demoteOne_lasting (s : State) : (s.demoteOne).lasting = s.lasting := by
  unfold State.demoteOne
  grind [!State.modMem_lasting, → State.startDown_lasting, getD_lasting]

theorem execDemotionStart_lasting (s : State) : Leaves s (execDemotionStart s) := by
  refine leaves_next ?_
  simp only [State.demoteOne_lasting, State.modMem_lasting, apply_ite State.lasting, ite_self]

theorem execPromotionStart_lasting (frame : ℕ) (s : State) : Leaves s (execPromotionStart frame s) := by
  refine leaves_next ?_
  split
  · rfl
  split
  · rfl
  split
  · exact getD_lasting fun t h => State.startUp_lasting _ _ _ _ h
  split
  · split
    · exact getD_lasting fun t h => State.startDown_lasting _ _ _ _ _ h
    · rfl
  · rfl

theorem State.switchFrame_lasting (s : State) (f : Frame) (m : Migration) : (s.switchFrame f m).lasting = s.lasting := by
  unfold State.switchFrame
  dsimp only
  (repeat' split) <;> simp only [State.modFrame_lasting, State.switchPlace_lasting, State.count_lasting, State.chargeAt_lasting]

theorem State.promoteNext_lasting (s : State) (m : Migration) : (s.promoteNext m).lasting = s.lasting := by
  unfold State.promoteNext
  grind [!State.giveUpper_lasting, → State.startUp_lasting, getD_lasting]

theorem execMigrationSwitch_lasting (frame : ℕ) (s : State) : Leaves s (execMigrationSwitch frame s) := by
  refine leaves_next ?_
  (repeat' split) <;> simp only [State.modFrame_lasting, State.tierEnd_lasting, State.promoteNext_lasting, State.switchFrame_lasting]

theorem State.tierMove_lasting (s : State) (r : ℕ) (targets : List ℕ) (go : Req → List Frame → ℕ → State → State)
    (hgo : ∀ q x n u, (go q x n u).lasting = u.lasting) : (s.tierMove r targets go).lasting = s.lasting := by
  unfold State.tierMove
  grind [State.runReq_lasting, !State.accept_lasting, State.checked_lasting, State.withTables_lasting, !State.endReq_lasting,
    !State.countWalk_lasting, !State.waitReq_lasting]

theorem startMoves_lasting (f : Frame → State → Option State) (xs : List Frame) (s : State) {t : State}
    (hf : ∀ f' u t, f f' u = some t → t.lasting = u.lasting) (h : startMoves f xs s = some t) : t.lasting = s.lasting := by
  fun_induction startMoves f xs s <;> grind

theorem State.tierBegun_lasting (s : State) (q : Req) (moves : List Frame) (changed skipped : ℕ) :
    (s.tierBegun q moves changed skipped).lasting = s.lasting := by
  simp only [State.tierBegun, State.okReq_lasting, State.waitReq_lasting, State.modReq_lasting, apply_ite State.lasting, ite_self]

theorem State.demoteFor_lasting (s : State) {t : State} (h : s.demoteFor = some t) : t.lasting = s.lasting := by
  unfold State.demoteFor at h
  grind [→ State.startDown_lasting]

theorem execTierMoveUp_lasting (r : ℕ) (s : State) : Leaves s (execTierMoveUp r s) := by
  refine leaves_next ?_
  grind [State.tierMove_lasting, startMoves_lasting, → State.startUp_lasting, !State.modFrame_lasting, !State.tierBegun_lasting,
    !State.endReq_lasting, → State.demoteFor_lasting, !State.accept_lasting, foldl_lasting]

theorem execTierMoveDown_lasting (r : ℕ) (s : State) : Leaves s (execTierMoveDown r s) := by
  refine leaves_next ?_
  grind [State.tierMove_lasting, !State.modFrame_lasting, startMoves_lasting, → State.startDown_lasting, !State.tierBegun_lasting,
    !State.endReq_lasting, foldl_lasting]

theorem execTierMoveHold_lasting (r : ℕ) (s : State) : Leaves s (execTierMoveHold r s) := by
  refine leaves_next ?_
  grind [State.tierMove_lasting, !State.modFrame_lasting, !State.tierBegun_lasting, foldl_lasting]

theorem execLowerUnitRmw_lasting (frame off : ℕ) (bytes : List Byte) (s : State) : Leaves s (execLowerUnitRmw frame off bytes s) := by
  refine leaves_next ?_
  grind [→ State.writeFrame_lasting, → State.nodeRoom_lasting, getD_lasting]

theorem execImageCompaction_lasting (frame : ℕ) (s : State) : Leaves s (execImageCompaction frame s) := by
  refine leaves_next ?_
  grind [→ State.compact_lasting, getD_lasting]

theorem State.metaLost_lasting (s : State) (x : Stall) (time : ℕ) : (s.metaLost x time).lasting = s.lasting := by
  unfold State.metaLost
  dsimp only
  (repeat' split) <;> simp only [State.count_lasting, State.modMem_lasting, State.abandon_lasting, State.tierEnd_lasting,
    State.emit_lasting, State.raise_lasting]

theorem State.metaPlaces_lasting (s : State) (k : MetaKind) (t key : ℕ) : (s.metaPlaces k t key).2.lasting = s.lasting := by
  unfold State.metaPlaces
  dsimp only
  (repeat' split) <;> simp only [State.drawSpot_lasting, State.drawMirrors_lasting]

theorem State.stallMeta_lasting (s : State) (k : MetaKind) (t key : ℕ) (req : Option ℕ) (err : Bool) :
    (s.stallMeta k t key req err).lasting = s.lasting := by
  simp only [State.stallMeta, State.metaPlaces_lasting, State.count_lasting, State.modMem_lasting, apply_ite State.lasting, ite_self]

theorem State.retireCopies_lasting (s : State) (x : Stall) : (s.retireCopies x).lasting = s.lasting := by
  unfold State.retireCopies
  grind [!State.moveTables_lasting, !State.retireFree_lasting, foldl_lasting]

theorem execPrivilegedReadRetry_lasting (id : ℕ) (ok : Bool) (time : ℕ) (s : State) : Leaves s (execPrivilegedReadRetry id ok time s) := by
  refine leaves_next ?_
  (repeat' split) <;> simp only [State.tierEnd_lasting, State.modMem_lasting, State.retireCopies_lasting, State.count_lasting,
    State.metaLost_lasting]

theorem State.swapOutDone_lasting (s : State) (idx : ℕ) : (s.swapOutDone idx).lasting = s.lasting := rfl

theorem State.frameOut_lasting (s : State) (f : Frame) (seq a c : ℕ) : (s.frameOut f seq a c).lasting = s.lasting := by
  simp only [State.frameOut, State.modFrame_lasting, State.zeroBad_lasting, State.newSerial_lasting, State.emit_lasting,
    State.count_lasting, State.tlbDrop_lasting, State.quarantine_lasting, apply_ite State.lasting, ite_self]

theorem execSwapOutFrameDone_lasting (frame : ℕ) (s : State) : Leaves s (execSwapOutFrameDone frame s) := by
  refine leaves_next ?_
  (repeat' split) <;> simp only [State.modSeq_lasting, State.frameOut_lasting, State.swapOutDone_lasting, apply_ite State.lasting,
    ite_self]

theorem State.swapOutFailed_lasting (s : State) (q : Seq) : (s.swapOutFailed q).lasting = s.lasting := by
  refine (State.wake_lasting ..).trans ?_
  simp only [State.lasting_mk, State.lasting_eta, State.modSeq_lasting]
  exact foldl_lasting (fun _ _ => State.modFrame_lasting ..) _ s

theorem execSwapOutFailure_lasting (frame : ℕ) (s : State) : Leaves s (execSwapOutFailure frame s) := by
  refine leaves_next ?_
  (repeat' split) <;> simp only [State.swapOutFailed_lasting]

theorem State.restoreRoom_lasting (s : State) (q : Seq) {t : State} (h : s.restoreRoom q = some t) : t.lasting = s.lasting := by
  unfold State.restoreRoom at h
  grind [!State.modSeq_lasting, → State.makeRoom_lasting, Option.map_eq_some_iff]

theorem State.restoreDone_lasting (s : State) (q : Seq) : (s.restoreDone q).lasting = s.lasting := rfl

theorem State.frameIn_lasting (s : State) (f : Frame) (g : Geom) (l : ℕ) {t : State} (h : s.frameIn f g l = some t) :
    t.lasting = s.lasting := by
  unfold State.frameIn at h
  grind [!State.modFrame_lasting, !State.quarantine_lasting, → State.placeBlock_lasting, !State.touchWork_lasting,
    !State.widenTouch_lasting]

theorem State.restoreFrame_lasting (s : State) (f : Frame) (q : Seq) (l : ℕ) : (s.restoreFrame f q l).lasting = s.lasting := by
  unfold State.restoreFrame
  grind [!State.failRestore_lasting, → State.frameIn_lasting, → State.restoreRoom_lasting, !State.modSeq_lasting, !State.count_lasting,
    !State.restoreDone_lasting]

theorem State.imageRead_lasting (s : State) (f : Frame) (total : ℕ) : (s.imageRead f total).2.lasting = s.lasting := by
  unfold State.imageRead
  dsimp only
  (repeat' split) <;> simp only [State.drawBytes_lasting]

theorem execRestoreFrameReadDone_lasting (frame : ℕ) (hdr : BitVec 512) (decodes : Bool) (s : State) :
    Leaves s (execRestoreFrameReadDone frame hdr decodes s) := by
  refine leaves_next ?_
  (repeat' split) <;> simp only [State.restoreFrame_lasting, State.imageRead_lasting, State.failRestore_lasting]

theorem execRestoreDmaTimeout_lasting (frame : ℕ) (s : State) : Leaves s (execRestoreDmaTimeout frame s) := by
  refine leaves_next ?_
  (repeat' split) <;> simp only [State.failRestore_lasting]

end Sys2Proof.Machine
end

section

/-! What lasts under the definitions of `Sys2Proof/Machine/LoanOps.lean`. -/

namespace Sys2Proof.Machine
open Sys2Proof

theorem State.loadU32s_lasting (s : State) (y : Payer) (a n : ℕ) {v : List ℕ} {t : State} (h : s.loadU32s y a n = .ok (v, t)) :
    t.lasting = s.lasting := by
  unfold State.loadU32s at h
  grind [→ State.loadTenant_lasting]

theorem State.loanRows_lasting (s : State) (y : Payer) (d : List Byte) {v : List ℕ} {t : State} (h : s.loanRows y d = .ok (v, t)) :
    t.lasting = s.lasting := by
  unfold State.loanRows at h
  grind [→ State.loadU32s_lasting]

theorem State.gatherIndices_lasting (s : State) (y : Payer) (d : List Byte) {v w : List ℕ} {t : State}
    (h : s.gatherIndices y d = .ok (v, w, t)) : t.lasting = s.lasting := by
  unfold State.gatherIndices at h
  grind [→ State.loadU32s_lasting]

theorem State.gatherPlan_lasting (s : State) (y : Payer) (d : List Byte) (rows : List ℕ) {v : LoanPlan} {t : State}
    (h : s.gatherPlan y d rows = .ok (v, t)) : t.lasting = s.lasting := by
  unfold State.gatherPlan at h
  split at h
  · cases h
  rename_i offs idx u indices
  split at h
  · cases h
  dsimp only at h
  rename_i outs _
  revert h
  cases eachRow _ (gatherEntries rows offs idx) with
  | error e => intro h; cases h
  | ok l => intro h; cases h; exact State.gatherIndices_lasting _ _ _ indices

theorem State.loanPlan_lasting (s : State) (y : Payer) (op : ℕ) (d : List Byte) {v : LoanPlan} {t : State}
    (h : s.loanPlan y op d = .ok (v, t)) : t.lasting = s.lasting := by
  unfold State.loanPlan at h
  grind [→ State.loanRows_lasting, → State.gatherPlan_lasting]

theorem State.normRow_lasting (s : State) (d : List Byte) (st xs gs bs : List F32) : (s.normRow d st xs gs bs).2.lasting = s.lasting := by
  refine foldl_snd_lasting ?_ _ (([] : List F32), s)
  exact fun a _ => State.drawBits_lasting a.2 32

theorem State.rowVals_lasting (s : State) (op : ℕ) (d : List Byte) (st : List F32) (rd : RowBytes) :
    (s.rowVals op d st rd).2.lasting = s.lasting := by
  unfold State.rowVals
  dsimp only
  (repeat' split) <;> simp only [State.normRow_lasting]

theorem State.outLines_lasting (s : State) (w : LoanWork) (r : LoanRow) (item base lo hi : ℕ) (rd : RowBytes) :
    (s.outLines w r item base lo hi rd).2.lasting = s.lasting := by
  simp only [State.outLines, State.rowVals_lasting]

theorem State.putRow_lasting (s : State) (r : LoanRow) (off : ℕ) (bs : List Byte) {t : State} (h : s.putRow r off bs = some t) :
    t.lasting = s.lasting := by
  unfold State.putRow at h
  grind [→ State.putLine_lasting]

theorem State.reduceElem_lasting (s : State) (kind : ℕ) (xs : List F32) : (s.reduceElem kind xs).2.lasting = s.lasting := by
  unfold State.reduceElem
  dsimp only
  (repeat' split) <;> simp only [State.drawBits_lasting]

theorem State.reduceRow_lasting (s : State) (kind cols : ℕ) (vs : List (List F32)) : (s.reduceRow kind cols vs).2.lasting = s.lasting := by
  refine foldl_snd_lasting ?_ _ (([] : List F32), s)
  exact fun a i => State.reduceElem_lasting a.2 kind (column vs i)

theorem State.gatherOut_lasting (s : State) (t : ℕ) (w : LoanWork) (xs : List (LoanRow × ℕ)) {u : State}
    (h : s.gatherOut t w xs = some u) : u.lasting = s.lasting := by
  fun_induction State.gatherOut s t w xs <;> grind [!State.reduceRow_lasting, → State.putRow_lasting, !State.countExc_lasting]

end Sys2Proof.Machine
end

section

/-! What lasts under the definitions of `Sys2Proof/Machine/Engine.lean`. -/

namespace Sys2Proof.Machine
open Sys2Proof

theorem State.setCore_lasting (s : State) (x : CoreSt) : (s.setCore x).lasting = s.lasting := rfl

theorem State.modAtt_lasting (s : State) (r : ℕ) (f : AttWork → AttWork) : (s.modAtt r f).lasting = s.lasting := rfl

theorem State.endWalk_lasting (s : State) (r n : ℕ) : (s.endWalk r n).lasting = s.lasting := by
  unfold State.endWalk
  grind [!State.refence_lasting, !State.modMem_lasting]

theorem State.dropBlock_lasting (s : State) (r : ℕ) (b : Block) : (s.dropBlock r b).lasting = s.lasting := by
  simp only [State.dropBlock, State.endWalk_lasting, State.modAtt_lasting]

theorem State.beginRead_lasting (s : State) (j : Job) (p : Part) : (s.beginRead j p).2.lasting = s.lasting := by
  unfold State.beginRead
  dsimp only
  (repeat' split) <;> simp only [State.modAtt_lasting, State.dropBlock_lasting]

theorem State.modLoan_lasting (s : State) (r : ℕ) (f : LoanWork → LoanWork) : (s.modLoan r f).lasting = s.lasting := rfl

theorem State.partWaits_lasting (s : State) (j : Job) (p : Part) : (s.partWaits j p).lasting = s.lasting := by
  unfold State.partWaits
  split
  · rename_i u h
    obtain ⟨q, -, hq⟩ := Option.bind_eq_some_iff.mp h
    exact (State.enqueue_lasting ..).trans (State.reqRoom_lasting _ _ _ _ _ hq)
  · exact State.abandon_lasting ..

theorem State.toBuffer_lasting (s : State) (n : ℕ) (k : BufKey) (bs : List Byte) : (s.toBuffer n k bs).lasting = s.lasting := rfl

theorem State.fetchRow_lasting (s : State) (n : ℕ) (x : BufKey × ℕ × ℕ × ℕ) : (s.fetchRow n x).lasting = s.lasting := by
  unfold State.fetchRow
  dsimp only
  (repeat' split) <;> simp only [State.toBuffer_lasting, State.setNb_lasting]

theorem State.normStats_lasting (s : State) (j : Job) (w : LoanWork) (rd : RowBytes) (p : Part) :
    (s.normStats j w rd p).lasting = s.lasting := by
  simp only [State.normStats, State.modLoan_lasting, apply_ite State.lasting, ite_self]

theorem State.beginRow_lasting (s : State) (n : Option ℕ) (j : Job) (p : Part) : (s.beginRow n j p).2.lasting = s.lasting := by
  unfold State.beginRow
  dsimp only
  (repeat' split) <;> simp only [State.abandon_lasting, State.count_lasting, State.modLoan_lasting, State.normStats_lasting,
    State.outLines_lasting]

theorem State.beginCopy_lasting (s : State) (j : Job) (c : CopySpec) (p : Part) : (s.beginCopy j c p).2.lasting = s.lasting := by
  unfold State.beginCopy
  dsimp only
  (repeat' split) <;> simp only [State.abandon_lasting]

theorem State.beginParts_lasting (s : State) (n : Option ℕ) (j : Job) (xs : List Part) : (s.beginParts n j xs).2.lasting = s.lasting := by
  fun_induction State.beginParts s n j xs <;> grind [!State.beginCopy_lasting, !State.beginRead_lasting, !State.beginRow_lasting]

theorem State.beginJob_lasting (s : State) (n : Option ℕ) (j : Job) : (s.beginJob n j).2.lasting = s.lasting := by
  unfold State.beginJob
  dsimp only
  (repeat' split) <;> simp only [State.beginParts_lasting, State.setNb_lasting]

theorem State.setStep_lasting (s : State) (n : ℕ) (j : Option Job) : (s.setStep n j).lasting = s.lasting := rfl

theorem State.endHostWalk_lasting (s : State) (x : HostLine) : (s.endHostWalk x).lasting = s.lasting := rfl

theorem State.serveLines_lasting (s : State) (xs : List LineAcc) : (s.serveLines xs).2.lasting = s.lasting := by
  fun_induction State.serveLines s xs <;> simp_all only [State.endHostWalk_lasting, State.serveLine_lasting, State.toBuffer_lasting]

theorem State.drainLines_lasting (s : State) (n : ℕ) : (s.drainLines n).lasting = s.lasting := by
  simp only [State.drainLines, State.serveLines_lasting, State.setNb_lasting]

theorem State.startUnit_lasting (n k : ℕ) (s : State) : (State.startUnit n k s).lasting = s.lasting := by
  induction n generalizing s with
  | zero => rfl
  | succ n ih =>
    unfold State.startUnit
    dsimp only
    split
    · rfl
    split
    · rfl
    have fetched : ∀ l : List (BufKey × ℕ × ℕ × ℕ), (l.foldl (fun s x => s.fetchRow k x) s).lasting = s.lasting := fun l => foldl_lasting
      (fun u x => State.fetchRow_lasting u k x) l s
    split
    · exact (ih _).trans (fetched _)
    · grind [!State.takeHead_lasting, !State.beginJob_lasting, !State.setStep_lasting, !State.sweepCmds_lasting, !State.setNb_lasting]

theorem State.kickUnit_lasting (s : State) (n : ℕ) : (s.kickUnit n).lasting = s.lasting := by
  simp only [State.kickUnit, State.startUnit_lasting]

theorem State.streamPiece_lasting (s : State) (c : ℕ) (j : Job) : (s.streamPiece c j).lasting = s.lasting := by
  simp only [State.streamPiece, State.enterLower_lasting, apply_ite State.lasting, ite_self]

theorem State.startCore_lasting (n k : ℕ) (s : State) : (State.startCore n k s).lasting = s.lasting := by
  induction n generalizing s with
  | zero => rfl
  | succ n ih =>
    unfold State.startCore
    dsimp only
    split
    · rfl
    split
    · rfl
    · have begun := State.beginJob_lasting
      grind
        [!State.takeHead_lasting, !State.beginJob_lasting, !State.setCore_lasting, !State.streamPiece_lasting, State.lasting_mk, State.lasting_eta]

theorem State.kickCore_lasting (s : State) (c : ℕ) : (s.kickCore c).lasting = s.lasting := by
  simp only [State.kickCore, State.startCore_lasting]

theorem State.dispatchCore_lasting (s : State) (j : Job) (planned : ℕ) : (s.dispatchCore j planned).lasting = s.lasting := by
  unfold State.dispatchCore
  dsimp only
  (repeat' split) <;> simp only [State.enqueue_lasting, State.kickCore_lasting, State.lasting_mk, State.lasting_eta]

theorem State.queueSteps_lasting (s : State) (n : ℕ) (xs : List Job) : (s.queueSteps n xs).lasting = s.lasting := by
  fun_induction State.queueSteps s n xs <;> grind [!State.enqueue_lasting, !State.setNb_lasting]

theorem State.issueCmd_lasting (s : State) (c : NbCmd) (slot base : ℕ) : (s.issueCmd c slot base).lasting = s.lasting := by
  unfold State.issueCmd
  split
  · exact State.abandon_lasting ..
  · exact (foldl_lasting State.kickUnit_lasting _ _).trans (foldl_lasting (fun _ _ => State.queueSteps_lasting ..) _ _)

theorem State.issueAll_lasting (n : ℕ) (s : State) : (State.issueAll n s).lasting = s.lasting := by
  fun_induction State.issueAll n s <;> simp_all only [State.issueCmd_lasting]

theorem State.pump_lasting (s : State) : (s.pump).lasting = s.lasting := by
  unfold State.pump
  grind [!State.sweepCmds_lasting, !State.ltPump_lasting, !State.issueAll_lasting, !State.kickUnit_lasting, !State.drainLines_lasting,
    !State.kickCore_lasting, foldl_lasting]

theorem State.dispatchBlocks_lasting (s : State) (q : Req) (bs : List Block) : (s.dispatchBlocks q bs).lasting = s.lasting := by
  unfold State.dispatchBlocks
  grind [!State.broadcast_lasting, !State.dispatchCore_lasting, !State.pump_lasting, foldl_lasting]

theorem State.publish_lasting (s : State) (r : ℕ) (b : Block) (k n : ℕ) (xs : List ℕ) : (s.publish r b k n xs).lasting = s.lasting := by
  fun_induction State.publish s r b k n xs <;> grind [!State.drawBits_lasting, !State.modAtt_lasting]

theorem State.followWave_lasting (s : State) (r : ℕ) (ready : List ℕ) : (s.followWave r ready).lasting = s.lasting := by
  unfold State.followWave
  grind [!State.modAtt_lasting, !State.endWalk_lasting, !State.dispatchBlocks_lasting, foldl_lasting]

theorem State.leadDone_lasting (s : State) (r : ℕ) (b : Block) : (s.leadDone r b).lasting = s.lasting := by
  unfold State.leadDone
  grind [!State.followWave_lasting, !State.modAtt_lasting]

theorem State.combine_lasting (s : State) (j : Job) (b : Block) : (s.combine j b).lasting = s.lasting := by
  unfold State.combine
  dsimp only
  (repeat' split) <;> simp only [State.sendPartials_lasting, State.modAtt_lasting]

theorem State.attPart_lasting (s : State) (j : Job) (p : Part) : (s.attPart j p).lasting = s.lasting := by
  unfold State.attPart
  dsimp only
  (repeat' split) <;> simp only [State.abandon_lasting, State.count_lasting, State.publish_lasting, State.leadDone_lasting,
    State.chargeAt_lasting, State.dropBlock_lasting, State.modAtt_lasting, State.combine_lasting]

theorem State.rowPart_lasting (s : State) (j : Job) (p : Part) : (s.rowPart j p).lasting = s.lasting := by
  unfold State.rowPart
  grind [!State.chargePins_lasting, !State.modLoan_lasting, foldl_lasting]

theorem State.rowEnd_lasting (s : State) (j : Job) (p : Part) : (s.rowEnd j p).lasting = s.lasting := by
  unfold State.rowEnd
  grind [→ State.putLines_lasting, !State.rowPart_lasting, !State.partWaits_lasting]

theorem State.stepDone_lasting (s : State) (j : Job) : (s.stepDone j).lasting = s.lasting := by
  unfold State.stepDone
  grind [→ State.putLines_lasting, !State.attPart_lasting, !State.rowEnd_lasting, foldl_lasting, getD_lasting]

theorem State.boundary_lasting (s : State) (n : ℕ) : (s.boundary n).lasting = s.lasting := by
  simp only [State.boundary, State.setNb_lasting, State.pump_lasting, State.kickUnit_lasting, State.drainLines_lasting]

theorem State.chargeStep_lasting (s : State) (r : ℕ) (j : Job) : (s.chargeStep r j).lasting = s.lasting := by
  simp only [State.chargeStep, State.charge_lasting, apply_ite State.lasting, ite_self]

theorem execNearBankStepEnd_lasting (unit : ℕ) (s : State) : Leaves s (execNearBankStepEnd unit s) := by
  refine leaves_next ?_
  (repeat' split) <;> simp only [State.boundary_lasting, State.stepDone_lasting, State.chargeStep_lasting]

theorem State.unread_lasting (s : State) (r : ℕ) (p : Part) : (s.unread r p).lasting = s.lasting := rfl

theorem State.cutStep_lasting (s : State) (n : ℕ) (j : Job) : (s.cutStep n j).lasting = s.lasting := by
  unfold State.cutStep
  grind [!State.draw_lasting, !State.setNb_lasting, !State.unread_lasting, !State.tagHead_lasting, foldl_lasting]

theorem execRefreshDue_lasting (unit : ℕ) (s : State) : Leaves s (execRefreshDue unit s) := by
  refine leaves_next ?_
  grind [!State.setNb_lasting, !State.cutStep_lasting]

theorem execAttentionCorePieceEnd_lasting (core : ℕ) (s : State) : Leaves s (execAttentionCorePieceEnd core s) := by
  refine leaves_next ?_
  (repeat' split) <;> simp only [State.stepDone_lasting, State.chargeStep_lasting, State.pump_lasting, State.kickCore_lasting,
    State.setCore_lasting]

theorem State.dispatchRows_lasting (s : State) (q : Req) (op : ℕ) (d : List Byte) (rows : List (ℕ × LoanRow)) :
    (s.dispatchRows q op d rows).lasting = s.lasting := by
  unfold State.dispatchRows
  grind [!State.broadcast_lasting, !State.modLoan_lasting, !State.dispatchCore_lasting, !State.pump_lasting, foldl_lasting]

theorem State.planFailed_lasting (s : State) (y : Payer) (op : ℕ) (d : List Byte) (st : Status) :
    (s.planFailed y op d st).lasting = s.lasting := by
  unfold State.planFailed
  dsimp only
  (repeat' split) <;> simp only [State.noteFailed_lasting, State.count_lasting]

theorem State.nbExec_lasting (s : State) (r op : ℕ) : (s.nbExec r op).lasting = s.lasting := by
  unfold State.nbExec
  grind [State.runReq_lasting, !State.accept_lasting, State.checked_lasting, → State.loadTenant_lasting, !State.endRead_lasting, →
    State.loanPlan_lasting, !State.endReq_lasting, !State.planFailed_lasting, !State.modReq_lasting, !State.heatFrame_lasting,
    !State.modMem_lasting, !State.dispatchRows_lasting, foldl_lasting]

theorem State.nbRow_lasting (s : State) (r op : ℕ) : (s.nbRow r op).lasting = s.lasting := by
  unfold State.nbRow
  grind [!State.nbExec_lasting]

theorem execGatherReduce_lasting (r : ℕ) (s : State) : Leaves s (execGatherReduce r s) := by
  refine leaves_next ?_
  simp only [State.nbRow_lasting]

theorem execEwise_lasting (r : ℕ) (s : State) : Leaves s (execEwise r s) := by
  refine leaves_next ?_
  simp only [State.nbRow_lasting]

theorem execNorm_lasting (r : ℕ) (s : State) : Leaves s (execNorm r s) := by
  refine leaves_next ?_
  simp only [State.nbRow_lasting]

theorem execOptStep_lasting (r : ℕ) (s : State) : Leaves s (execOptStep r s) := by
  refine leaves_next ?_
  simp only [State.nbRow_lasting]

theorem execCast_lasting (r : ℕ) (s : State) : Leaves s (execCast r s) := by
  refine leaves_next ?_
  simp only [State.nbRow_lasting]

theorem execBroadcastCommandComplete_lasting (r : ℕ) (s : State) : Leaves s (execBroadcastCommandComplete r s) := by
  refine leaves_next ?_
  grind [→ State.gatherOut_lasting, !State.okReq_lasting, !State.endWalks_lasting, → State.reqRoom_lasting, !State.endReq_lasting]

end Sys2Proof.Machine
end

section

/-! What lasts under the definitions of `Sys2Proof/Machine/Merge.lean`. -/

namespace Sys2Proof.Machine
open Sys2Proof

theorem State.modMerge_lasting (s : State) (slot : ℕ) (f : MergeCtx → MergeCtx) : (s.modMerge slot f).lasting = s.lasting := rfl

theorem State.releaseMerge_lasting (s : State) (x : MergeCtx) : (s.releaseMerge x).lasting = s.lasting :=
  foldl_lasting State.releaseFrame_lasting _ _

theorem execMergeOpen_lasting (r : ℕ) (s : State) : Leaves s (execMergeOpen r s) := by
  refine leaves_next (State.runReq_lasting _ _ _ _ fun q u => State.checked_lasting _ _ _ _ fun u => ?_)
  split
  · exact State.endReq_lasting ..
  split
  next hw =>
    refine (State.okReq_lasting ..).trans ?_
    exact (allocEach_lasting _ _ _ (fun _ _ _ _ h => State.allocPlain_lasting _ _ _ _ _ _ h) hw :)
  · exact State.endReq_lasting ..

theorem State.blurFinal_lasting (s : State) (x : MergeCtx) (st : Status) : (s.blurFinal x st).lasting = s.lasting := by
  simp only [State.blurFinal, State.mix_lasting, apply_ite State.lasting, ite_self]

theorem State.dropMerge_lasting (s : State) (x : MergeCtx) (st : Status) : (s.dropMerge x st).lasting = s.lasting := by
  unfold State.dropMerge
  dsimp only
  (repeat' split) <;> simp only [State.releaseMerge_lasting, State.blurFinal_lasting, State.endReq_lasting]

theorem State.countNanRec_lasting (s : State) (t n : ℕ) : (s.countNanRec t n).lasting = s.lasting := rfl

theorem State.tryClose_lasting (s : State) (slot : ℕ) : (s.tryClose slot).lasting = s.lasting := by
  unfold State.tryClose
  grind [→ State.writeTenant_done_lasting, → State.writeTenant_bad_lasting, !State.endReq_lasting, !State.releaseMerge_lasting,
    !State.countNanRec_lasting, !State.blurFinal_lasting, !State.blur_lasting, → State.reqRoom_lasting, !State.waitReq_lasting]

theorem execMergeClose_lasting (r : ℕ) (s : State) : Leaves s (execMergeClose r s) := by
  refine leaves_next ?_
  grind [State.runReq_lasting, !State.endReq_lasting, !State.tryClose_lasting, !State.waitReq_lasting, !State.modMerge_lasting]

theorem execMergeAbort_lasting (r : ℕ) (s : State) : Leaves s (execMergeAbort r s) := by
  refine leaves_next ?_
  grind [State.runReq_lasting, !State.endReq_lasting, !State.okReq_lasting, !State.dropMerge_lasting]

theorem execMergeTimeout_lasting (slot : ℕ) (s : State) : Leaves s (execMergeTimeout slot s) := by
  refine leaves_next ?_
  simp only [State.tryClose_lasting, State.modMerge_lasting, apply_ite State.lasting, ite_self]

theorem State.contribute_lasting (s : State) (t : ℕ) (src : Option ℕ × ℕ) (m : ContribMsg) {u : State}
    (h : s.contribute t src m = .ok u) : u.lasting = s.lasting := by
  unfold State.contribute at h
  grind [!State.tryClose_lasting, !State.modMerge_lasting]

theorem execMergeSubmit_lasting (r : ℕ) (dma : List Byte) (s : State) : Leaves s (execMergeSubmit r dma s) := by
  refine leaves_next ?_
  grind [State.runReq_lasting, State.checked_lasting, → State.source_lasting, !State.endRead_lasting, → State.contribute_lasting,
    !State.endReq_lasting, !State.okReq_lasting]

end Sys2Proof.Machine
end

section

/-! What lasts under the definitions of `Sys2Proof/Machine/Wire.lean`. -/

namespace Sys2Proof.Machine
open Sys2Proof

theorem State.modConn_lasting (s : State) (n : ℕ) (f : Conn → Conn) : (s.modConn n f).lasting = s.lasting := rfl

theorem State.usedPath_lasting (s : State) (port : ℕ) (mac : BitVec 48) (ip : BitVec 128) :
    (s.usedPath port mac ip).lasting = s.lasting := rfl

theorem State.putWire_lasting (s : State) (p : Packet) (port : ℕ) (mac : BitVec 48) (ip : BitVec 128) (m : Marks) (path : ℕ) :
    (s.putWire p port mac ip m path).lasting = s.lasting := by
  simp only [State.putWire, State.usedPath_lasting, State.count_lasting, State.emit_lasting, apply_ite State.lasting, ite_self]

theorem State.transmit_lasting (s : State) (p : Packet) (port : ℕ) (mac : BitVec 48) (ip : BitVec 128) (m : Marks) (path : ℕ) :
    (s.transmit p port mac ip m path).lasting = s.lasting := by
  simp only [State.transmit, State.putWire_lasting, State.lasting_mk, State.lasting_eta, apply_ite State.lasting, ite_self]

theorem State.drainCtl_lasting (s : State) : (s.drainCtl).lasting = s.lasting :=
  foldl_lasting (fun _ _ => State.transmit_lasting ..) _ _

theorem State.dropsReply_lasting (s : State) (p : Packet) : (s.dropsReply p).2.lasting = s.lasting := by
  unfold State.dropsReply
  dsimp only
  (repeat' split) <;> simp only [State.count_lasting, State.lasting_mk, State.lasting_eta]

theorem State.servedAt_lasting (s : State) (port t : ℕ) (loan : Bool) (n : ℕ) : (s.servedAt port t loan n).lasting = s.lasting := rfl

theorem State.sendOn_lasting (s : State) (c : Conn) (i : ℕ) (p : Packet) : (s.sendOn c i p).lasting = s.lasting := by
  unfold State.sendOn
  dsimp only
  (repeat' split) <;> simp only [State.dropsReply_lasting, State.transmit_lasting, State.modConn_lasting, State.charge_lasting,
    State.servedAt_lasting]

theorem State.sendAck_lasting (s : State) (c : Conn) (p : Packet) : (s.sendAck c p).lasting = s.lasting := by
  unfold State.sendAck
  grind [!State.sendOn_lasting]

theorem State.arrive_lasting (s : State) : (s.arrive).lasting = s.lasting := rfl

theorem State.creditAsk_lasting (s : State) (c : Conn) : (s.creditAsk c).lasting = s.lasting := by
  simp only [State.creditAsk, State.sendAck_lasting]

theorem State.rebuildEnd_lasting (s : State) (c : Conn) (o : OutPkt) : (s.rebuildEnd c o).2.lasting = s.lasting := by
  unfold State.rebuildEnd
  dsimp only
  (repeat' split) <;> simp only [State.count_lasting]

theorem State.modRemote_lasting (s : State) (r : ℕ) (f : RemoteOp → RemoteOp) : (s.modRemote r f).lasting = s.lasting := rfl

theorem State.sendOut_lasting (s : State) (c : Conn) (sp : ℕ) (o : OutPkt) {t : State} (h : s.sendOut c sp o = some t) :
    t.lasting = s.lasting := by
  unfold State.sendOut at h
  grind [!State.rebuildEnd_lasting, !State.count_lasting, !State.sendOn_lasting, !State.modRemote_lasting, !State.modConn_lasting]

theorem State.askCredit_lasting (s : State) (n : ℕ) : (s.askCredit n).lasting = s.lasting := by
  unfold State.askCredit
  grind [!State.modConn_lasting, !State.creditAsk_lasting]

theorem State.noteHeads_lasting (s : State) : (s.noteHeads).lasting = s.lasting := rfl

theorem State.drainEgress_lasting (n : ℕ) (s : State) : (State.drainEgress n s).lasting = s.lasting := by
  fun_induction State.drainEgress n s <;> grind [!State.noteHeads_lasting, → State.sendOut_lasting, !State.askCredit_lasting]

theorem State.egress_lasting (s : State) : (s.egress).lasting = s.lasting := by
  simp only [State.egress, State.drainEgress_lasting, State.lasting_mk, State.lasting_eta, apply_ite State.lasting, ite_self]

theorem State.flush_lasting (s : State) (n sp : ℕ) : (s.flush n sp).lasting = s.lasting := by
  simp only [State.flush, State.egress_lasting, State.askCredit_lasting, apply_ite State.lasting, ite_self]

theorem State.sendMsg_lasting (s : State) (n : ℕ) (m : Msg) : (s.sendMsg n m).2.2.lasting = s.lasting := by
  unfold State.sendMsg
  dsimp only
  (repeat' split) <;> simp only [State.modConn_lasting, State.arrive_lasting, State.flush_lasting]

theorem State.startFetch_lasting (s : State) (n : ℕ) : (s.startFetch n).lasting = s.lasting := by
  unfold State.startFetch
  grind [!State.count_lasting, !State.modConn_lasting]

theorem State.launch_lasting (s : State) (r : ℕ) : (s.launch r).lasting = s.lasting := by
  unfold State.launch
  dsimp only
  (repeat' split) <;> simp only [State.sendMsg_lasting, State.modRemote_lasting]

theorem State.sendRemote_lasting (s : State) (c : Conn) (r : ℕ) (o : RemoteOp) : (s.sendRemote c r o).lasting = s.lasting := by
  simp only [State.sendRemote, State.waitReq_lasting, State.modReq_lasting, State.launch_lasting, State.count_lasting,
    State.startFetch_lasting, apply_ite State.lasting, ite_self]

theorem State.resend_lasting (s : State) (n sp psn : ℕ) : (s.resend n sp psn).lasting = s.lasting := by
  simp only [State.resend, State.egress_lasting, State.modConn_lasting, State.arrive_lasting]

theorem State.sendLoose_lasting (s : State) (n : ℕ) (o : OutPkt) : (s.sendLoose n o).lasting = s.lasting := by
  simp only [State.sendLoose, State.egress_lasting, State.modConn_lasting, State.arrive_lasting]

theorem State.sendSack_lasting (s : State) (n sp : ℕ) : (s.sendSack n sp).lasting = s.lasting := by
  unfold State.sendSack
  dsimp only
  (repeat' split) <;> simp only [State.sendOn_lasting, State.sendAck_lasting, State.modConn_lasting]

theorem State.promptSack_lasting (s : State) (n sp : ℕ) (p : Packet) : (s.promptSack n sp p).lasting = s.lasting := by
  simp only [State.promptSack, State.sendSack_lasting, State.modConn_lasting]

theorem State.maybeSack_lasting (s : State) (n sp : ℕ) (p : Packet) (inOrder : Bool) :
    (s.maybeSack n sp p inOrder).lasting = s.lasting := by
  unfold State.maybeSack
  grind [!State.promptSack_lasting]

end Sys2Proof.Machine
end

section

/-! What lasts under the definitions of `Sys2Proof/Machine/Attend.lean`. -/

namespace Sys2Proof.Machine
open Sys2Proof

theorem State.attInput_lasting (s : State) (q : Req) (off a len : ℕ) {v : List Byte} {t : State}
    (h : s.attInput q off a len = .ok (v, t)) : t.lasting = s.lasting := by
  unfold State.attInput at h
  grind [→ State.loadTenant_lasting]

theorem State.rowFault_lasting (s : State) (r i : ℕ) (st : Status) : (s.rowFault r i st).lasting = s.lasting := rfl

theorem State.notAdmitted_lasting (s : State) (r i : ℕ) : (s.notAdmitted r i).lasting = s.lasting := rfl

theorem State.countWalks_lasting (s : State) (t : ℕ) (o : Option Walked) : (o.elim s (s.countWalk t)).lasting = s.lasting := by
  cases o with
  | none => rfl
  | some b => exact State.countWalk_lasting ..

theorem map_eq_error {ε α β : Type} {x : Except ε α} {f : α → β} {e : ε} (h : x.map f = .error e) : x = .error e := by
  cases x with
  | error u => cases h; rfl
  | ok a => cases h

theorem State.checkRows_lasting (s : State) (q : Req) (g : Geom) (i base : ℕ) (xs : List AttRow) {t : State}
    (h : s.checkRows q g i base xs = .error t) : t.lasting = s.lasting := by
  induction xs generalizing i base with
  | nil => cases h
  | cons r rs ih =>
    unfold State.checkRows at h
    grind
      [→ map_eq_error, !State.rowFault_lasting, !State.notAdmitted_lasting, → State.letIn_lasting, !State.waitReq_lasting, !State.countWalks_lasting]

theorem State.walkBlocks_lasting (s : State) (q : Req) (bs : List Block) : (s.walkBlocks q bs).lasting = s.lasting := by
  unfold State.walkBlocks
  grind [!State.heatFrame_lasting, !State.modMem_lasting, foldl_lasting]

theorem State.generate_lasting (s : State) (q : Req) (g : Geom) (ps : List RowPlan) (blk : List Byte) :
    (s.generate q g ps blk).lasting = s.lasting := by
  simp only [State.generate, State.allRecs_lasting, State.modReq_lasting, State.dispatchBlocks_lasting, State.walkBlocks_lasting]

theorem execAttend_lasting (r : ℕ) (s : State) : Leaves s (execAttend r s) := by
  refine leaves_next (State.runReq_lasting _ _ _ _ fun q u => ?_)
  split
  · rfl
  refine (State.checked_lasting _ _ _ _ fun u => ?_).trans (State.modReq_lasting ..)
  split
  · exact State.endRead_lasting ..
  next hv =>
    refine (State.checked_lasting _ _ _ _ fun u => ?_).trans (State.attInput_lasting _ _ _ _ _ hv)
    split
    · exact State.rowFault_lasting ..
    split
    · exact State.rowFault_lasting ..
    split
    · exact State.rowFault_lasting ..
    refine State.checked_lasting _ _ _ _ fun u => ?_
    split
    · exact State.endRead_lasting ..
    next hw =>
      refine Eq.trans ?_ (State.attInput_lasting _ _ _ _ _ hw)
      split
      next hc => exact (State.modReq_lasting ..).trans (State.checkRows_lasting _ _ _ _ _ _ hc)
      · exact State.generate_lasting ..

theorem State.sendContribution_lasting (s : State) (q : Req) (node : ℕ) (m : ContribMsg) (own : Status × ℕ) :
    (s.sendContribution q node m own).lasting = s.lasting := by
  unfold State.sendContribution
  grind [!State.endReq_lasting, !State.sendRemote_lasting]

theorem State.deliverContribution_lasting (s : State) (q : Req) (m : ContribMsg) (own : Status × ℕ) :
    (s.deliverContribution q m own).lasting = s.lasting := by
  unfold State.deliverContribution
  grind [!State.modReq_lasting, → State.contribute_lasting, !State.endReq_lasting, !State.sendContribution_lasting]

theorem State.failContribution_lasting (s : State) (q : Req) (st : Status) (result dv : ℕ) :
    (s.failContribution q st result dv).lasting = s.lasting := by
  simp only [State.failContribution, State.deliverContribution_lasting]

theorem State.attendDone_lasting (s : State) (q : Req) (a : AttWork) : (s.attendDone q a).lasting = s.lasting := by
  unfold State.attendDone
  grind [!State.sendPartials_lasting, !State.countNanRec_lasting, !State.modSeq_lasting, !State.endWalks_lasting,
    !State.deliverContribution_lasting, !State.endReq_lasting, !State.modReq_lasting, → State.writeTenant_done_lasting, →
    State.writeTenant_bad_lasting, !State.mix_lasting, !State.blur_lasting, → State.reqRoom_lasting, !State.abandon_lasting,
    foldl_lasting]

theorem execCrucibleMergeDone_lasting (r : ℕ) (s : State) : Leaves s (execCrucibleMergeDone r s) := by
  refine leaves_next ?_
  (repeat' split) <;> simp only [State.attendDone_lasting]

end Sys2Proof.Machine
end

section

/-! What lasts under the definitions of `Sys2Proof/Machine/Touchstones.lean`. -/

namespace Sys2Proof.Machine
open Sys2Proof

theorem State.rebuildPages_lasting (s : State) (j : Job) (x : Seq) (g : Geom) (xs : List (ℕ × ℕ)) (n k : ℕ) :
    (s.rebuildPages j x g xs n k).1.lasting = s.lasting := by
  fun_induction State.rebuildPages s j x g xs n k <;> grind [!State.rebuildFor_lasting]

theorem execTsRebuild_lasting (r : ℕ) (s : State) : Leaves s (execTsRebuild r s) := by
  refine leaves_next (State.runReq_lasting _ _ _ _ fun q u => State.onSeq_lasting _ _ _ _ fun x => ?_)
  split
  · exact State.endReq_lasting ..
  refine State.checked_lasting _ _ _ _ fun u => ?_
  split
  next hv => exact State.letIn_lasting _ _ _ _ hv
  refine State.turn_lasting _ _ _ _ fun u => State.withPages_lasting _ _ _ _ _ fun u => ?_
  split
  · exact State.waitReq_lasting ..
  · exact (State.okReq_lasting ..).trans (State.rebuildPages_lasting ..)

theorem execTsRead_lasting (r : ℕ) (s : State) : Leaves s (execTsRead r s) := by
  refine leaves_next (State.runReq_lasting _ _ _ _ fun q u => State.checked_lasting _ _ _ _ fun u => ?_)
  refine State.onSeq_lasting _ _ _ _ fun x => ?_
  split
  · exact State.endReq_lasting ..
  refine State.checked_lasting _ _ _ _ fun u => ?_
  split
  next hv => exact State.letIn_lasting _ _ _ _ hv
  · exact State.withPages_lasting _ _ _ _ _ fun u => State.store_lasting _ _ _ _ _ fun u => State.okReq_lasting ..

theorem State.moveBlock_lasting (s : State) (n : ℕ) : (s.moveBlock n).lasting = s.lasting := by
  unfold State.moveBlock
  grind [→ State.placeBlock_lasting, !State.modFrame_lasting, !State.quarantine_lasting]

theorem State.errorRebuild_lasting (s : State) (n : ℕ) : (s.errorRebuild n).lasting = s.lasting := by
  unfold State.errorRebuild
  grind [!State.rebuildFor_lasting]

theorem execTouchstoneErrorRebuild_lasting (frame : ℕ) (inWord : Bool) (s : State) :
    Leaves s (execTouchstoneErrorRebuild frame inWord s) := by
  refine leaves_next ?_
  grind [!State.count_lasting, !State.modFrame_lasting, !State.drawMirrors_lasting, !State.errorRebuild_lasting,
    !State.retireFree_lasting, !State.draw_lasting, !State.retireGranule_lasting, !State.moveBlock_lasting, !State.retireRecord_lasting,
    foldl_lasting]

end Sys2Proof.Machine
end

section

/-! What lasts under the definitions of `Sys2Proof/Machine/Connections.lean`. -/

namespace Sys2Proof.Machine
open Sys2Proof

theorem State.modWq_lasting (s : State) (n : ℕ) (f : Wq → Wq) : (s.modWq n f).lasting = s.lasting := rfl

theorem State.modCq_lasting (s : State) (n : ℕ) (f : Cq → Cq) : (s.modCq n f).lasting = s.lasting := rfl

theorem State.reserveCq_lasting (s : State) (n k : ℕ) : (s.reserveCq n k).lasting = s.lasting := rfl

theorem State.releaseCq_lasting (s : State) (n k : ℕ) : (s.releaseCq n k).lasting = s.lasting := rfl

theorem State.writeCqe_lasting (s : State) (n : ℕ) (notify : Bool) (op st qp user reqId result : ℕ) :
    (s.writeCqe n notify op st qp user reqId result).lasting = s.lasting := by
  unfold State.writeCqe
  dsimp only
  (repeat' split) <;> simp only [State.modCq_lasting, State.emit_lasting]

theorem State.raiseCq_lasting (s : State) (n : ℕ) : (s.raiseCq n).lasting = s.lasting := by
  unfold State.raiseCq
  grind [!State.raise_lasting]

theorem State.notifyReserved_lasting (s : State) (n op : ℕ) (st : Status) (qp user reqId result : ℕ) :
    (s.notifyReserved n op st qp user reqId result).lasting = s.lasting := by
  simp only [State.notifyReserved, State.raiseCq_lasting, State.releaseCq_lasting, State.writeCqe_lasting]

theorem State.hear_lasting (s : State) (p : Packet) : (s.hear p).lasting = s.lasting := rfl

theorem State.arrived_lasting (s : State) (p : Packet) : (s.arrived p).lasting = s.lasting := by
  simp only [State.arrived, State.count_lasting, apply_ite State.lasting, ite_self]

theorem State.heard_lasting (s : State) (p : Packet) : (s.heard p).lasting = s.lasting := by
  simp only [State.heard, State.hear_lasting, State.arrived_lasting]

theorem State.receive_lasting (s : State) (p : Packet) (cls : PClass) (type : ℕ) (go : State → State)
    (hgo : ∀ u, (go u).lasting = u.lasting) : (s.receive p cls type go).lasting = s.lasting := by
  unfold State.receive
  grind [!State.count_lasting, !State.arrived_lasting, !State.heard_lasting]

theorem State.accepted_lasting (s : State) : (s.accepted).lasting = s.lasting := rfl

theorem State.replyTo_lasting (s : State) (p r : Packet) (m : Marks) : (s.replyTo p r m).lasting = s.lasting := by
  simp only [State.replyTo, State.transmit_lasting]

theorem State.unknownConn_lasting (s : State) (p : Packet) : (s.unknownConn p).lasting = s.lasting := by
  simp only [State.unknownConn, State.count_lasting, State.replyTo_lasting, State.lasting_mk, State.lasting_eta, apply_ite State.lasting,
    ite_self]

theorem State.inReset_lasting (s : State) (c : Conn) (p : Packet) : (s.inReset c p).lasting = s.lasting := by
  simp only [State.inReset, State.count_lasting, State.replyTo_lasting, State.modConn_lasting, apply_ite State.lasting, ite_self]

theorem State.sendMgt_lasting (s : State) (n type : ℕ) (bs : List Byte) : (s.sendMgt n type bs).lasting = s.lasting := by
  unfold State.sendMgt
  grind [!State.transmit_lasting]

theorem State.writeBack_lasting (s : State) (c : Conn) : (s.writeBack c).lasting = s.lasting := rfl

theorem State.contextRoom_lasting (s : State) (die : ℕ) {t : State} (h : s.contextRoom die = some t) : t.lasting = s.lasting := by
  unfold State.contextRoom at h
  grind [!State.writeBack_lasting, Option.map_eq_some_iff]

theorem State.missReply_lasting (s : State) (c : Conn) (p : Packet) : (s.missReply c p).lasting = s.lasting := by
  simp only [State.missReply, State.count_lasting, State.sendLoose_lasting]

theorem State.miss_lasting (s : State) (c : Conn) (p : Packet) : (s.miss c p).lasting = s.lasting := by
  simp only [State.miss, State.startFetch_lasting, State.missReply_lasting, State.count_lasting, State.lasting_mk, State.lasting_eta,
    apply_ite State.lasting, ite_self]

theorem State.onConn_lasting (s : State) (p : Packet) (go : Conn → State → State) (hgo : ∀ c u, (go c u).lasting = u.lasting) :
    (s.onConn p go).lasting = s.lasting := by
  unfold State.onConn
  grind [!State.unknownConn_lasting, !State.inReset_lasting, !State.count_lasting, !State.miss_lasting, !State.modConn_lasting]

theorem State.remoteEnd_lasting (s : State) (q : Req) (st : Status) (result : ℕ) : (s.remoteEnd q st result).lasting = s.lasting := by
  unfold State.remoteEnd
  dsimp only
  (repeat' split) <;> simp only [State.endReq_lasting]

theorem State.resetReq_lasting (s : State) (c : Conn) (q : Req) : (s.resetReq c q).lasting = s.lasting := by
  simp only [State.resetReq, State.remoteEnd_lasting, State.count_lasting, apply_ite State.lasting, ite_self]

theorem State.trimSlots_lasting (s : State) (n : ℕ) : (s.trimSlots n).lasting = s.lasting := rfl

theorem State.serveAsks_lasting (s : State) (xs : List (ℕ × ℕ × ℕ)) : (s.serveAsks xs).lasting = s.lasting := by
  induction xs with
  | nil => rfl
  | cons a xs ih =>
    obtain ⟨n, want, age⟩ := a
    unfold State.serveAsks
    dsimp only
    split
    · exact ih
    split
    · exact ih
    · exact ((State.sendSack_lasting ..).trans (State.modConn_lasting ..)).trans ih

theorem State.assignSlots_lasting (s : State) : (s.assignSlots).lasting = s.lasting := by
  simp only [State.assignSlots, State.serveAsks_lasting]

theorem State.freeLedger_lasting (s : State) (c : Conn) : (s.freeLedger c).lasting = s.lasting := by
  unfold State.freeLedger
  grind [!State.modConn_lasting, !State.releaseFrame_lasting]

theorem State.endDisconnects_lasting (s : State) (n : ℕ) (st : Status) : (s.endDisconnects n st).lasting = s.lasting := rfl

theorem State.removeConn_lasting (s : State) (c : Conn) : (s.removeConn c).lasting = s.lasting := rfl

theorem State.closeConn_lasting (s : State) (c : Conn) (st : Status) : (s.closeConn c st).lasting = s.lasting := by
  simp only [State.closeConn, State.assignSlots_lasting, State.removeConn_lasting, State.endDisconnects_lasting,
    State.notifyReserved_lasting, State.freeLedger_lasting]

theorem State.connClose_lasting (s : State) (c : Conn) : (s.connClose c).lasting = s.lasting := by
  simp only [State.connClose, State.sendAck_lasting]

theorem State.closeIfIdle_lasting (s : State) (n : ℕ) : (s.closeIfIdle n).lasting = s.lasting := by
  unfold State.closeIfIdle
  grind [!State.closeConn_lasting, !State.connClose_lasting, !State.modConn_lasting]

theorem State.drainConn_lasting (s : State) (n : ℕ) : (s.drainConn n).lasting = s.lasting := by
  simp only [State.drainConn, State.closeIfIdle_lasting, State.modConn_lasting]

theorem State.newConn_lasting (s : State) (num peer tenant slot rcq : ℕ) (st : ConnState) :
    (s.newConn num peer tenant slot rcq st).2.lasting = s.lasting := by
  have drawn : (((s.drawBits 32).2.drawBits 32).2.drawBits 32).2.lasting = s.lasting :=
    (State.drawBits_lasting ..).trans ((State.drawBits_lasting ..).trans (State.drawBits_lasting ..))
  exact (getD_lasting fun t h => State.contextRoom_lasting _ (State.homeDie _ num) h).trans drawn

theorem State.connSetup_lasting (s : State) (c : Conn) : (s.connSetup c).lasting = s.lasting := by
  simp only [State.connSetup, State.sendAck_lasting]

theorem State.connAccept_lasting (s : State) (p : Packet) (bs : List Byte) (m : Marks) : (s.connAccept p bs m).lasting = s.lasting := by
  simp only [State.connAccept, State.replyTo_lasting]

theorem State.connRefuse_lasting (s : State) (p : Packet) (m : SetupMsg) (st : Status) : (s.connRefuse p m st).lasting = s.lasting := by
  simp only [State.connRefuse, State.connAccept_lasting]

theorem State.acceptConn_lasting (s : State) (p : Packet) (c : Comp) (rcq : ℕ) (m : SetupMsg) :
    (s.acceptConn p c rcq m).lasting = s.lasting := by
  unfold State.acceptConn
  dsimp only
  (repeat' split) <;> simp only [State.newConn_lasting, State.modConn_lasting, State.notifyReserved_lasting, State.reserveCq_lasting,
    State.connAccept_lasting]

theorem execConnSetupRx_lasting (p : Packet) (s : State) : Leaves s (execConnSetupRx p s) := by
  refine leaves_next ?_
  grind [State.receive_lasting, !State.accepted_lasting, !State.connAccept_lasting, !State.connRefuse_lasting, !State.acceptConn_lasting]

theorem State.setupRun_lasting (s : State) (q : Req) (slot num n : ℕ) : (s.setupRun q slot num n).lasting = s.lasting := by
  fun_induction State.setupRun s q slot num n <;> grind [!State.drawBits_lasting, !State.newConn_lasting, !State.connSetup_lasting,
    !State.reserveCq_lasting, !State.modConn_lasting]

theorem execConnect_lasting (r : ℕ) (s : State) : Leaves s (execConnect r s) := by
  refine leaves_next ?_
  grind [State.runReq_lasting, State.checked_lasting, !State.waitReq_lasting, !State.modReq_lasting, !State.setupRun_lasting]

theorem State.connectDecided_lasting (s : State) (r : ℕ) : (s.connectDecided r).lasting = s.lasting := by
  unfold State.connectDecided
  grind [!State.modConn_lasting, !State.endReq_lasting, !State.drainConn_lasting, foldl_lasting]

theorem State.lostFromRun_lasting (s : State) (c : Conn) (st : Status) : (s.lostFromRun c st).lasting = s.lasting := by
  unfold State.lostFromRun
  grind [!State.modReq_lasting]

theorem State.setupFailed_lasting (s : State) (c : Conn) (st : Status) : (s.setupFailed c st).lasting = s.lasting := by
  unfold State.setupFailed
  dsimp only
  (repeat' split) <;> simp only [State.removeConn_lasting, State.releaseCq_lasting, State.connectDecided_lasting, State.modReq_lasting]

theorem State.resetConn_lasting (s : State) (n : ℕ) (st : Status) : (s.resetConn n st).lasting = s.lasting := by
  unfold State.resetConn
  split
  · rfl
  rename_i c _
  split
  · rfl
  split
  · exact State.setupFailed_lasting ..
  dsimp only
  have requests : ∀ (l : List Req) (u : State), (l.foldl (fun s q => s.resetReq c q) u).lasting = u.lasting :=
    foldl_lasting fun u q => State.resetReq_lasting ..
  refine (State.assignSlots_lasting ..).trans ?_
  refine (State.endDisconnects_lasting ..).trans ?_
  refine (State.modConn_lasting ..).trans ?_
  refine (State.sendAck_lasting ..).trans ?_
  refine (State.freeLedger_lasting ..).trans ?_
  refine (requests _ _).trans ?_
  exact (State.count_lasting ..).trans (State.lostFromRun_lasting ..)

theorem execConnAcceptRx_lasting (p : Packet) (s : State) : Leaves s (execConnAcceptRx p s) := by
  refine leaves_next ?_
  grind [State.receive_lasting, !State.accepted_lasting, !State.modConn_lasting, !State.connectDecided_lasting,
    !State.setupFailed_lasting]

theorem execConnSetupResend_lasting (conn : ℕ) (s : State) : Leaves s (execConnSetupResend conn s) := by
  refine leaves_next ?_
  (repeat' split) <;> simp only [State.setupFailed_lasting, State.modConn_lasting, State.connSetup_lasting]

theorem execDisconnect_lasting (r : ℕ) (s : State) : Leaves s (execDisconnect r s) := by
  refine leaves_next ?_
  grind [State.runReq_lasting, !State.endReq_lasting, !State.drainConn_lasting, !State.waitReq_lasting, !State.lostFromRun_lasting]

theorem execConnCloseRx_lasting (p : Packet) (s : State) : Leaves s (execConnCloseRx p s) := by
  refine leaves_next ?_
  grind [State.receive_lasting, !State.accepted_lasting, !State.replyTo_lasting, !State.lostFromRun_lasting, !State.closeIfIdle_lasting,
    !State.modConn_lasting, !State.closeConn_lasting]

theorem execConnCloseResend_lasting (conn : ℕ) (s : State) : Leaves s (execConnCloseResend conn s) := by
  refine leaves_next ?_
  (repeat' split) <;> simp only [State.resetConn_lasting, State.modConn_lasting, State.connClose_lasting]

theorem execConnResetRx_lasting (p : Packet) (s : State) : Leaves s (execConnResetRx p s) := by
  refine leaves_next ?_
  grind [State.receive_lasting, !State.accepted_lasting, !State.resetConn_lasting]

theorem execConnResetResend_lasting (conn : ℕ) (s : State) : Leaves s (execConnResetResend conn s) := by
  refine leaves_next ?_
  (repeat' split) <;> simp only [State.modConn_lasting, State.sendAck_lasting]

theorem execConnResetQuietEnd_lasting (conn : ℕ) (s : State) : Leaves s (execConnResetQuietEnd conn s) := by
  refine leaves_next ?_
  (repeat' split) <;> simp only [State.closeConn_lasting]

theorem execConnNumberRelease_lasting (conn : ℕ) (s : State) : Leaves s (execConnNumberRelease conn s) := leaves_next rfl

theorem execContextWriteback_lasting (die : ℕ) (s : State) : Leaves s (execContextWriteback die s) := by
  refine leaves_next ?_
  (repeat' split) <;> simp only [State.writeBack_lasting, State.count_lasting]

end Sys2Proof.Machine
end

section

/-! What lasts under the definitions of `Sys2Proof/Machine/Transport.lean`. -/

namespace Sys2Proof.Machine
open Sys2Proof

theorem State.issueOn_lasting (s : State) (q : Req) (n reqId : ℕ) (bytes : List Byte) (space hop : ℕ) :
    (s.issueOn q n reqId bytes space hop).lasting = s.lasting := by
  unfold State.issueOn
  grind [!State.endReq_lasting, !State.sendRemote_lasting]

theorem State.timerRetry_lasting (s : State) (q : Req) (o : RemoteOp) (go : State → State) (hgo : ∀ u, (go u).lasting = u.lasting) :
    (s.timerRetry q o go).lasting = s.lasting := by
  unfold State.timerRetry
  grind [!State.resetConn_lasting, !State.modRemote_lasting]

theorem State.answered_lasting (s : State) (q : Req) (o : RemoteOp) (e : List Byte) : (s.answered q o e).lasting = s.lasting := by
  simp only [State.answered, State.remoteEnd_lasting, State.modRemote_lasting, State.launch_lasting, apply_ite State.lasting, ite_self]

theorem State.sendEnd_lasting (s : State) (n reqId epoch total : ℕ) (entry : List Byte) (age hop : ℕ) :
    (s.sendEnd n reqId epoch total entry age hop).lasting = s.lasting := by
  unfold State.sendEnd
  dsimp only
  (repeat' split) <;> simp only [State.flush_lasting, State.modConn_lasting, State.arrive_lasting]

theorem State.answer_lasting (s : State) (n reqId epoch : ℕ) (data entry : List Byte) (age hop : ℕ) :
    (s.answer n reqId epoch data entry age hop).lasting = s.lasting := by
  simp only [State.answer, State.sendMsg_lasting, State.sendEnd_lasting, apply_ite State.lasting, ite_self]

theorem State.compAck_lasting (s : State) (n som reqId : ℕ) : (s.compAck n som reqId).lasting = s.lasting := by
  unfold State.compAck
  dsimp only
  (repeat' split) <;> simp only [State.sendAck_lasting]

theorem State.fenceAck_lasting (s : State) (n : ℕ) (dup : Option ℕ) : (s.fenceAck n dup).lasting = s.lasting := by
  unfold State.fenceAck
  dsimp only
  (repeat' split) <;> simp only [State.modConn_lasting, State.sendAck_lasting]

theorem State.advanceFence_lasting (s : State) (n id : ℕ) : (s.advanceFence n id).lasting = s.lasting := by
  unfold State.advanceFence
  dsimp only
  (repeat' split) <;> simp only [State.modConn_lasting, State.fenceAck_lasting, State.lasting_mk, State.lasting_eta]

theorem State.answerAgain_lasting (s : State) (c : Conn) (p : Packet) : (s.answerAgain c p).lasting = s.lasting := by
  unfold State.answerAgain
  dsimp only
  (repeat' split) <;> simp only [State.resend_lasting, State.compAck_lasting, State.fenceAck_lasting]

theorem State.seat_lasting (s : State) (r : ℕ) : (s.seat r).lasting = s.lasting := by
  unfold State.seat
  grind [!State.modReq_lasting]

theorem State.turns_lasting (s : State) : (s.turns).lasting = s.lasting := by
  unfold State.turns
  grind [!State.modReq_lasting, foldl_lasting]

theorem State.enterRemote_lasting (s : State) (c : Conn) (h : Packet) (bs : List Byte) : (s.enterRemote c h bs).2.lasting = s.lasting :=
  rfl

theorem State.refuse_lasting (s : State) (c : Conn) (h : Packet) (bs : List Byte) (st : Status) :
    (s.refuse c h bs st).lasting = s.lasting := by
  simp only [State.refuse, State.sendEnd_lasting]

theorem State.relayMerge_lasting (s : State) (d : Conn) (r : ℕ) (h : Packet) (bs : List Byte) :
    (s.relayMerge d r h bs).lasting = s.lasting := by
  simp only [State.relayMerge, State.sendRemote_lasting, State.modReq_lasting]

theorem State.relay_lasting (s : State) (c : Conn) (h : Packet) (bs : List Byte) (node : ℕ) :
    (s.relay c h bs node).lasting = s.lasting := by
  unfold State.relay
  dsimp only
  (repeat' split) <;> simp only [State.refuse_lasting, State.count_lasting, State.enterRemote_lasting, State.relayMerge_lasting,
    State.issueOn_lasting]

theorem State.takeRequest_lasting (s : State) (c : Conn) (h : Packet) (bs : List Byte) (v : Status) :
    (s.takeRequest c h bs v).lasting = s.lasting := by
  unfold State.takeRequest
  dsimp only
  (repeat' split) <;> simp only [State.refuse_lasting, State.relay_lasting, State.enterRemote_lasting, State.seat_lasting]

theorem State.takeContribution_lasting (s : State) (c : Conn) (h : Packet) (bs : List Byte) (v : Status) :
    (s.takeContribution c h bs v).lasting = s.lasting := by
  unfold State.takeContribution
  grind [!State.sendEnd_lasting, !State.relay_lasting, → State.contribute_lasting]

theorem State.handOver_lasting (sp n k : ℕ) (s : State) : (State.handOver sp n k s).lasting = s.lasting := by
  fun_induction State.handOver sp n k s <;> grind [!State.modConn_lasting, !State.takeRequest_lasting, !State.takeContribution_lasting]

theorem State.placeReq_lasting (s : State) (c : Conn) (sp : ℕ) (p : Packet) : (s.placeReq c sp p).lasting = s.lasting := by
  simp only [State.placeReq, State.accepted_lasting, State.modConn_lasting, State.handOver_lasting, State.assignSlots_lasting,
    State.advanceFence_lasting, State.trimSlots_lasting, State.maybeSack_lasting, apply_ite State.lasting, ite_self]

theorem State.dupRx_lasting (s : State) (n sp : ℕ) (p : Packet) : (s.dupRx n sp p).lasting = s.lasting := by
  simp only [State.dupRx, State.promptSack_lasting, State.count_lasting]

theorem State.rxReqData_lasting (c : Conn) (p : Packet) (s : State) : (State.rxReqData c p s).lasting = s.lasting := by
  simp only [State.rxReqData, State.answerAgain_lasting, State.dupRx_lasting, State.count_lasting, State.placeReq_lasting, apply_ite
    State.lasting, ite_self]

theorem State.rxReqMerge_lasting (c : Conn) (p : Packet) (s : State) : (State.rxReqMerge c p s).lasting = s.lasting := by
  simp only [State.rxReqMerge, State.answerAgain_lasting, State.dupRx_lasting, State.count_lasting, State.placeReq_lasting, apply_ite
    State.lasting, ite_self]

theorem State.putLocal_done_lasting (s : State) (y : Payer) (g : Region) (off : ℕ) (bs : List Byte) {t : State}
    (h : s.putLocal y g off bs = .done t) : t.lasting = s.lasting := by
  unfold State.putLocal at h
  grind [!State.emit_lasting, → State.writeTenant_done_lasting]

theorem State.putLocal_bad_lasting (s : State) (y : Payer) (g : Region) (off : ℕ) (bs : List Byte) {st : Status} {t : State}
    (h : s.putLocal y g off bs = .bad st t) : t.lasting = s.lasting := by
  unfold State.putLocal at h
  grind [→ State.writeTenant_bad_lasting]

theorem State.placeRsp_done_lasting (s : State) (q : Req) (off : ℕ) (bs : List Byte) {t : State} (h : s.placeRsp q off bs = .done t) :
    t.lasting = s.lasting := by
  unfold State.placeRsp at h
  grind [→ State.writeTenant_done_lasting, → State.putLocal_done_lasting, !State.modReq_lasting]

theorem State.placeRsp_bad_lasting (s : State) (q : Req) (off : ℕ) (bs : List Byte) {st : Status} {t : State}
    (h : s.placeRsp q off bs = .bad st t) : t.lasting = s.lasting := by
  unfold State.placeRsp at h
  grind [→ State.writeTenant_bad_lasting, → State.putLocal_bad_lasting]

theorem State.endArrived_lasting (s : State) (n : ℕ) (p : Packet) : (s.endArrived n p).lasting = s.lasting := by
  unfold State.endArrived
  grind [!State.count_lasting, !State.answered_lasting, !State.modRemote_lasting]

theorem State.handRsp_lasting (n k : ℕ) (s : State) : (State.handRsp n k s).lasting = s.lasting := by
  fun_induction State.handRsp n k s <;> grind [!State.modConn_lasting, !State.endArrived_lasting]

theorem State.takePsn_lasting (s : State) (c : Conn) (p : Packet) (dropped : Bool) : (s.takePsn c p dropped).lasting = s.lasting := by
  simp only [State.takePsn, State.modConn_lasting, State.handRsp_lasting, State.closeIfIdle_lasting, State.maybeSack_lasting]

theorem State.takeRsp_lasting (s : State) (c : Conn) (p : Packet) : (s.takeRsp c p).lasting = s.lasting := by
  simp only [State.takeRsp, State.takePsn_lasting, State.accepted_lasting]

theorem State.dropRsp_lasting (s : State) (c : Conn) (p : Packet) : (s.dropRsp c p).lasting = s.lasting := by
  simp only [State.dropRsp, State.takePsn_lasting, State.count_lasting]

theorem State.placedRsp_lasting (s : State) (q : Req) (n : ℕ) : (s.placedRsp q n).lasting = s.lasting := by
  unfold State.placedRsp
  dsimp only
  (repeat' split) <;> simp only [State.modRemote_lasting, State.answered_lasting]

theorem State.rxRspData_lasting (c : Conn) (p : Packet) (s : State) : (State.rxRspData c p s).lasting = s.lasting := by
  unfold State.rxRspData
  split
  · rfl
  split
  · exact State.dupRx_lasting ..
  split
  · exact State.count_lasting ..
  split
  · exact State.dropRsp_lasting ..
  next q o _ =>
    dsimp only
    generalize hu : State.modRemote _ _ _ = u
    have hu : u.lasting = s.lasting := hu ▸ State.modRemote_lasting ..
    have dropped : (u.dropRsp c p).lasting = s.lasting := (State.dropRsp_lasting ..).trans hu
    refine ite_lasting dropped (ite_lasting dropped ?_)
    have placed : ∀ v : State, v.lasting = u.lasting → ((v.placedRsp q p.payload.length).takeRsp c p).lasting = s.lasting := fun _ hv =>
      (State.takeRsp_lasting ..).trans ((State.placedRsp_lasting ..).trans (hv.trans hu))
    split
    next h => exact placed _ (State.placeRsp_done_lasting _ _ _ _ h)
    next h => exact placed _ ((State.modRemote_lasting ..).trans (State.placeRsp_bad_lasting _ _ _ _ h))
    · cases hr : u.reqRoom q 7 none false with
      | none => exact (State.takeRsp_lasting ..).trans ((State.modRemote_lasting ..).trans hu)
      | some t => exact (State.reqRoom_lasting _ _ _ _ _ hr).trans hu

theorem State.rxRspEnd_lasting (c : Conn) (p : Packet) (s : State) : (State.rxRspEnd c p s).lasting = s.lasting := by
  unfold State.rxRspEnd
  dsimp only
  (repeat' split) <;> simp only [State.dupRx_lasting, State.count_lasting, State.dropRsp_lasting, State.modRemote_lasting,
    State.takeRsp_lasting]

theorem State.rxMissReply_lasting (c : Conn) (p : Packet) (s : State) : (State.rxMissReply c p s).lasting = s.lasting := by
  unfold State.rxMissReply
  grind [!State.count_lasting, !State.modRemote_lasting, !State.accepted_lasting]

theorem State.rxSack_lasting (c : Conn) (p : Packet) (s : State) : (State.rxSack c p s).lasting = s.lasting := by
  unfold State.rxSack
  grind [!State.accepted_lasting, !State.modConn_lasting, !State.resend_lasting, !State.closeIfIdle_lasting, !State.flush_lasting,
    foldl_lasting]

theorem State.rxCreditAsk_lasting (c : Conn) (p : Packet) (s : State) : (State.rxCreditAsk c p s).lasting = s.lasting := by
  simp only [State.rxCreditAsk, State.assignSlots_lasting, State.accepted_lasting, State.lasting_mk, State.lasting_eta, apply_ite
    State.lasting, ite_self]

theorem State.silentDone_lasting (s : State) (n : ℕ) (p : Req → RemoteOp → Bool) : (s.silentDone n p).lasting = s.lasting := by
  unfold State.silentDone
  grind [!State.closeIfIdle_lasting, !State.remoteEnd_lasting, foldl_lasting]

theorem State.rxFenceAck_lasting (c : Conn) (p : Packet) (s : State) : (State.rxFenceAck c p s).lasting = s.lasting := by
  simp only [State.rxFenceAck, State.silentDone_lasting, State.accepted_lasting, apply_ite State.lasting, ite_self]

theorem State.rxCompAck_lasting (c : Conn) (p : Packet) (s : State) : (State.rxCompAck c p s).lasting = s.lasting := by
  simp only [State.rxCompAck, State.silentDone_lasting, State.accepted_lasting, apply_ite State.lasting, ite_self]

theorem execReqDataRx_lasting (p : Packet) (s : State) : Leaves s (execReqDataRx p s) := by
  refine leaves_next ?_
  grind [State.receive_lasting, State.onConn_lasting, !State.rxReqData_lasting]

theorem execReqMergeRx_lasting (p : Packet) (s : State) : Leaves s (execReqMergeRx p s) := by
  refine leaves_next ?_
  grind [State.receive_lasting, State.onConn_lasting, !State.rxReqMerge_lasting]

theorem execRspDataRx_lasting (p : Packet) (s : State) : Leaves s (execRspDataRx p s) := by
  refine leaves_next ?_
  grind [State.receive_lasting, State.onConn_lasting, !State.rxRspData_lasting]

theorem execRspEndRx_lasting (p : Packet) (s : State) : Leaves s (execRspEndRx p s) := by
  refine leaves_next ?_
  grind [State.receive_lasting, State.onConn_lasting, !State.rxRspEnd_lasting]

theorem execMissReplyRx_lasting (p : Packet) (s : State) : Leaves s (execMissReplyRx p s) := by
  refine leaves_next ?_
  grind [State.receive_lasting, State.onConn_lasting, !State.rxMissReply_lasting]

theorem execSackRx_lasting (p : Packet) (s : State) : Leaves s (execSackRx p s) := by
  refine leaves_next ?_
  grind [State.receive_lasting, State.onConn_lasting, !State.rxSack_lasting]

theorem execCreditAskRx_lasting (p : Packet) (s : State) : Leaves s (execCreditAskRx p s) := by
  refine leaves_next ?_
  grind [State.receive_lasting, State.onConn_lasting, !State.rxCreditAsk_lasting]

theorem execFenceAckRx_lasting (p : Packet) (s : State) : Leaves s (execFenceAckRx p s) := by
  refine leaves_next ?_
  grind [State.receive_lasting, State.onConn_lasting, !State.rxFenceAck_lasting]

theorem execCompAckRx_lasting (p : Packet) (s : State) : Leaves s (execCompAckRx p s) := by
  refine leaves_next ?_
  grind [State.receive_lasting, State.onConn_lasting, !State.rxCompAck_lasting]

theorem State.rxWaiting_lasting (s : State) (p : Packet) : (s.rxWaiting p).lasting = s.lasting := by
  unfold State.rxWaiting
  grind [!State.rxReqData_lasting, !State.rxReqMerge_lasting, !State.rxRspData_lasting, !State.rxMissReply_lasting,
    !State.rxRspEnd_lasting, !State.rxSack_lasting, !State.rxCreditAsk_lasting, !State.rxFenceAck_lasting, !State.rxCompAck_lasting]

theorem execContextFetchDone_lasting (conn : ℕ) (s : State) : Leaves s (execContextFetchDone conn s) := by
  refine leaves_next ?_
  split
  · rfl
  split
  · rfl
  split
  · rfl
  next hv =>
    refine (foldl_lasting State.rxWaiting_lasting _ _).trans ?_
    refine (foldl_lasting (fun _ _ => State.launch_lasting ..) _ _).trans ?_
    exact (State.modConn_lasting ..).trans (State.contextRoom_lasting _ _ hv)

theorem execRetransmitTimerExpiry_lasting (conn space psn : ℕ) (s : State) : Leaves s (execRetransmitTimerExpiry conn space psn s) := by
  have expired : ∀ f, ((s.count 0x6300 4).modConn conn f).lasting = s.lasting := fun f =>
    (State.modConn_lasting ..).trans (State.count_lasting ..)
  refine leaves_next ?_
  split
  · rfl
  split
  · rfl
  split
  · rfl
  dsimp only
  split
  · split
    · exact (State.timerRetry_lasting _ _ _ _ fun _ => State.resend_lasting ..).trans (expired _)
    · exact (State.resend_lasting ..).trans (expired _)
  · split
    · exact (State.resetConn_lasting ..).trans (expired _)
    · exact (State.resend_lasting ..).trans (expired _)

theorem State.resendLast_lasting (s : State) (n : ℕ) (q : Req) (o : RemoteOp) : (s.resendLast n q o).lasting = s.lasting := by
  unfold State.resendLast
  dsimp only
  (repeat' split) <;> simp only [State.sendLoose_lasting]

theorem execResponseTimerExpiry_lasting (r : ℕ) (s : State) : Leaves s (execResponseTimerExpiry r s) := by
  refine leaves_next ?_
  grind [State.timerRetry_lasting, !State.modConn_lasting, !State.count_lasting, !State.resendLast_lasting]

theorem execSackDelayExpiry_lasting (conn space : ℕ) (s : State) : Leaves s (execSackDelayExpiry conn space s) := by
  refine leaves_next ?_
  (repeat' split) <;> simp only [State.sendSack_lasting, State.fenceAck_lasting]

theorem execBackoffExpiry_lasting (r : ℕ) (s : State) : Leaves s (execBackoffExpiry r s) := by
  refine leaves_next ?_
  grind [!State.launch_lasting, State.timerRetry_lasting, !State.resend_lasting, !State.modRemote_lasting]

theorem execCreditAskRepeat_lasting (conn : ℕ) (s : State) : Leaves s (execCreditAskRepeat conn s) := by
  refine leaves_next ?_
  (repeat' split) <;> simp only [State.creditAsk_lasting]

theorem execRateUpdate_lasting (conn peer port : ℕ) (mac : BitVec 48) (ip : BitVec 128) (s : State) :
    Leaves s (execRateUpdate conn peer port mac ip s) := leaves_next rfl

theorem execPathReadmit_lasting (conn path : ℕ) (s : State) : Leaves s (execPathReadmit conn path s) := leaves_next rfl

theorem execKeepalivePeriod_lasting (port node : ℕ) (s : State) : Leaves s (execKeepalivePeriod port node s) := by
  refine leaves_next ?_
  grind [!State.transmit_lasting, foldl_lasting]

theorem execKeepaliveRx_lasting (p : Packet) (s : State) : Leaves s (execKeepaliveRx p s) :=
  leaves_next (State.receive_lasting _ _ _ _ _ fun _ => State.accepted_lasting _)

theorem execPeerBankedTimeout_lasting (node : ℕ) (s : State) : Leaves s (execPeerBankedTimeout node s) := leaves_next rfl

theorem execPauseFrameRx_lasting (port : ℕ) (s : State) : Leaves s (execPauseFrameRx port s) := by
  refine leaves_next ?_
  simp only [State.count_lasting, apply_ite State.lasting, ite_self]

theorem State.setPort_lasting (s : State) (x : Port) : (s.setPort x).lasting = s.lasting := rfl

theorem State.trainWith_lasting (s : State) (p : ℕ → Bool) : (s.trainWith p).lasting = s.lasting := rfl

theorem State.reportPort_lasting (s : State) (p : ℕ) (st : PortStatus) (width : ℕ) : (s.reportPort p st width).lasting = s.lasting := by
  simp only [State.reportPort, State.setPort_lasting, State.trainWith_lasting, State.raise_lasting, apply_ite State.lasting, ite_self]

theorem State.capRates_lasting (s : State) (port : ℕ) : (s.capRates port).lasting = s.lasting := rfl

theorem State.flushAll_lasting (s : State) : (s.flushAll).lasting = s.lasting := by
  unfold State.flushAll
  grind [!State.askCredit_lasting, !State.egress_lasting, foldl_lasting]

theorem State.takeSpareLane_lasting (s : State) (p : ℕ) (spare : Option ℕ) : (s.takeSpareLane p spare).lasting = s.lasting := by
  unfold State.takeSpareLane
  dsimp only
  (repeat' split) <;> simp only [State.setPort_lasting, State.raise_lasting, State.count_lasting]

theorem execPortTrainingDone_lasting (port : ℕ) (partnerBanked : Bool) (s : State) :
    Leaves s (execPortTrainingDone port partnerBanked s) := by
  refine leaves_next ?_
  simp only [State.takeSpareLane_lasting, State.reportPort_lasting, State.flushAll_lasting, State.capRates_lasting, apply_ite
    State.lasting, ite_self]

theorem State.rerouteConn_lasting (s : State) (port : ℕ) (c : Conn) : (s.rerouteConn port c).lasting = s.lasting := by
  unfold State.rerouteConn
  grind [!State.resend_lasting, foldl_lasting]

theorem State.reroute_lasting (s : State) (port : ℕ) : (s.reroute port).lasting = s.lasting := by
  unfold State.reroute
  grind [!State.rerouteConn_lasting, foldl_lasting]

theorem execPortLinkDown_lasting (port : ℕ) (lost : BitVec 9) (s : State) : Leaves s (execPortLinkDown port lost s) := by
  refine leaves_next ?_
  simp only [State.setPort_lasting, State.reroute_lasting, State.reportPort_lasting, apply_ite State.lasting, ite_self]

end Sys2Proof.Machine
end

section

/-! What lasts under the definitions of `Sys2Proof/Machine/Remote.lean`. -/

namespace Sys2Proof.Machine
open Sys2Proof

theorem State.takeFrom_lasting (s : State) (y : Payer) (g : Region) (off len : ℕ) (dma : List Byte) {v : List Byte} {t : State}
    (h : s.takeFrom y g off len dma = .ok (some (v, t))) : t.lasting = s.lasting := by
  unfold State.takeFrom at h
  grind [→ State.loadTenant_lasting]

theorem State.issueRemote_lasting (s : State) (q : Req) (dma : List Byte) : (s.issueRemote q dma).lasting = s.lasting := by
  unfold State.issueRemote
  grind [!State.endReq_lasting, !State.issueOn_lasting, → State.holdKey_lasting, → State.takeFrom_lasting, !State.endRead_lasting]

theorem State.leaveLines_lasting (s : State) (r : ℕ) : (s.leaveLines r).lasting = s.lasting := rfl

theorem State.joinLines_lasting (s : State) (r c : ℕ) : (s.joinLines r c).lasting = s.lasting := by
  simp only [State.joinLines, State.leaveLines_lasting, State.pump_lasting, State.setNb_lasting, apply_ite State.lasting, ite_self]

theorem State.unlined_lasting (s : State) (q : Req) : (s.unlined q).lasting = s.lasting := by
  simp only [State.unlined, State.leaveLines_lasting, apply_ite State.lasting, ite_self]

theorem State.relined_lasting (s : State) (q : Req) (t : State) : (s.relined q t).lasting = t.lasting := by
  unfold State.relined
  split
  · rfl
  · exact State.pump_lasting t

theorem State.atBoundaries_lasting (s : State) (q : Req) (go : Req → State → State) (hgo : ∀ q' u, (go q' u).lasting = u.lasting) :
    (s.atBoundaries q go).lasting = s.lasting := by
  unfold State.atBoundaries
  grind [!State.joinLines_lasting, !State.relined_lasting, !State.unlined_lasting]

theorem State.remoteRow_lasting (s : State) (r op : ℕ) (dma : List Byte) (target : Req → State → State)
    (htarget : ∀ q u, (target q u).lasting = u.lasting) : (s.remoteRow r op dma target).lasting = s.lasting := by
  unfold State.remoteRow
  grind [State.gated_lasting, State.atBoundaries_lasting, !State.pump_lasting, !State.leaveLines_lasting, !State.issueRemote_lasting]

theorem State.onRegion_lasting (s : State) (q : Req) (need : KeyRight) (len : ℕ) (go : Region → State → State)
    (hgo : ∀ g u, (go g u).lasting = u.lasting) : (s.onRegion q need len go).lasting = s.lasting := by
  unfold State.onRegion
  grind [→ State.holdKey_lasting, !State.endReq_lasting]

theorem State.placeWrite_lasting (s : State) (q : Req) (g : Region) (go fail : State → State) (hgo : ∀ u, (go u).lasting = u.lasting)
    (hfail : ∀ u, (fail u).lasting = u.lasting) : (s.placeWrite q g go fail).lasting = s.lasting := by
  unfold State.placeWrite
  split
  next u hu => exact (hgo u).trans (State.putLocal_done_lasting _ _ _ _ _ hu)
  next st u hu => exact (State.endReq_lasting ..).trans ((hfail u).trans (State.putLocal_bad_lasting _ _ _ _ _ hu))
  · split
    next u hu => exact (State.accept_lasting ..).trans (State.reqRoom_lasting _ _ _ _ _ hu)
    · exact (State.endReq_lasting ..).trans (hfail s)

theorem execWrite_lasting (r : ℕ) (dma : List Byte) (s : State) : Leaves s (execWrite r dma s) := by
  refine leaves_next ?_
  grind [State.remoteRow_lasting, State.checked_lasting, State.onRegion_lasting, State.placeWrite_lasting, !State.endReq_lasting]

theorem execRead_lasting (r : ℕ) (dma : List Byte) (s : State) : Leaves s (execRead r dma s) := by
  refine leaves_next ?_
  grind [State.remoteRow_lasting, State.onRegion_lasting, → State.takeFrom_lasting, !State.endRead_lasting, !State.endReq_lasting,
    !State.modReq_lasting]

theorem execWriteImm_lasting (r : ℕ) (dma : List Byte) (s : State) : Leaves s (execWriteImm r dma s) := by
  refine leaves_next ?_
  grind [State.remoteRow_lasting, State.checked_lasting, State.onRegion_lasting, State.placeWrite_lasting, !State.releaseCq_lasting,
    !State.reserveCq_lasting, !State.endReq_lasting, !State.notifyReserved_lasting]

theorem State.withLedger_lasting (s : State) (n : ℕ) {got : Unit} {t : State} (h : s.withLedger n = .got got t) :
    t.lasting = s.lasting := by
  unfold State.withLedger at h
  grind [→ State.allocPlain_lasting, !State.modConn_lasting]

theorem State.atomicRow_lasting (s : State) (q : Req) (width : ℕ) (f : List Byte → Option (List Byte) × ℕ × List Byte) :
    (s.atomicRow q width f).lasting = s.lasting := by
  unfold State.atomicRow
  grind [State.onRegion_lasting, → State.withLedger_lasting, !State.endReq_lasting, !State.needSectors_lasting, →
    State.loadTenant_lasting, !State.endRead_lasting, → State.writeTenant_done_lasting, → State.writeTenant_bad_lasting,
    !State.noteFailed_lasting, !State.modConn_lasting, !State.answer_lasting, !State.modReq_lasting]

theorem execFadd_lasting (r : ℕ) (s : State) : Leaves s (execFadd r s) := by
  refine leaves_next ?_
  grind [State.remoteRow_lasting, !State.atomicRow_lasting]

theorem execSwap_lasting (r : ℕ) (s : State) : Leaves s (execSwap r s) := by
  refine leaves_next ?_
  grind [State.remoteRow_lasting, !State.atomicRow_lasting]

theorem execCas_lasting (r : ℕ) (s : State) : Leaves s (execCas r s) := by
  refine leaves_next ?_
  grind [State.remoteRow_lasting, !State.atomicRow_lasting]

theorem execCas128_lasting (r : ℕ) (dma : List Byte) (s : State) : Leaves s (execCas128 r dma s) := by
  refine leaves_next ?_
  grind [State.remoteRow_lasting, State.checked_lasting, !State.atomicRow_lasting]

theorem execLedgerQuery_lasting (r : ℕ) (s : State) : Leaves s (execLedgerQuery r s) := by
  refine leaves_next ?_
  grind [State.remoteRow_lasting, State.checked_lasting, State.onRegion_lasting, → State.loadTenant_lasting, !State.endRead_lasting,
    !State.endReq_lasting, !State.modReq_lasting]

theorem State.sendAttend_lasting (s : State) (q : Req) (peer : ℕ) : (s.sendAttend q peer).lasting = s.lasting := by
  unfold State.sendAttend
  grind [!State.endReq_lasting, !State.noteFailed_lasting, → State.loadTenant_lasting, !State.endRead_lasting, !State.issueOn_lasting]

theorem State.sendAppend_lasting (s : State) (q : Req) (peer : ℕ) (dma : List Byte) : (s.sendAppend q peer dma).lasting = s.lasting := by
  unfold State.sendAppend
  grind [→ State.holdKey_lasting, !State.endReq_lasting, → State.takeFrom_lasting, !State.endRead_lasting, !State.issueOn_lasting]

theorem execRemoteRequest_lasting (r : ℕ) (dma : List Byte) (s : State) : Leaves s (execRemoteRequest r dma s) := by
  refine leaves_next ?_
  grind [State.gated_lasting, !State.sendAttend_lasting, !State.sendAppend_lasting, !State.issueOn_lasting]

theorem State.setRegionGen_lasting (s : State) (x : RegionGen) : (s.setRegionGen x).lasting = s.lasting := rfl

theorem execReg_lasting (r : ℕ) (s : State) : Leaves s (execReg r s) := by
  refine leaves_next (State.runReq_lasting _ _ _ _ fun q u => State.checked_lasting _ _ _ _ fun u => ?_)
  split
  · exact State.endReq_lasting ..
  · exact (State.okReq_lasting ..).trans (State.setRegionGen_lasting ..)

theorem State.advanceRegion_lasting (s : State) (g : Region) : (s.advanceRegion g).lasting = s.lasting := rfl

theorem State.freeRegion_lasting (s : State) (slot : ℕ) : (s.freeRegion slot).lasting = s.lasting := rfl

theorem State.sweepRegions_lasting (s : State) : (s.sweepRegions).lasting = s.lasting := by
  unfold State.sweepRegions
  grind [!State.freeRegion_lasting, foldl_lasting]

theorem State.oldKey_lasting (s : State) (q : Req) (slot gen : ℕ) : (s.oldKey q slot gen).lasting = s.lasting := by
  simp only [State.oldKey, State.accept_lasting, State.endReq_lasting, apply_ite State.lasting, ite_self]

theorem execRevoke_lasting (r : ℕ) (s : State) : Leaves s (execRevoke r s) := by
  refine leaves_next ?_
  grind [State.runReq_lasting, !State.endReq_lasting, !State.okReq_lasting, !State.freeRegion_lasting, !State.advanceRegion_lasting,
    !State.accept_lasting, !State.modReq_lasting, !State.oldKey_lasting]

end Sys2Proof.Machine
end

section

/-! What lasts under the definitions of `Sys2Proof/Machine/Window.lean`. -/

namespace Sys2Proof.Machine
open Sys2Proof

theorem State.modWinOp_lasting (s : State) (id : ℕ) (f : WinOp → WinOp) : (s.modWinOp id f).lasting = s.lasting := rfl

theorem State.winFault_lasting (s : State) (ld t dpa addr : ℕ) (write : Bool) : (s.winFault ld t dpa addr write).lasting = s.lasting := by
  simp only [State.winFault, State.raiseTenant_lasting, State.vendorRecord_lasting, State.count_lasting]

theorem State.winIssue_lasting (s : State) (o : WinOp) : (s.winIssue o).lasting = s.lasting := by
  simp only [State.winIssue, State.issueOn_lasting, State.modWinOp_lasting, State.lasting_mk, State.lasting_eta]

theorem State.winTake_lasting (s : State) (o : WinOp) : (s.winTake o).lasting = s.lasting := by
  simp only [State.winTake, State.modWinOp_lasting, State.emit_lasting, apply_ite State.lasting, ite_self]

theorem State.winLose_lasting (s : State) (o : WinOp) : (s.winLose o).lasting = s.lasting := by
  simp only [State.winLose, State.winFault_lasting, State.emit_lasting, State.undefLine_lasting, State.lasting_mk, State.lasting_eta,
    apply_ite State.lasting, ite_self]

theorem State.winStep_lasting (s : State) (id : ℕ) : (s.winStep id).lasting = s.lasting := by
  unfold State.winStep
  dsimp only
  (repeat' split) <;> simp only [State.winLose_lasting, State.winTake_lasting, State.winIssue_lasting]

theorem State.winPump_lasting (s : State) : (s.winPump).lasting = s.lasting := by
  unfold State.winPump
  grind [!State.winStep_lasting, foldl_lasting]

theorem State.winAccess_lasting (s : State) (ld t addr : ℕ) (write : Option (BitVec 512)) :
    (s.winAccess ld t addr write).lasting = s.lasting := by
  unfold State.winAccess
  dsimp only
  (repeat' split) <;> simp only [State.vendorRecord_lasting, State.emit_lasting, State.undefLine_lasting, State.count_lasting,
    State.winFault_lasting, State.winPump_lasting, State.lasting_mk, State.lasting_eta]

theorem execWindowRead_lasting (ld tenant addr : ℕ) (s : State) : Leaves s (execWindowRead ld tenant addr s) := by
  refine leaves_next ?_
  simp only [State.winAccess_lasting]

theorem execWindowWrite_lasting (ld tenant addr : ℕ) (line : BitVec 512) (s : State) :
    Leaves s (execWindowWrite ld tenant addr line s) := by
  refine leaves_next ?_
  simp only [State.winAccess_lasting]

theorem State.winSyncs_lasting (s : State) : (s.winSyncs).lasting = s.lasting :=
  foldl_lasting (fun u _ => State.emit_lasting u _) _ _

theorem State.winWriteEnded_lasting (s : State) (o : WinOp) (failed : Bool) : (s.winWriteEnded o failed).lasting = s.lasting := by
  simp only [State.winWriteEnded, State.winSyncs_lasting, State.lasting_mk, State.lasting_eta, apply_ite State.lasting, ite_self]

theorem execWinsyncRead_lasting (ld tenant : ℕ) (s : State) : Leaves s (execWinsyncRead ld tenant s) := by
  refine leaves_next ?_
  simp only [State.emit_lasting, State.winSyncs_lasting, State.lasting_mk, State.lasting_eta, apply_ite State.lasting, ite_self]

theorem State.winEnd_lasting (s : State) (op : ℕ) (st : Status) (reply : List Byte) : (s.winEnd op st reply).lasting = s.lasting := by
  unfold State.winEnd
  dsimp only
  (repeat' split) <;> simp only [State.winFault_lasting, State.winWriteEnded_lasting, State.emit_lasting, State.undefLine_lasting,
    State.lasting_mk, State.lasting_eta]

theorem execWinLimitExpiry_lasting (op : ℕ) (s : State) : Leaves s (execWinLimitExpiry op s) := by
  refine leaves_next ?_
  (repeat' split) <;> simp only [State.raiseTenant_lasting, State.vendorRecord_lasting, State.count_lasting, State.undefLine_lasting,
    State.modWinOp_lasting, State.lasting_mk, State.lasting_eta]

theorem State.setWindow_lasting (s : State) (t slot : ℕ) (w : Option Window) : (s.setWindow t slot w).lasting = s.lasting := rfl

theorem execWinBind_lasting (r : ℕ) (s : State) : Leaves s (execWinBind r s) := by
  refine leaves_next ?_
  grind [State.runReq_lasting, !State.okReq_lasting, State.checked_lasting, !State.setWindow_lasting, !State.accept_lasting]

end Sys2Proof.Machine
end

section

/-! What lasts under the definitions of `Sys2Proof/Machine/Queues.lean`. -/

namespace Sys2Proof.Machine
open Sys2Proof

theorem State.doorbellFault_lasting (s : State) (ld tenant : ℕ) : (s.doorbellFault ld tenant).lasting = s.lasting := by
  simp only [State.doorbellFault, State.raiseTenant_lasting, State.count_lasting]

theorem execPiDoorbellWrite_lasting (ld q : ℕ) (v : BitVec 32) (s : State) : Leaves s (execPiDoorbellWrite ld q v s) := by
  refine leaves_next ?_
  (repeat' split) <;> simp only [State.modWq_lasting, State.doorbellFault_lasting]

theorem execCqCiDoorbellWrite_lasting (ld q : ℕ) (v : BitVec 32) (s : State) : Leaves s (execCqCiDoorbellWrite ld q v s) := by
  refine leaves_next ?_
  (repeat' split) <;> simp only [State.modCq_lasting, State.doorbellFault_lasting]

theorem State.takeEntry_lasting (s : State) (w : Wq) (e : BitVec 512) (st : Option Status) : (s.takeEntry w e st).lasting = s.lasting :=
  rfl

theorem execWorkEntryStart_lasting (q : ℕ) (e : BitVec 512) (s : State) : Leaves s (execWorkEntryStart q e s) := by
  refine leaves_next ?_
  (repeat' split) <;> simp only [State.takeEntry_lasting]

theorem State.wakeHolders_lasting (s : State) : (s.wakeHolders).lasting = s.lasting := rfl

theorem State.removeReq_lasting (s : State) (r : ℕ) : (s.removeReq r).lasting = s.lasting := by
  simp only [State.removeReq, State.winPump_lasting, State.turns_lasting, State.sweepRegions_lasting, State.lasting_mk, State.lasting_eta]

theorem State.complete_lasting (s : State) (w : Wq) (e : BitVec 512) (st : Status) (result : ℕ) :
    (s.complete w e st result).lasting = s.lasting := by
  simp only [State.complete, State.writeCqe_lasting, State.raiseCq_lasting, apply_ite State.lasting, ite_self]

theorem State.queueEnd_lasting (s : State) (q : Req) (n : ℕ) (st : Status) (result : ℕ) :
    (s.queueEnd q n st result).lasting = s.lasting := by
  unfold State.queueEnd
  dsimp only
  (repeat' split) <;> simp only [State.complete_lasting, State.modWq_lasting, State.releaseCq_lasting, State.wakeHolders_lasting]

theorem State.dropDead_lasting (s : State) (n : ℕ) : (s.dropDead n).lasting = s.lasting := by
  simp only [State.dropDead, State.lasting_mk, State.lasting_eta, apply_ite State.lasting, ite_self]

theorem State.streamEnd_lasting (s : State) (slot r : ℕ) (st : Status) : (s.streamEnd slot r st).lasting = s.lasting := rfl

theorem State.remoteAnswer_lasting (s : State) (q : Req) (n som : ℕ) (st : Status) (result : ℕ) :
    (s.remoteAnswer q n som st result).lasting = s.lasting := by
  simp only [State.remoteAnswer, State.compAck_lasting, State.answer_lasting, State.lasting_mk, State.lasting_eta, apply_ite
    State.lasting, ite_self]

theorem State.meterEnd_lasting (s : State) (q : Req) : (s.meterEnd q).lasting = s.lasting := rfl

theorem State.countReh_lasting (s : State) (st : Status) : (s.countReh st).lasting = s.lasting := by
  simp only [State.countReh, State.count_lasting, apply_ite State.lasting, ite_self]

theorem State.report_lasting (s : State) (q : Req) (st : Status) (result : ℕ) : (s.report q st result).lasting = s.lasting := by
  unfold State.report
  dsimp only
  (repeat' split) <;> simp only [State.countReh_lasting, State.dropDead_lasting, State.removeReq_lasting, State.meterEnd_lasting,
    State.queueEnd_lasting, State.closeIfIdle_lasting, State.advanceFence_lasting, State.remoteAnswer_lasting, State.modLd_lasting,
    State.streamEnd_lasting, State.winEnd_lasting]

theorem State.lastMessage_lasting (s : State) (q : Req) (st : Status) (result : ℕ) : (s.lastMessage q st result).lasting = s.lasting := by
  simp only [State.lastMessage, State.failContribution_lasting, apply_ite State.lasting, ite_self]

theorem State.finish_lasting (s : State) (r : ℕ) : (s.finish r).lasting = s.lasting := by
  have released : ∀ (l : List ((ℕ × ℕ) × ℕ)) (u : State), (l.foldl (fun s x => s.releaseFrame x.2) u).lasting = u.lasting :=
    foldl_lasting fun u x => State.releaseFrame_lasting u x.2
  unfold State.finish
  split
  · rfl
  split
  · dsimp only
    split
    · exact State.lastMessage_lasting ..
    split
    · exact (State.report_lasting ..).trans ((released _ _).trans (State.lastMessage_lasting ..))
    · exact State.lastMessage_lasting ..
  · rfl

theorem execRequestEnd_lasting (r : ℕ) (s : State) : Leaves s (execRequestEnd r s) := by
  refine leaves_next ?_
  (repeat' split) <;> simp only [State.finish_lasting]

theorem execFence_lasting (r : ℕ) (s : State) : Leaves s (execFence r s) := by
  refine leaves_next ?_
  grind [State.runReq_lasting, !State.waitReq_lasting, !State.okReq_lasting]

theorem execWaitCount_lasting (r : ℕ) (s : State) : Leaves s (execWaitCount r s) := by
  refine leaves_next ?_
  grind [State.runReq_lasting, !State.endReq_lasting, !State.okReq_lasting, !State.waitReq_lasting]

theorem execWaitCountTimeout_lasting (r : ℕ) (s : State) : Leaves s (execWaitCountTimeout r s) := by
  refine leaves_next ?_
  (repeat' split) <;> simp only [State.modWq_lasting, State.endReq_lasting]

end Sys2Proof.Machine
end

section

/-! What lasts under the definitions of `Sys2Proof/Machine/Prefix.lean`. -/

namespace Sys2Proof.Machine
open Sys2Proof

theorem State.psRow_lasting (s : State) (r op : ℕ) (go : Req → State → State) (hgo : ∀ q u, (go q u).lasting = u.lasting) :
    (s.psRow r op go).lasting = s.lasting := by
  unfold State.psRow
  grind [State.runReq_lasting, !State.endReq_lasting]

theorem execPsInsert_lasting (r : ℕ) (s : State) : Leaves s (execPsInsert r s) := by
  refine leaves_next (State.psRow_lasting _ _ _ _ fun q u => State.onSeq_lasting _ _ _ _ fun x => ?_)
  refine State.checked_lasting _ _ _ _ fun u => ?_
  dsimp only
  split
  · exact (State.endReq_lasting ..).trans (State.count_lasting ..)
  · exact (State.okReq_lasting ..).trans (State.count_lasting ..)

theorem execPsRemove_lasting (r : ℕ) (s : State) : Leaves s (execPsRemove r s) := by
  refine leaves_next ?_
  grind [State.psRow_lasting, !State.okReq_lasting, !State.psDrop_lasting, !State.endReq_lasting]

theorem execPsPurge_lasting (r : ℕ) (s : State) : Leaves s (execPsPurge r s) := by
  refine leaves_next ?_
  grind [State.psRow_lasting, !State.okReq_lasting, !State.psDrop_lasting]

theorem State.psForgotten_lasting (s : State) (q : Req) : (s.psForgotten q).lasting = s.lasting := rfl

theorem State.psNote_lasting (s : State) (q : Req) : (s.psNote q).lasting = s.lasting := by
  simp only [State.psNote, State.noteFailed_lasting, apply_ite State.lasting, ite_self]

theorem State.countLooked_lasting (s : State) (t : ℕ) (xs : List Looked) : (s.countLooked t xs).lasting = s.lasting := rfl

theorem execPsSearch_lasting (r : ℕ) (s : State) : Leaves s (execPsSearch r s) := by
  refine leaves_next ?_
  grind [State.psRow_lasting, State.checked_lasting, !State.psNote_lasting, !State.psForgotten_lasting, → State.loadTenant_lasting,
    !State.endReq_lasting, State.store_lasting, !State.okReq_lasting, !State.countLooked_lasting]

end Sys2Proof.Machine
end

section

/-! What lasts under the definitions of `Sys2Proof/Machine/Loans.lean`. -/

namespace Sys2Proof.Machine
open Sys2Proof

theorem State.offerExtent_lasting (s : State) (c : Comp) (off len : ℕ) : (s.offerExtent c off len).lasting = s.lasting := by
  unfold State.offerExtent
  grind [!State.dcRecord_lasting, !State.modLd_lasting]

theorem State.offerParts_lasting (s : State) (c : Comp) (off len : ℕ) : (s.offerParts c off len).lasting = s.lasting := by
  unfold State.offerParts
  grind [!State.modLd_lasting, !State.offerExtent_lasting, foldl_lasting]

theorem State.forceRelease_lasting (s : State) (c : Comp) : (s.forceRelease c).lasting = s.lasting := by
  unfold State.forceRelease
  grind [!State.modLd_lasting, !State.dcRecord_lasting, foldl_lasting]

theorem State.stopWork_lasting (s : State) (t : ℕ) : (s.stopWork t).lasting = s.lasting := by
  unfold State.stopWork
  grind [!State.endWalks_lasting, !State.dropJobs_lasting, foldl_lasting]

theorem State.resetTenant_lasting (s : State) (t : ℕ) : (s.resetTenant t).lasting = s.lasting := by
  unfold State.resetTenant
  grind [!State.setupFailed_lasting, !State.resetConn_lasting, foldl_lasting]

theorem State.endWindows_lasting (s : State) (t : ℕ) : (s.endWindows t).lasting = s.lasting := by
  unfold State.endWindows
  grind [!State.winEnd_lasting, foldl_lasting]

theorem State.dropHoldings_lasting (s : State) (t : ℕ) : (s.dropHoldings t).lasting = s.lasting := by
  have regions : ∀ (l : List Region) (u : State), (l.foldl (fun s g => (s.advanceRegion g).freeRegion g.slot) u).lasting = u.lasting :=
    foldl_lasting fun u g => (State.freeRegion_lasting ..).trans (State.advanceRegion_lasting ..)
  have merges : ∀ (l : List MergeCtx) (u : State), (l.foldl (fun s x => s.dropMerge x .revoked) u).lasting = u.lasting :=
    foldl_lasting fun u x => State.dropMerge_lasting ..
  unfold State.dropHoldings
  refine (State.endWindows_lasting ..).trans ?_
  refine (State.psDrop_lasting ..).trans ?_
  exact (merges _ _).trans (regions _ s)

theorem State.endRequests_lasting (s : State) (t : ℕ) : (s.endRequests t).lasting = s.lasting := by
  refine (foldl_lasting State.finish_lasting _ _).trans (foldl_lasting (fun u r => ?_) _ _)
  split
  · split
    · exact State.abandon_lasting ..
    · rfl
  · rfl

theorem State.dropSeqs_lasting (s : State) (t : ℕ) : (s.dropSeqs t).lasting = s.lasting :=
  foldl_lasting (f := fun s x => { s with gens := { s.gens with seqs := assocPut s.gens.seqs (Seq.idx x) (nextGen x.gen) 0 } })
    (fun _ _ => rfl)
    (s.seqs.filter (·.tenant == t)) s

theorem State.stopMigration_lasting (s : State) (f : Frame) : (s.stopMigration f).lasting = s.lasting := by
  unfold State.stopMigration
  grind [!State.modFrame_lasting, !State.quarantine_lasting]

theorem State.dropLines_lasting (s : State) (t : ℕ) : (s.dropLines t).lasting = s.lasting := by
  refine foldl_lasting (fun u a => ?_) _ _
  split
  · rfl
  · exact State.undefLine_lasting ..

theorem State.tearDown_lasting (s : State) (t : ℕ) : (s.tearDown t).lasting = s.lasting := by
  unfold State.tearDown
  grind [!State.modMem_lasting, !State.dropLines_lasting, !State.dropSeqs_lasting, !State.releaseFrame_lasting,
    !State.stopMigration_lasting, foldl_lasting]

theorem State.quenchTenant_lasting (s : State) (t : ℕ) : (s.quenchTenant t).2.lasting = s.lasting := by
  have quenching : ∀ (l : List Comp) (u : State),
    (l.foldl (fun s c => s.modComp c.slot fun c => { c with state := .quenching }) u).lasting = u.lasting :=
    foldl_lasting fun _ _ => rfl
  have cleared : ∀ (l : List Comp) (u : State),
      (l.foldl (fun s c => (s.clearScalars (0x5000 + c.slot)).clearOctets (0x5000 + c.slot) 6) u).lasting = u.lasting :=
    foldl_lasting fun _ _ => rfl
  unfold State.quenchTenant
  dsimp only
  refine (State.modTenant_lasting ..).trans ?_
  refine (cleared _ _).trans ?_
  refine (State.tearDown_lasting ..).trans ?_
  refine (State.endRequests_lasting ..).trans ?_
  refine (State.dropHoldings_lasting ..).trans ?_
  refine (State.resetTenant_lasting ..).trans ?_
  refine (State.stopWork_lasting ..).trans ?_
  refine (foldl_lasting State.forceRelease_lasting _ _).trans ?_
  exact (State.raiseTenant_lasting ..).trans (quenching _ _)

theorem State.endLive_lasting (s : State) (r : ℕ) (st : Status) (result : ℕ) : (s.endLive r st result).lasting = s.lasting := by
  unfold State.endLive
  grind [!State.endReq_lasting]

theorem State.quenchLoan_lasting (s : State) (c : Comp) (st : Status) (result : ℕ) : (s.quenchLoan c st result).2.lasting = s.lasting := by
  unfold State.quenchLoan
  dsimp only
  (repeat' split) <;> simp only [State.quenchTenant_lasting, State.endLive_lasting, State.raise_lasting, State.lasting_mk,
    State.lasting_eta]

theorem execQuench_lasting (r : ℕ) (s : State) : Leaves s (execQuench r s) := by
  refine leaves_next ?_
  grind [State.runReq_lasting, State.checked_lasting, !State.quenchLoan_lasting, !State.okReq_lasting]

theorem State.streamParts_lasting (s : State) (key : BitVec 512) (t n : ℕ) (xs : List Mapping) :
    (s.streamParts key t n xs).2.2.lasting = s.lasting := by
  fun_induction State.streamParts s key t n xs <;> grind [!State.newSerial_lasting]

theorem State.annealStream_lasting (s : State) (c : Comp) (freeze : ℕ) : (s.annealStream c freeze).2.2.2.lasting = s.lasting := by
  simp only [State.annealStream, State.streamParts_lasting]

theorem State.modReclaim_lasting (s : State) (slot : ℕ) (f : Reclaim → Reclaim) : (s.modReclaim slot f).lasting = s.lasting := rfl

theorem State.streamWrites_lasting (s : State) (slot qp key k off : ℕ) (bs : List Byte) : (s.streamWrites slot qp key k off bs).lasting =
    s.lasting := by
  induction k generalizing s off bs with
  | zero => rfl
  | succ k ih => exact ih _ _ _

theorem State.streamPump_lasting (s : State) (slot : ℕ) : (s.streamPump slot).lasting = s.lasting := by
  unfold State.streamPump
  grind [!State.endReq_lasting, !State.issueOn_lasting, foldl_lasting]

theorem State.annealWrite_done_lasting (s : State) (e : BitVec 512) (off : ℕ) (bs : List Byte) {t : State}
    (h : s.annealWrite e off bs = .done t) : t.lasting = s.lasting := by
  unfold State.annealWrite at h
  grind [→ State.putLocal_done_lasting]

theorem State.annealWrite_bad_lasting (s : State) (e : BitVec 512) (off : ℕ) (bs : List Byte) {st : Status} {t : State}
    (h : s.annealWrite e off bs = .bad st t) : t.lasting = s.lasting := by
  unfold State.annealWrite at h
  grind [→ State.putLocal_bad_lasting]

theorem State.annealWrites_done_lasting (s : State) (e : BitVec 512) (xs : List (ℕ × List Byte)) {t : State}
    (h : s.annealWrites e xs = .done t) : t.lasting = s.lasting := by
  fun_induction State.annealWrites s e xs <;> grind [→ State.annealWrite_done_lasting]

theorem State.annealWrites_bad_lasting (s : State) (e : BitVec 512) (xs : List (ℕ × List Byte)) {st : Status} {t : State}
    (h : s.annealWrites e xs = .bad st t) : t.lasting = s.lasting := by
  fun_induction State.annealWrites s e xs <;> grind [→ State.annealWrite_done_lasting, → State.annealWrite_bad_lasting]

theorem State.annealLocal_lasting (s : State) (q : Req) (c : Comp) (x : Reclaim) : (s.annealLocal q c x).lasting = s.lasting := by
  unfold State.annealLocal
  grind [!State.annealStream_lasting, → State.annealWrites_done_lasting, → State.annealWrites_bad_lasting, !State.quenchLoan_lasting, →
    State.reqRoom_lasting, getD_lasting]

theorem State.annealRemote_lasting (s : State) (q : Req) (c : Comp) (x : Reclaim) : (s.annealRemote q c x).lasting = s.lasting := by
  unfold State.annealRemote
  dsimp only
  (repeat' split) <;> simp only [State.quenchLoan_lasting, State.streamPump_lasting, State.streamWrites_lasting, State.modReclaim_lasting,
    State.annealStream_lasting]

theorem State.chargeAnneal_lasting (s : State) (q : Req) (c : Comp) : (s.chargeAnneal q c).lasting = s.lasting := by
  unfold State.chargeAnneal
  grind [!State.chargePins_lasting, foldl_lasting]

theorem State.annealGo_lasting (s : State) (q : Req) : (s.annealGo q).lasting = s.lasting := by
  unfold State.annealGo
  dsimp only
  (repeat' split) <;> simp only [State.chargeAnneal_lasting, State.modReclaim_lasting, State.annealRemote_lasting,
    State.annealLocal_lasting]

theorem State.annealAccept_lasting (s : State) (q : Req) (c : Comp) : (s.annealAccept q c).lasting = s.lasting := by
  simp only [State.annealAccept, State.raiseTenant_lasting, State.modComp_lasting, State.waitReq_lasting, State.lasting_mk,
    State.lasting_eta]

theorem execAnneal_lasting (r : ℕ) (s : State) : Leaves s (execAnneal r s) := by
  refine leaves_next ?_
  grind [!State.annealGo_lasting, State.runReq_lasting, State.checked_lasting, !State.annealAccept_lasting]

theorem execAnnealDeadlineExpiry_lasting (slot : ℕ) (s : State) : Leaves s (execAnnealDeadlineExpiry slot s) := by
  refine leaves_next ?_
  (repeat' split) <;> simp only [State.quenchLoan_lasting]

theorem State.unbindSource_lasting (s : State) (src : ℕ) : (s.unbindSource src).lasting = s.lasting := by
  simp only [State.unbindSource, State.setMask_lasting, State.clearPend_lasting, State.setOctets_lasting]

theorem State.unbindSources_lasting (s : State) (t : ℕ) : (s.unbindSources t).lasting = s.lasting := by
  unfold State.unbindSources
  grind [!State.unbindSource_lasting, foldl_lasting]

theorem State.clearTenant_lasting (s : State) (t : ℕ) : (s.clearTenant t).lasting = s.lasting := rfl

theorem State.endTenantSubs_lasting (s : State) (t : ℕ) : (s.endTenantSubs t).lasting = s.lasting := rfl

theorem execZeroingDone_lasting (tenant : ℕ) (s : State) : Leaves s (execZeroingDone tenant s) := by
  refine leaves_next ?_
  split
  · rfl
  split
  · rfl
  refine (State.clearTenant_lasting ..).trans ((State.endTenantSubs_lasting ..).trans ((State.unbindSources_lasting ..).trans ?_))
  exact foldl_lasting State.endQuarantine_lasting _ s

end Sys2Proof.Machine
end

section

/-! What lasts under the definitions of `Sys2Proof/Machine/Staging.lean`. -/

namespace Sys2Proof.Machine
open Sys2Proof

theorem State.flashWrite_lasting (s : State) : (s.flashWrite).lasting = s.lasting := rfl

theorem State.applyObject_lasting (s : State) (idx k : ℕ) (o : Obj) (bs : List (ℕ × Byte)) :
    (s.applyObject idx k o bs).lasting = s.lasting := by
  unfold State.applyObject
  grind [!State.setOct_lasting, !State.setScalar_lasting, foldl_lasting]

theorem State.applyChanges_lasting (s : State) (idx : ℕ) (c : Changes) : (s.applyChanges idx c).lasting = s.lasting := by
  unfold State.applyChanges
  grind [!State.applyObject_lasting, !State.flashWrite_lasting, foldl_lasting]

theorem State.commitChecked_lasting (s : State) (idx : ℕ) (c : Changes) (checks : List (Bool × Status)) (go : State → State)
    (hgo : ∀ u, (go u).lasting = u.lasting) : (s.commitChecked idx c checks go).2.lasting = s.lasting := by
  unfold State.commitChecked
  grind [!State.applyChanges_lasting]

end Sys2Proof.Machine
end

section

/-! What lasts under the definitions of `Sys2Proof/Machine/Tenants.lean`. -/

namespace Sys2Proof.Machine
open Sys2Proof

theorem State.applyTenant_lasting (s : State) (t : ℕ) (c : Changes) : (s.applyTenant t c).lasting = s.lasting := by
  unfold State.applyTenant
  grind [!State.refill_lasting, !State.applyChanges_lasting, !State.modTenant_lasting]

theorem State.activateTenant_lasting (s : State) (t : ℕ) (c : Changes) {u : State} (h : s.activateTenant t c = some u) : u.lasting =
    s.lasting := by
  obtain ⟨v, hv, rfl⟩ := Option.map_eq_some_iff.mp h
  refine (State.count_lasting ..).trans ((State.applyChanges_lasting ..).trans ?_)
  have := State.addRoot_lasting s t hv
  exact this

theorem State.freeTenant_lasting (s : State) (t : ℕ) : (s.freeTenant t).lasting = s.lasting := by
  unfold State.freeTenant
  grind [!State.quenchLoan_lasting, !State.raise_lasting, !State.quenchTenant_lasting]

theorem State.commitTenant_lasting (s : State) (t : ℕ) (c : Changes) : (s.commitTenant t c).2.lasting = s.lasting := by
  unfold State.commitTenant
  grind [→ State.activateTenant_lasting, !State.freeTenant_lasting, !State.applyTenant_lasting]

theorem State.repath_lasting (s : State) (m : CompMap) (c : Conn) : (s.repath m c).lasting = s.lasting := by
  simp only [State.repath, State.modConn_lasting, State.resetConn_lasting, apply_ite State.lasting, ite_self]

theorem State.installMap_lasting (s : State) (slot : ℕ) (m : CompMap) : (s.installMap slot m).lasting = s.lasting := by
  unfold State.installMap
  grind [!State.modComp_lasting, !State.repath_lasting, foldl_lasting]

theorem execCompMapReleased_lasting (slot : ℕ) (s : State) : Leaves s (execCompMapReleased slot s) := by
  refine leaves_next ?_
  (repeat' split) <;> simp only [State.raise_lasting, State.modComp_lasting]

theorem State.loanBytesChanged_lasting (s : State) (x : Comp) (old new : ℕ) : (s.loanBytesChanged x old new).lasting = s.lasting := by
  unfold State.loanBytesChanged
  grind [!State.offerParts_lasting, !State.dcRecord_lasting]

theorem State.releaseComp_lasting (s : State) (x : Comp) : (s.releaseComp x).lasting = s.lasting := by
  unfold State.releaseComp
  grind [!State.modComp_lasting, !State.resetConn_lasting, !State.sweepRegions_lasting, !State.advanceRegion_lasting, foldl_lasting]

theorem State.activateComp_lasting (s : State) (k : ℕ) (c : Changes) : (s.activateComp k c).lasting = s.lasting := by
  simp only [State.activateComp, State.applyChanges_lasting, State.offerExtent_lasting, State.lasting_mk, State.lasting_eta, apply_ite
    State.lasting, ite_self]

theorem State.takeMap_lasting (s : State) (k : ℕ) (bs : List Byte) : (s.takeMap k bs).lasting = s.lasting := by
  simp only [State.takeMap, State.installMap_lasting, State.setOctets_lasting, State.clearOctets_lasting]

theorem State.commitHeld_lasting (s : State) (x : Comp) (c : Changes) : (s.commitHeld x c).2.lasting = s.lasting := by
  unfold State.commitHeld
  dsimp only
  (repeat' split) <;> simp only [State.quenchLoan_lasting, State.applyChanges_lasting, State.takeMap_lasting, State.releaseComp_lasting,
    State.loanBytesChanged_lasting]

theorem State.commitFree_lasting (s : State) (k : ℕ) (c : Changes) : (s.commitFree k c).2.lasting = s.lasting := by
  unfold State.commitFree
  dsimp only
  (repeat' split) <;> simp only [State.activateComp_lasting, State.takeMap_lasting, State.applyChanges_lasting]

theorem State.commitComp_lasting (s : State) (k : ℕ) (c : Changes) : (s.commitComp k c).2.lasting = s.lasting := by
  unfold State.commitComp
  grind [!State.commitHeld_lasting, !State.commitFree_lasting]

theorem State.freeComp_lasting (s : State) (slot : ℕ) : (s.freeComp slot).lasting = s.lasting := rfl

theorem execCompositionFreed_lasting (slot : ℕ) (s : State) : Leaves s (execCompositionFreed slot s) := by
  refine leaves_next ?_
  (repeat' split) <;> simp only [State.freeComp_lasting]

theorem State.writeExportKey_lasting (s : State) (k : ℕ) (bs : List Byte) : (s.writeExportKey k bs).2.lasting = s.lasting := by
  unfold State.writeExportKey
  grind [!State.modComp_lasting]

theorem State.writeQuenchNow_lasting (s : State) (k v : ℕ) : (s.writeQuenchNow k v).2.lasting = s.lasting := by
  unfold State.writeQuenchNow
  grind [!State.quenchLoan_lasting]

theorem execSchedSample_lasting (s : State) : Leaves s (execSchedSample s) := by
  refine leaves_next ?_
  simp only [State.lasting_mk, State.lasting_eta, apply_ite State.lasting, ite_self]

theorem execBucketRefill_lasting (tenant res : ℕ) (s : State) : Leaves s (execBucketRefill tenant res s) := by
  refine leaves_next ?_
  grind [!State.kickUnit_lasting, !State.ltPump_lasting, !State.kickCore_lasting, !State.egress_lasting, foldl_lasting]

end Sys2Proof.Machine
end

section

/-! What lasts under the definitions of `Sys2Proof/Machine/Cxl.lean`. -/

namespace Sys2Proof.Machine
open Sys2Proof

theorem execHdmDecoderCommit_lasting (ld dec base size skip ways : ℕ) (s : State) :
    Leaves s (execHdmDecoderCommit ld dec base size skip ways s) := by
  refine leaves_next ?_
  simp only [State.modLd_lasting, apply_ite State.lasting, ite_self]

theorem State.zeroLine_lasting (s : State) (ld : ℕ) (write : Bool) : (s.zeroLine ld write).lasting = s.lasting := rfl

theorem State.lostLine_lasting (s : State) (ld : ℕ) (write : Bool) : (s.lostLine ld write).lasting = s.lasting := by
  simp only [State.lostLine, State.emit_lasting, State.undefLine_lasting, apply_ite State.lasting, ite_self]

theorem State.dpaFault_lasting (s : State) (ld dpa : ℕ) (write : Bool) : (s.dpaFault ld dpa write).lasting = s.lasting := by
  simp only [State.dpaFault, State.zeroLine_lasting, State.vendorRecord_lasting, State.count_lasting]

theorem State.xlateFault_lasting (s : State) (ld t dpa a : ℕ) (write : Bool) : (s.xlateFault ld t dpa a write).lasting = s.lasting := by
  simp only [State.xlateFault, State.zeroLine_lasting, State.raiseTenant_lasting, State.vendorRecord_lasting, State.count_lasting]

theorem State.queueLine_lasting (s : State) (u : NbUnit) (a : HostLine) : (s.queueLine u a).lasting = s.lasting := rfl

theorem State.lineAccess_lasting (s : State) (a : HostLine) : (s.lineAccess a).lasting = s.lasting := by
  unfold State.lineAccess
  dsimp only
  (repeat' split) <;> simp only [State.queueLine_lasting, State.serveLine_lasting]

theorem State.orderedLine_lasting (s : State) (a : HostLine) : (s.orderedLine a).lasting = s.lasting := by
  unfold State.orderedLine
  grind [!State.holdLine_lasting, !State.queueLine_lasting, !State.lineAccess_lasting]

theorem State.memAccess_lasting (s : State) (ld t dpa a : ℕ) (write : Option (BitVec 512)) :
    (s.memAccess ld t dpa a write).lasting = s.lasting := by
  unfold State.memAccess
  dsimp only
  (repeat' split) <;> simp only [State.lostLine_lasting, State.vendorRecord_lasting, State.orderedLine_lasting, State.heatWalk_lasting,
    State.xlateFault_lasting]

theorem State.dpaAccess_lasting (s : State) (ld dpa : ℕ) (write : Option (BitVec 512)) :
    (s.dpaAccess ld dpa write).lasting = s.lasting := by
  unfold State.dpaAccess
  grind [!State.dpaFault_lasting, !State.memAccess_lasting, !State.winAccess_lasting]

theorem State.cxlAccess_lasting (s : State) (ld hpa : ℕ) (write : Option (BitVec 512)) :
    (s.cxlAccess ld hpa write).lasting = s.lasting := by
  unfold State.cxlAccess
  grind [!State.dpaAccess_lasting]

theorem execCxlMemRead_lasting (ld hpa : ℕ) (s : State) : Leaves s (execCxlMemRead ld hpa s) := by
  refine leaves_next ?_
  simp only [State.cxlAccess_lasting, apply_ite State.lasting, ite_self]

theorem execCxlMemWrite_lasting (ld hpa : ℕ) (line : BitVec 512) (poison : Bool) (s : State) :
    Leaves s (execCxlMemWrite ld hpa line poison s) := by
  refine leaves_next ?_
  (repeat' split) <;> simp only [State.emit_lasting, State.logRecord_lasting, State.count_lasting, State.cxlAccess_lasting]

theorem State.lateLoad_lasting (s : State) (ld hpa : ℕ) : (s.lateLoad ld hpa).lasting = s.lasting := by
  unfold State.lateLoad
  grind [!State.mediaLine_lasting, !State.count_lasting, !State.heatWalk_lasting]

theorem execLtReadLimitExpiry_lasting (x : LateRead) (s : State) : Leaves s (execLtReadLimitExpiry x s) := by
  refine leaves_next ?_
  (repeat' split) <;> simp only [State.abandon_lasting, State.count_lasting, State.lateLoad_lasting, State.stallMeta_lasting]

theorem State.serveHeld_lasting (s : State) (xs : List HostLine) : (s.serveHeld xs).lasting = s.lasting := by
  induction xs generalizing s with
  | nil => rfl
  | cons a xs ih =>
    have served : ((s.serveLine a).endHostWalk a).lasting = s.lasting := (State.endHostWalk_lasting ..).trans (State.serveLine_lasting ..)
    unfold State.serveHeld
    dsimp only
    split
    · exact (ih _).trans served
    · exact served

theorem execLowerSectorWaitEnd_lasting (x : SectorWait) (s : State) : Leaves s (execLowerSectorWaitEnd x s) := by
  refine leaves_next ?_
  (repeat' split) <;> simp only [State.modReq_lasting, State.serveHeld_lasting, State.lasting_mk, State.lasting_eta]

theorem State.commitLd_lasting (s : State) (ld : ℕ) (c : Changes) : (s.commitLd ld c).2.lasting = s.lasting := by
  unfold State.commitLd
  grind [State.commitChecked_lasting, !State.rerouteWaiting_lasting]

theorem State.commitLdConfig_lasting (s : State) (c : Changes) : (s.commitLdConfig c).2.lasting = s.lasting := by
  unfold State.commitLdConfig
  grind [State.commitChecked_lasting, !State.rerouteWaiting_lasting]

theorem State.sendHeld_lasting (s : State) (ld i : ℕ) : (s.sendHeld ld i).lasting = s.lasting := by
  simp only [State.sendHeld, State.sendMsix_lasting, State.modLd_lasting, apply_ite State.lasting, ite_self]

theorem State.unmaskEntry_lasting (s : State) (ld i : ℕ) : (s.unmaskEntry ld i).lasting = s.lasting := by
  simp only [State.unmaskEntry, State.sendHeld_lasting, State.modLd_lasting]

theorem State.sendAllHeld_lasting (s : State) (ld : ℕ) : (s.sendAllHeld ld).lasting = s.lasting :=
  foldl_lasting (fun _ _ => State.sendHeld_lasting ..) _ s

theorem State.msixFunction_lasting (s : State) (ld : ℕ) (on masked : Bool) : (s.msixFunction ld on masked).lasting = s.lasting := by
  simp only [State.msixFunction, State.modLd_lasting, State.rerouteWaiting_lasting, State.sendAllHeld_lasting, apply_ite State.lasting,
    ite_self]

theorem execMsixControlWrite_lasting (ld : ℕ) (w : MsixWrite) (s : State) : Leaves s (execMsixControlWrite ld w s) := by
  refine leaves_next ?_
  (repeat' split) <;> simp only [State.msixFunction_lasting, State.modLd_lasting, State.unmaskEntry_lasting]

theorem execBusMasterEnableWrite_lasting (ld : ℕ) (on : Bool) (s : State) : Leaves s (execBusMasterEnableWrite ld on s) := by
  refine leaves_next ?_
  simp only [State.modLd_lasting, apply_ite State.lasting, ite_self]

theorem execCxlLinkTrainingDone_lasting (s : State) : Leaves s (execCxlLinkTrainingDone s) := by
  refine leaves_next ?_
  simp only [State.lasting_mk, State.lasting_eta, apply_ite State.lasting, ite_self]

end Sys2Proof.Machine
end

section

/-! What lasts under the definitions of `Sys2Proof/Machine/Mailbox.lean`. -/

namespace Sys2Proof.Machine
open Sys2Proof

theorem State.mboxTake_lasting (s : State) (ld op : ℕ) : (s.mboxTake ld op).lasting = s.lasting := rfl

theorem State.mbox_lasting (s : State) (ld rc : ℕ) (bs : List Byte) : (s.mbox ld rc bs).lasting = s.lasting := rfl

theorem State.mailboxRow_lasting (s : State) (ld op : ℕ) (go : State → State) (hgo : ∀ u, (go u).lasting = u.lasting) :
    (s.mailboxRow ld op go).lasting = s.lasting := by
  unfold State.mailboxRow
  grind [!State.mboxTake_lasting]

theorem State.mboxReport_lasting (s : State) (ld op : ℕ) (vs : List ℕ) (bs : List Byte) :
    (s.mboxReport ld op vs bs).lasting = s.lasting := by
  unfold State.mboxReport
  grind [State.mailboxRow_lasting, !State.mbox_lasting]

theorem execUnsupportedMailboxCommand_lasting (ld op : ℕ) (s : State) : Leaves s (execUnsupportedMailboxCommand ld op s) := by
  refine leaves_next ?_
  grind [State.mailboxRow_lasting, !State.mbox_lasting]

theorem execIdentify_lasting (ld : ℕ) (s : State) : Leaves s (execIdentify ld s) := by
  refine leaves_next ?_
  simp only [State.mboxReport_lasting]

theorem execBackgroundOperationStatus_lasting (ld : ℕ) (s : State) : Leaves s (execBackgroundOperationStatus ld s) := by
  refine leaves_next ?_
  simp only [State.mboxReport_lasting]

theorem execGetSupportedLogs_lasting (ld : ℕ) (s : State) : Leaves s (execGetSupportedLogs ld s) := by
  refine leaves_next ?_
  simp only [State.mboxReport_lasting]

theorem execGetLog_lasting (ld off len : ℕ) (s : State) : Leaves s (execGetLog ld off len s) := by
  refine leaves_next ?_
  grind [State.mailboxRow_lasting, !State.mbox_lasting]

theorem execGetEventRecords_lasting (ld log : ℕ) (s : State) : Leaves s (execGetEventRecords ld log s) := by
  refine leaves_next ?_
  grind [State.mailboxRow_lasting, !State.mbox_lasting]

theorem execClearEventRecords_lasting (ld log : ℕ) (handles : List ℕ) (all : Bool) (s : State) :
    Leaves s (execClearEventRecords ld log handles all s) := by
  refine leaves_next ?_
  grind [State.mailboxRow_lasting, !State.mbox_lasting, !State.modLd_lasting]

theorem execGetEventInterruptPolicy_lasting (ld : ℕ) (s : State) : Leaves s (execGetEventInterruptPolicy ld s) := by
  refine leaves_next ?_
  simp only [State.mboxReport_lasting]

theorem State.setRoute_lasting (s : State) (src e : ℕ) : (s.setRoute src e).lasting = s.lasting := State.setOctets_lasting ..

theorem execSetEventInterruptPolicy_lasting (ld log entry : ℕ) (s : State) : Leaves s (execSetEventInterruptPolicy ld log entry s) := by
  refine leaves_next ?_
  grind [State.mailboxRow_lasting, !State.mbox_lasting, !State.rerouteWaiting_lasting, !State.setRoute_lasting]

theorem execGetTimestamp_lasting (ld : ℕ) (s : State) : Leaves s (execGetTimestamp ld s) := by
  refine leaves_next ?_
  grind [State.mailboxRow_lasting, !State.mbox_lasting]

theorem execSetTimestamp_lasting (ld : ℕ) (v : BitVec 64) (s : State) : Leaves s (execSetTimestamp ld v s) :=
  leaves_next (State.mailboxRow_lasting _ _ _ _ fun _ => State.mbox_lasting ..)

theorem execIdentifyMemoryDevice_lasting (ld : ℕ) (s : State) : Leaves s (execIdentifyMemoryDevice ld s) := by
  refine leaves_next ?_
  simp only [State.mboxReport_lasting]

theorem execGetDynamicCapacityConfiguration_lasting (ld : ℕ) (s : State) : Leaves s (execGetDynamicCapacityConfiguration ld s) := by
  refine leaves_next ?_
  simp only [State.mboxReport_lasting]

theorem execGetDynamicCapacityExtentList_lasting (ld : ℕ) (s : State) : Leaves s (execGetDynamicCapacityExtentList ld s) := by
  refine leaves_next ?_
  simp only [State.mboxReport_lasting]

theorem State.dcResponse_lasting (s : State) (ld : ℕ) (x : Bool × List (ℕ × ℕ)) : (s.dcResponse ld x).lasting = s.lasting := by
  simp only [State.dcResponse, State.modLd_lasting, apply_ite State.lasting, ite_self]

theorem execAddDynamicCapacityResponse_lasting (ld : ℕ) (ranges : List (ℕ × ℕ)) (s : State) :
    Leaves s (execAddDynamicCapacityResponse ld ranges s) := by
  refine leaves_next ?_
  grind [State.mailboxRow_lasting, !State.mbox_lasting, !State.dcResponse_lasting]

theorem execReleaseDynamicCapacity_lasting (ld : ℕ) (ranges : List (ℕ × ℕ)) (s : State) :
    Leaves s (execReleaseDynamicCapacity ld ranges s) := by
  refine leaves_next ?_
  grind [State.mailboxRow_lasting, !State.mbox_lasting, !State.dcResponse_lasting]

theorem State.vendorReply_lasting (s : State) (ld : ℕ) (st : Status) (rest : List Byte) :
    (s.vendorReply ld st rest).lasting = s.lasting := rfl

theorem State.vendorRow_lasting (s : State) (ld op want n : ℕ) (payload : List Byte) (permitted background : Bool) (go : State → State)
    (hgo : ∀ u, (go u).lasting = u.lasting) : (s.vendorRow ld op want n payload permitted background go).lasting = s.lasting := by
  unfold State.vendorRow
  grind [State.mailboxRow_lasting, !State.mbox_lasting, !State.vendorReply_lasting]

theorem State.startBackground_lasting (s : State) (ld op arg : ℕ) (st : Option Status) (output : List Byte) :
    (s.startBackground ld op arg st output).lasting = s.lasting := rfl

theorem State.enterQueue_lasting (s : State) (ld n : ℕ) (q : QueueSpec) : (s.enterQueue ld n q).lasting = s.lasting := by
  simp only [State.enterQueue, State.lasting_mk, State.lasting_eta, apply_ite State.lasting, ite_self]

theorem execQueueCreate_lasting (ld : ℕ) (payload : List Byte) (s : State) : Leaves s (execQueueCreate ld payload s) := by
  refine leaves_next ?_
  grind [State.vendorRow_lasting, !State.vendorReply_lasting, !State.enterQueue_lasting]

theorem execQueueDestroy_lasting (ld : ℕ) (payload : List Byte) (s : State) : Leaves s (execQueueDestroy ld payload s) := by
  refine leaves_next ?_
  grind [State.vendorRow_lasting, !State.vendorReply_lasting, !State.startBackground_lasting, !State.modWq_lasting]

theorem State.dropQueue_lasting (s : State) (arg : ℕ) : (s.dropQueue arg).2.lasting = s.lasting := by
  unfold State.dropQueue
  split <;> rfl

theorem State.grant_lasting (s : State) (ld kind base len : ℕ) : (s.grant ld kind base len).lasting = s.lasting := by
  simp only [State.grant, State.modMem_lasting, State.setScalar_lasting, State.lasting_mk, State.lasting_eta, apply_ite State.lasting,
    ite_self]

theorem execAreaGrant_lasting (ld : ℕ) (payload : List Byte) (s : State) : Leaves s (execAreaGrant ld payload s) := by
  refine leaves_next ?_
  grind [State.vendorRow_lasting, !State.vendorReply_lasting, !State.grant_lasting]

theorem State.restoreAll_lasting (s : State) : (s.restoreAll).lasting = s.lasting := by
  unfold State.restoreAll
  grind [!State.startRestore_lasting, foldl_lasting]

theorem State.ungrant_lasting (s : State) (ld kind : ℕ) : (s.ungrant ld kind).lasting = s.lasting := by
  simp only [State.ungrant, State.modMem_lasting, State.setScalar_lasting, State.lasting_mk, State.lasting_eta, apply_ite State.lasting,
    ite_self]

theorem execAreaReclaim_lasting (ld : ℕ) (payload : List Byte) (s : State) : Leaves s (execAreaReclaim ld payload s) := by
  refine leaves_next ?_
  grind [State.vendorRow_lasting, !State.vendorReply_lasting, !State.startBackground_lasting, !State.restoreAll_lasting,
    !State.modMem_lasting, !State.ungrant_lasting]

theorem State.startReclaim_lasting (s : State) (ld : ℕ) (e : BitVec 512) : (s.startReclaim ld e).lasting = s.lasting := rfl

theorem execReclaim_lasting (ld : ℕ) (payload : List Byte) (s : State) : Leaves s (execReclaim ld payload s) :=
  leaves_next
    (State.vendorRow_lasting _ _ _ _ _ _ _ _ _ fun _ => ite_lasting (State.vendorReply_lasting ..) (State.startReclaim_lasting ..))

theorem State.backgroundEnd_lasting (s : State) (ld : ℕ) (st : Status) (output : List Byte) :
    (s.backgroundEnd ld st output).lasting = s.lasting := by
  simp only [State.backgroundEnd, State.modLd_lasting, State.raise_lasting]

theorem State.swapReclaim_lasting (s : State) (ld : ℕ) (failed : Option Status) : (s.swapReclaim ld failed).lasting = s.lasting := by
  unfold State.swapReclaim
  grind [!State.backgroundEnd_lasting, !State.modMem_lasting, !State.ungrant_lasting, !State.restoreAll_lasting]

theorem State.backgroundDone_lasting (s : State) (ld : ℕ) (b : Background) : (s.backgroundDone ld b).lasting = s.lasting := by
  unfold State.backgroundDone
  dsimp only
  (repeat' split) <;> simp only [State.dropQueue_lasting, State.backgroundEnd_lasting, State.swapReclaim_lasting]

theorem execBackgroundCommandDone_lasting (ld : ℕ) (s : State) : Leaves s (execBackgroundCommandDone ld s) := by
  refine leaves_next ?_
  (repeat' split) <;> simp only [State.backgroundDone_lasting]

theorem State.doeRow_lasting (s : State) (ld : ℕ) (go : State → State) (hgo : ∀ u, (go u).lasting = u.lasting) :
    (s.doeRow ld go).lasting = s.lasting := by
  unfold State.doeRow
  grind

theorem execDoeDiscovery_lasting (ld index : ℕ) (s : State) : Leaves s (execDoeDiscovery ld index s) := by
  refine leaves_next ?_
  grind [State.doeRow_lasting, !State.emit_lasting]

theorem execCdatTableAccess_lasting (ld handle : ℕ) (s : State) : Leaves s (execCdatTableAccess ld handle s) := by
  refine leaves_next ?_
  grind [State.doeRow_lasting, !State.emit_lasting]

end Sys2Proof.Machine
end

section

/-! What lasts under the definitions of `Sys2Proof/Machine/Events.lean`. -/

namespace Sys2Proof.Machine
open Sys2Proof

theorem State.bankSet_lasting (s : State) (src : ℕ) : (s.bankSet src).lasting = s.lasting := by
  simp only [State.bankSet, State.raise_lasting, apply_ite State.lasting, ite_self]

theorem State.bankClr_lasting (s : State) (src : ℕ) : (s.bankClr src).lasting = s.lasting := by
  simp only [State.bankClr, State.ackSource_lasting, apply_ite State.lasting, ite_self]

theorem State.bankMask_lasting (s : State) (src : ℕ) : (s.bankMask src).lasting = s.lasting := by
  simp only [State.bankMask, State.setMask_lasting, State.lasting_mk, State.lasting_eta]

theorem State.bankUnmask_lasting (s : State) (src : ℕ) : (s.bankUnmask src).lasting = s.lasting := by
  simp only [State.bankUnmask, State.setMask_lasting, State.route_lasting, State.lasting_mk, State.lasting_eta, apply_ite State.lasting,
    ite_self]

theorem State.bankWrite_lasting (s : State) (ld : ℕ) (srcs : List ℕ) (f : State → ℕ → State) (hf : ∀ u n, (f u n).lasting = u.lasting) :
    (s.bankWrite ld srcs f).lasting = s.lasting := by
  unfold State.bankWrite
  split
  · exact foldl_lasting hf _ _
  · rfl

theorem execPendSet_lasting (ld word : ℕ) (v : BitVec 64) (s : State) : Leaves s (execPendSet ld word v s) := by
  refine leaves_next ?_
  grind [State.bankWrite_lasting, !State.bankSet_lasting]

theorem execPendClr_lasting (ld word : ℕ) (v : BitVec 64) (s : State) : Leaves s (execPendClr ld word v s) := by
  refine leaves_next ?_
  grind [State.bankWrite_lasting, !State.bankClr_lasting]

theorem execMaskSet_lasting (ld word : ℕ) (v : BitVec 64) (s : State) : Leaves s (execMaskSet ld word v s) := by
  refine leaves_next ?_
  grind [State.bankWrite_lasting, !State.bankMask_lasting]

theorem execMaskClr_lasting (ld word : ℕ) (v : BitVec 64) (s : State) : Leaves s (execMaskClr ld word v s) := by
  refine leaves_next ?_
  grind [State.bankWrite_lasting, !State.bankUnmask_lasting]

theorem execFpendSet_lasting (ld : ℕ) (v : BitVec 64) (s : State) : Leaves s (execFpendSet ld v s) := by
  refine leaves_next ?_
  grind [State.bankWrite_lasting, !State.bankSet_lasting]

theorem execFpendClr_lasting (ld : ℕ) (v : BitVec 64) (s : State) : Leaves s (execFpendClr ld v s) := by
  refine leaves_next ?_
  grind [State.bankWrite_lasting, !State.bankClr_lasting]

theorem execFmaskSet_lasting (ld : ℕ) (v : BitVec 64) (s : State) : Leaves s (execFmaskSet ld v s) := by
  refine leaves_next ?_
  grind [State.bankWrite_lasting, !State.bankMask_lasting]

theorem execFmaskClr_lasting (ld : ℕ) (v : BitVec 64) (s : State) : Leaves s (execFmaskClr ld v s) := by
  refine leaves_next ?_
  grind [State.bankWrite_lasting, !State.bankUnmask_lasting]

theorem execCurprioWrite_lasting (ld target : ℕ) (v : BitVec 8) (s : State) : Leaves s (execCurprioWrite ld target v s) := by
  refine leaves_next ?_
  simp only [State.setTarget_lasting, State.rerouteWaiting_lasting, apply_ite State.lasting, ite_self]

theorem State.putFprio_lasting (s : State) (ld slot b : ℕ) : (s.putFprio ld slot b).lasting = s.lasting := by
  unfold State.putFprio
  dsimp only
  (repeat' split) <;> simp only [State.lasting_mk, State.lasting_eta]

theorem State.writeBar2_lasting (s : State) (ld offset : ℕ) (v : BitVec 64) : (s.writeBar2 ld offset v).lasting = s.lasting := by
  unfold State.writeBar2
  grind [!State.putFprio_lasting, foldl_lasting]

theorem execRegisterWrite_lasting (ld : ℕ) (reg : HostReg) (v : BitVec 64) (s : State) : Leaves s (execRegisterWrite ld reg v s) := by
  refine leaves_next ?_
  (repeat' split) <;> simp only [State.writeBar2_lasting, State.modLd_lasting]

theorem State.applyRoute_lasting (s : State) (src e : ℕ) : (s.applyRoute src e).lasting = s.lasting := by
  simp only [State.applyRoute, State.setRoute_lasting, State.setMask_lasting, State.clearPend_lasting, apply_ite State.lasting, ite_self]

theorem State.applyRoutes_lasting (s : State) (es : List (ℕ × ℕ)) : (s.applyRoutes es).lasting = s.lasting := by
  unfold State.applyRoutes
  grind [!State.rerouteWaiting_lasting, !State.applyRoute_lasting, foldl_lasting]

theorem State.applyPinMode_lasting (s : State) (c : Changes) : (s.applyPinMode c).lasting = s.lasting := by
  unfold State.applyPinMode
  grind [!State.applyChanges_lasting, !State.raise_lasting]

theorem State.commitRoutes_lasting (s : State) (c : Changes) : (s.commitRoutes c).2.lasting = s.lasting := by
  unfold State.commitRoutes
  dsimp only
  (repeat' split) <;> simp only [State.applyRoutes_lasting, State.applyPinMode_lasting]

theorem State.setPin_lasting (s : State) (i : ℕ) (b : Bool) : (s.setPin i b).lasting = s.lasting := rfl

theorem State.countEdge_lasting (s : State) (i : ℕ) : (s.countEdge i).lasting = s.lasting := rfl

theorem State.raiseLevels_lasting (s : State) : (s.raiseLevels).lasting = s.lasting := by
  unfold State.raiseLevels
  grind [!State.raise_lasting]

theorem execEvinPinActive_lasting (i : ℕ) (active : Bool) (s : State) : Leaves s (execEvinPinActive i active s) := by
  refine leaves_next ?_
  simp only [State.setPin_lasting, State.countEdge_lasting, State.raise_lasting, apply_ite State.lasting, ite_self]

end Sys2Proof.Machine
end

section

/-! What lasts under the definitions of `Sys2Proof/Machine/Units.lean`. -/

namespace Sys2Proof.Machine
open Sys2Proof

theorem State.setUnitRec_lasting (s : State) (x : UnitRec) : (s.setUnitRec x).lasting = s.lasting := rfl

theorem State.judgeUnit_lasting (s : State) (c : UnitClass) (u : ℕ) : (s.judgeUnit c u).lasting = s.lasting := by
  simp only [State.judgeUnit, State.setUnitRec_lasting, State.raise_lasting, State.setScalar_lasting, apply_ite State.lasting, ite_self]

theorem State.setOper_lasting (s : State) (c : UnitClass) (u : ℕ) (o : Oper) : (s.setOper c u o).lasting = s.lasting := by
  simp only [State.setOper, State.judgeUnit_lasting, State.raise_lasting, State.setUnitRec_lasting, apply_ite State.lasting, ite_self]

theorem State.kickClass_lasting (s : State) (c : UnitClass) (u : ℕ) : (s.kickClass c u).lasting = s.lasting := by
  unfold State.kickClass
  grind [!State.kickUnit_lasting, !State.kickCore_lasting]

theorem State.setSpare_lasting (s : State) (c : UnitClass) (u : ℕ) (p : Option ℕ) : (s.setSpare c u p).lasting = s.lasting := rfl

theorem State.forwardRows_lasting (s : State) (n r : ℕ) (items : List ℕ) : (s.forwardRows n r items).lasting = s.lasting := rfl

theorem State.forwardPiece_lasting (s : State) (j : Job) (ps : List Part) : (s.forwardPiece j ps).lasting = s.lasting := by
  simp only [State.forwardPiece, State.dispatchCore_lasting]

theorem State.forwardAll_lasting (s : State) (n : ℕ) : (s.forwardAll n).lasting = s.lasting := by
  have pieces : ∀ (j : Job) (l : List (List Part)) (u : State), (l.foldl (fun s p => s.forwardPiece j p) u).lasting = u.lasting :=
    fun j => foldl_lasting fun _ _ => State.forwardPiece_lasting ..
  unfold State.forwardAll
  dsimp only
  refine (State.pump_lasting _).trans ?_
  refine (foldl_lasting (fun _ _ => State.forwardPiece_lasting ..) _ _).trans ?_
  refine (foldl_lasting (fun u r => ?_) _ _).trans rfl
  split
  · rfl
  · exact (pieces ..).trans (State.forwardRows_lasting ..)

theorem State.forwardOuts_lasting (s : State) (n : ℕ) : (s.forwardOuts n).lasting = s.lasting := by
  unfold State.forwardOuts
  grind [!State.forwardRows_lasting, foldl_lasting]

theorem State.unitFaulted_lasting (s : State) (c : UnitClass) (u : ℕ) : (s.unitFaulted c u).lasting = s.lasting := by
  unfold State.unitFaulted
  dsimp only
  (repeat' split) <;> simp only [State.setOper_lasting, State.forwardAll_lasting, State.forwardOuts_lasting, State.reroute_lasting,
    State.reportPort_lasting]

theorem State.switchOut_lasting (s : State) (c : UnitClass) (u : ℕ) : (s.switchOut c u).lasting = s.lasting := by
  unfold State.switchOut
  dsimp only
  (repeat' split) <;> simp only [State.unitFaulted_lasting, State.setSpare_lasting, State.lasting_mk, State.lasting_eta]

theorem State.freshSram_lasting (s : State) (c : UnitClass) (u : ℕ) : (s.freshSram c u).lasting = s.lasting := rfl

theorem execSpareSwitch_lasting (cls : UnitClass) (unit : ℕ) (s : State) : Leaves s (execSpareSwitch cls unit s) := by
  refine leaves_next ?_
  split
  · rfl
  dsimp only
  split
  · exact (State.unitFaulted_lasting ..).trans (State.setSpare_lasting ..)
  · refine (State.kickClass_lasting ..).trans ((State.raise_lasting ..).trans ((State.count_lasting ..).trans ?_))
    exact (State.freshSram_lasting ..).trans (State.setSpare_lasting ..)

theorem State.clearPiece_lasting (s : State) (c : UnitClass) (u : ℕ) : (s.clearPiece c u).lasting = s.lasting := by
  unfold State.clearPiece
  dsimp only
  (repeat' split) <;> simp only [State.setNb_lasting, State.setCore_lasting]

theorem execPieceOverrun_lasting (cls : UnitClass) (unit : ℕ) (s : State) : Leaves s (execPieceOverrun cls unit s) := by
  refine leaves_next ?_
  (repeat' split) <;> simp only [State.switchOut_lasting, State.count_lasting, State.abandon_lasting, State.clearPiece_lasting]

theorem State.adminChanged_lasting (s : State) (k : UnitClass) (u : ℕ) : (s.adminChanged k u).lasting = s.lasting := by
  simp only [State.adminChanged, State.setOper_lasting, State.reroute_lasting, State.reportPort_lasting, State.judgeUnit_lasting,
    State.kickClass_lasting, apply_ite State.lasting, ite_self]

theorem State.commitAdmin_lasting (s : State) (k : UnitClass) (c : Changes) : (s.commitAdmin k c).2.lasting = s.lasting := by
  unfold State.commitAdmin
  grind [!State.adminChanged_lasting, !State.applyChanges_lasting, foldl_lasting]

theorem execUnitDrainDone_lasting (cls : UnitClass) (unit : ℕ) (s : State) : Leaves s (execUnitDrainDone cls unit s) := by
  refine leaves_next ?_
  simp only [State.setOper_lasting, apply_ite State.lasting, ite_self]

theorem execDrainLimitExpiry_lasting (cls : UnitClass) (unit : ℕ) (s : State) : Leaves s (execDrainLimitExpiry cls unit s) := by
  refine leaves_next ?_
  simp only [State.judgeUnit_lasting, State.setUnitRec_lasting, apply_ite State.lasting, ite_self]

theorem State.mapRows_lasting (s : State) (c : UnitClass) (u : ℕ) : (s.mapRows c u).lasting = s.lasting := rfl

theorem execSelfTestDone_lasting (cls : UnitClass) (unit : ℕ) (pass : Bool) (s : State) : Leaves s (execSelfTestDone cls unit pass s) := by
  refine leaves_next ?_
  simp only [State.mapRows_lasting, State.setOper_lasting, State.kickClass_lasting, State.switchOut_lasting, apply_ite State.lasting,
    ite_self]

theorem execPaceUpdate_lasting (paces : List (BitVec 32)) (s : State) : Leaves s (execPaceUpdate paces s) := by
  refine leaves_next ?_
  simp only [State.count_lasting, State.lasting_mk, State.lasting_eta, apply_ite State.lasting, ite_self]

end Sys2Proof.Machine
end

section

/-! What lasts under the definitions of `Sys2Proof/Machine/Faults.lean`. -/

namespace Sys2Proof.Machine
open Sys2Proof

theorem State.startReloc_lasting (s : State) (n : ℕ) : (s.startReloc n).lasting = s.lasting := by
  unfold State.startReloc
  dsimp only
  (repeat' split) <;> simp only [State.newSerial_lasting, State.copyWork_lasting, State.modFrame_lasting]

theorem State.retireFrame_lasting (s : State) (n : ℕ) (x : RetireRec) : (s.retireFrame n x).lasting = s.lasting := by
  unfold State.retireFrame
  dsimp only
  (repeat' split) <;> simp only [State.retireRecord_lasting, State.modFrame_lasting, State.modMem_lasting, State.startReloc_lasting]

theorem State.loseFrame_lasting (s : State) (f : Frame) (upper : Bool) (unit : ℕ) : (s.loseFrame f upper unit).lasting = s.lasting := by
  simp only [State.loseFrame, State.startReloc_lasting, State.retireFrame_lasting, apply_ite State.lasting, ite_self]

theorem State.declareLost_lasting (s : State) (upper : Bool) (unit : ℕ) : (s.declareLost upper unit).lasting = s.lasting := by
  unfold State.declareLost
  split
  · rfl
  exact (State.moveTables_lasting ..).trans <| (foldl_lasting (fun _ _ => State.moveBlock_lasting ..) _ _).trans <|
    (foldl_lasting (fun _ _ => State.loseFrame_lasting ..) _ _).trans (State.tierEnd_lasting _)

theorem State.noteUe_lasting (s : State) (upper : Bool) (unit : ℕ) : (s.noteUe upper unit).lasting = s.lasting := by
  simp only [State.noteUe, State.count_lasting, State.declareLost_lasting, State.lasting_mk, State.lasting_eta, apply_ite State.lasting,
    ite_self]

theorem execChannelLost_lasting (upper : Bool) (unit : ℕ) (s : State) : Leaves s (execChannelLost upper unit s) := by
  refine leaves_next ?_
  simp only [State.declareLost_lasting, apply_ite State.lasting, ite_self]

theorem State.withdrawLine_lasting (s : State) (n line : ℕ) : (s.withdrawLine n line).lasting = s.lasting := by
  unfold State.withdrawLine
  grind [!State.withdraw_lasting, foldl_lasting]

theorem State.failedChunk_lasting (s : State) (f : Frame) (line : ℕ) : (s.failedChunk f line).2.lasting = s.lasting := by
  unfold State.failedChunk
  dsimp only
  (repeat' split) <;> simp only [State.draw_lasting]

theorem State.failLine_lasting (s : State) (n line : ℕ) : (s.failLine n line).lasting = s.lasting := by
  unfold State.failLine
  dsimp only
  (repeat' split) <;> simp only [State.withdrawLine_lasting, State.modFrame_lasting, State.retireGranule_lasting,
    State.retireFrame_lasting, State.noteUe_lasting, State.failedChunk_lasting, State.retireChunk_lasting]

theorem State.mediaEnd_lasting (s : State) (n : ℕ) (req : Option ℕ) : (s.mediaEnd n req).lasting = s.lasting := by
  unfold State.mediaEnd
  dsimp only
  (repeat' split) <;> simp only [State.count_lasting, State.swapOutFailed_lasting, State.abandon_lasting]

theorem State.psLost_lasting (s : State) (bank slot : ℕ) : (s.psLost bank slot).lasting = s.lasting := by
  simp only [State.psLost, State.count_lasting, State.lasting_mk, State.lasting_eta, apply_ite State.lasting, ite_self]

theorem State.keyGranuleLost_lasting (s : State) (g : ℕ) : (s.keyGranuleLost g).lasting = s.lasting := by
  unfold State.keyGranuleLost
  dsimp only
  (repeat' split) <;> simp only [State.draw_lasting, State.psLost_lasting]

theorem State.retireKeyLine_lasting (s : State) : (s.retireKeyLine).lasting = s.lasting := by
  simp only [State.retireKeyLine, State.draw_lasting, State.noteUe_lasting, State.retireFree_lasting]

theorem State.failSomeLine_lasting (s : State) (n : ℕ) : (s.failSomeLine n).lasting = s.lasting := by
  simp only [State.failSomeLine, State.draw_lasting, State.failLine_lasting]

theorem State.ledgerBad_lasting (s : State) (conn reqId : ℕ) : (s.ledgerBad conn reqId).lasting = s.lasting := by
  unfold State.ledgerBad
  dsimp only
  (repeat' split) <;> simp only [State.modConn_lasting, State.failSomeLine_lasting]

theorem State.accumulatorBad_lasting (s : State) (slot contrib : ℕ) : (s.accumulatorBad slot contrib).lasting = s.lasting := by
  unfold State.accumulatorBad
  dsimp only
  (repeat' split) <;> simp only [State.modMerge_lasting, State.draw_lasting, State.failSomeLine_lasting]

theorem State.loseRequest_lasting (s : State) (r : ℕ) : (s.loseRequest r).lasting = s.lasting := by
  unfold State.loseRequest
  grind [!State.abandon_lasting, !State.count_lasting]

theorem State.unitSram_lasting (s : State) (c : UnitClass) (u row : ℕ) : (s.unitSram c u row).lasting = s.lasting := by
  simp only [State.unitSram, State.count_lasting, State.switchOut_lasting, State.lasting_mk, State.lasting_eta, apply_ite State.lasting,
    ite_self]

theorem State.xlateBad_lasting (s : State) : (s.xlateBad).lasting = s.lasting := rfl

theorem execUncorrectableError_lasting (w : ErrWhere) (s : State) : Leaves s (execUncorrectableError w s) := by
  refine leaves_next ?_
  split
  · rfl
  cases w
  case missBuffer p =>
    dsimp only
    split
    · exact State.count_lasting s 0x6000 0x25 1
    · exact State.count_lasting ..
  all_goals dsimp only; grind [!State.failLine_lasting, !State.mediaEnd_lasting, !State.noteUe_lasting, !State.retireFree_lasting,
    !State.keyGranuleLost_lasting, !State.stallMeta_lasting, !State.psLost_lasting, !State.retireKeyLine_lasting, !State.ledgerBad_lasting,
    !State.accumulatorBad_lasting, !State.count_lasting, !State.loseRequest_lasting, !State.xlateBad_lasting, !State.resetConn_lasting,
    !State.unitSram_lasting]

theorem execContextLostSram_lasting (r : ℕ) (s : State) : Leaves s (execContextLostSram r s) := by
  refine leaves_next ?_
  simp only [State.loseRequest_lasting, apply_ite State.lasting, ite_self]

theorem State.moveBlocks_lasting (s : State) (c g : ℕ) : (s.moveBlocks c g).lasting = s.lasting := by
  unfold State.moveBlocks
  grind [!State.moveBlock_lasting, foldl_lasting]

theorem State.ceRetire_lasting (s : State) (upper : Bool) (unit loc : ℕ) : (s.ceRetire upper unit loc).lasting = s.lasting := by
  unfold State.ceRetire
  dsimp only
  (repeat' split) <;> simp only [State.retireAt_lasting, State.retireFrame_lasting, State.retireRecord_lasting, State.moveTables_lasting,
    State.moveBlocks_lasting]

theorem State.noteCe_lasting (s : State) (upper : Bool) (unit loc line : ℕ) : (s.noteCe upper unit loc line).lasting = s.lasting := by
  simp only [State.noteCe, State.count_lasting, State.ceRetire_lasting, State.lasting_mk, State.lasting_eta, apply_ite State.lasting,
    ite_self]

theorem execCorrectableError_lasting (w : CeWhere) (s : State) : Leaves s (execCorrectableError w s) := by
  refine leaves_next ?_
  (repeat' split) <;> simp only [State.noteCe_lasting, State.count_lasting]

theorem State.burnNext_lasting (s : State) (b : Burn) : (s.burnNext b).lasting = s.lasting := rfl

theorem State.burnUpper_lasting (s : State) (c line : ℕ) : (s.burnUpper c line).lasting = s.lasting := by
  unfold State.burnUpper
  grind [!State.failLine_lasting, !State.retireGranule_lasting, !State.keyGranuleLost_lasting, !State.moveBlock_lasting,
    !State.moveTables_lasting, !State.noteUe_lasting, !State.retireRecord_lasting, foldl_lasting]

theorem State.burnLower_lasting (s : State) (k sector : ℕ) : (s.burnLower k sector).lasting = s.lasting := by
  unfold State.burnLower
  dsimp only
  (repeat' split) <;> simp only [State.failLine_lasting, State.noteUe_lasting, State.retireFrame_lasting, State.retireChunk_lasting,
    State.moveTables_lasting, State.retireFree_lasting]

theorem execBurnishRead_lasting (upper : Bool) (unit : ℕ) (found : BurnFound) (s : State) :
    Leaves s (execBurnishRead upper unit found s) := by
  refine leaves_next ?_
  (repeat' split) <;> simp only [State.burnNext_lasting, State.noteCe_lasting, State.burnUpper_lasting, State.burnLower_lasting,
    State.lasting_mk, State.lasting_eta, apply_ite State.lasting, ite_self]

theorem State.finishReloc_lasting (s : State) (f : Frame) (m : Migration) : (s.finishReloc f m).lasting = s.lasting := by
  unfold State.finishReloc
  grind [!State.zeroBad_lasting, !State.startReloc_lasting, !State.modFrame_lasting, !State.switchFrame_lasting,
    !State.errorRebuild_lasting, !State.tierEnd_lasting, !State.retireRecord_lasting, foldl_lasting]

theorem State.retireSwapped_lasting (s : State) (f : Frame) : (s.retireSwapped f).lasting = s.lasting := by
  simp only [State.retireSwapped, State.retireFreed_lasting, State.modFrame_lasting]

theorem execRelocationDone_lasting (frame : ℕ) (s : State) : Leaves s (execRelocationDone frame s) := by
  refine leaves_next ?_
  (repeat' split) <;> simp only [State.retireSwapped_lasting, State.startReloc_lasting, State.finishReloc_lasting]

end Sys2Proof.Machine
end

section

/-! What lasts under the definitions of `Sys2Proof/Machine/Calibration.lean`. -/

namespace Sys2Proof.Machine
open Sys2Proof

theorem State.noteUse_lasting (s : State) (idx k : ℕ) (inUse : List Byte) : (s.noteUse idx k inUse).lasting = s.lasting := rfl

theorem State.commitCalibration_lasting (s : State) (idx : ℕ) (c : Changes) : (s.commitCalibration idx c).2.lasting = s.lasting := by
  unfold State.commitCalibration
  grind [State.commitChecked_lasting, !State.noteUse_lasting, !State.count_lasting, !State.setOct_lasting, foldl_lasting]

theorem State.restSlot_lasting (s : State) (i : ℕ) : (s.restSlot i).lasting = s.lasting := rfl

theorem State.retrainLane_lasting (s : State) (t : ℕ) : (s.retrainLane t).lasting = s.lasting := by
  simp only [State.retrainLane, State.count_lasting, State.reroute_lasting, State.reportPort_lasting, apply_ite State.lasting, ite_self]

theorem State.endRun_lasting (s : State) (x : Rehearsal) : (s.endRun x).lasting = s.lasting := by
  simp only [State.endRun, State.retrainLane_lasting, State.count_lasting, State.raise_lasting, State.restSlot_lasting, State.lasting_mk,
    State.lasting_eta, apply_ite State.lasting, ite_self]

theorem State.endRuns_lasting (s : State) : (s.endRuns).lasting = s.lasting := by
  unfold State.endRuns
  grind [!State.endRun_lasting, foldl_lasting]

theorem State.commitRehearsal_lasting (s : State) (c : Changes) : (s.commitRehearsal c).2.lasting = s.lasting := by
  unfold State.commitRehearsal
  grind [State.commitChecked_lasting, !State.restSlot_lasting, !State.endRuns_lasting, foldl_lasting]

theorem State.commitSlot_lasting (s : State) (i : ℕ) (c : Changes) : (s.commitSlot i c).2.lasting = s.lasting :=
  State.commitChecked_lasting _ _ _ _ _ fun _ => State.restSlot_lasting ..

theorem State.startRun_lasting (s : State) (i kind t : ℕ) : (s.startRun i kind t).lasting = s.lasting := by
  simp only [State.startRun, State.setScalar_lasting, State.count_lasting, State.raise_lasting, State.retrainLane_lasting,
    State.lasting_mk, State.lasting_eta, apply_ite State.lasting, ite_self]

theorem execRehearsalRunStart_lasting (slot : ℕ) (s : State) : Leaves s (execRehearsalRunStart slot s) := by
  refine leaves_next ?_
  simp only [State.restSlot_lasting, State.count_lasting, State.startRun_lasting, State.lasting_mk, State.lasting_eta, apply_ite
    State.lasting, ite_self]

theorem execRehearsalRunEnd_lasting (slot : ℕ) (s : State) : Leaves s (execRehearsalRunEnd slot s) := by
  refine leaves_next ?_
  (repeat' split) <;> simp only [State.endRun_lasting]

theorem State.recalibrate_lasting (s : State) (v : ℕ) : (s.recalibrate v).2.lasting = s.lasting := by
  unfold State.recalibrate
  dsimp only
  (repeat' split) <;> simp only [State.endRuns_lasting, State.setScalar_lasting, State.setCause_lasting, State.lasting_mk,
    State.lasting_eta]

theorem State.storeMeasured_lasting (s : State) (idx k : ℕ) (bs : List Byte) : (s.storeMeasured idx k bs).lasting = s.lasting := by
  unfold State.storeMeasured
  dsimp only
  (repeat' split) <;> simp only [State.setOctets_lasting, State.setScalar_lasting, State.noteUse_lasting]

theorem State.storeGroup_lasting (s : State) (measured : List (ℕ × List Byte)) (g : ℕ) : (s.storeGroup measured g).lasting = s.lasting := by
  unfold State.storeGroup
  grind [!State.storeMeasured_lasting, !State.flashWrite_lasting, !State.setOct_lasting, foldl_lasting]

end Sys2Proof.Machine
end

section

/-! What lasts under the definitions of `Sys2Proof/Machine/Trust.lean`. -/

namespace Sys2Proof.Machine
open Sys2Proof

theorem State.setSlot_lasting (s : State) (b : Bool) (x : Image) : (s.setSlot b x).lasting = s.lasting := by
  unfold State.setSlot
  dsimp only
  (repeat' split) <;> simp only [State.lasting_mk, State.lasting_eta]

theorem State.writeImage_lasting (s : State) (bs : List Byte) : (s.writeImage bs).2.lasting = s.lasting := by
  unfold State.writeImage
  dsimp only
  split <;> exact (State.setScalar_lasting ..).trans
    ((State.setScalar_lasting ..).trans ((State.setSlot_lasting ..).trans (State.flashWrite_lasting s)))

theorem State.commitStage_lasting (s : State) (c : Changes) : (s.commitStage c).2.lasting = s.lasting := by
  unfold State.commitStage
  dsimp only
  (repeat' split) <;> simp only [State.writeImage_lasting, State.applyChanges_lasting]

theorem State.bootSlot_lasting (s : State) (b : Bool) : (s.bootSlot b).lasting = s.lasting := rfl

theorem State.activate_lasting (s : State) (v : ℕ) : (s.activate v).2.lasting = s.lasting := by
  unfold State.activate
  dsimp only
  (repeat' split) <;> simp only [State.setCause_lasting, State.setScalar_lasting, State.flashWrite_lasting, State.lasting_mk,
    State.lasting_eta]

theorem State.assayReply_lasting (s : State) (route : Route) (session : ℕ) (bs : List Byte) :
    (s.assayReply route session bs).lasting = s.lasting := by
  unfold State.assayReply
  dsimp only
  (repeat' split) <;> simp only [State.emit_lasting, State.sendMgt_lasting, State.lasting_mk, State.lasting_eta]

theorem State.assay_lasting (s : State) (route : Route) (session : ℕ) (role : Option ℕ) (bs : List Byte) :
    (s.assay route session role bs).lasting = s.lasting := by
  unfold State.assay
  dsimp only
  (repeat' split) <;> simp only [State.assayReply_lasting, State.lasting_mk, State.lasting_eta]

theorem execAssayRequest_lasting (route : Route) (m : AssayMsg) (s : State) : Leaves s (execAssayRequest route m s) := by
  refine leaves_next ?_
  grind [!State.assay_lasting, State.receive_lasting, !State.accepted_lasting]

theorem execQuoteReady_lasting (id : ℕ) (s : State) : Leaves s (execQuoteReady id s) := by
  refine leaves_next ?_
  (repeat' split) <;> simp only [State.assayReply_lasting, State.lasting_mk, State.lasting_eta]

theorem State.fwRow_lasting (s : State) (ld op : ℕ) (go : State → State) (hgo : ∀ u, (go u).lasting = u.lasting) :
    (s.fwRow ld op go).lasting = s.lasting := by
  unfold State.fwRow
  grind [State.mailboxRow_lasting, !State.mbox_lasting]

theorem execGetFwInfo_lasting (ld : ℕ) (s : State) : Leaves s (execGetFwInfo ld s) := by
  refine leaves_next ?_
  grind [State.fwRow_lasting, !State.mbox_lasting]

theorem State.modMgmt_lasting (s : State) (f : Mgmt → Mgmt) : (s.modMgmt f).lasting = s.lasting := rfl

theorem execTransferFw_lasting (ld off : ℕ) (bytes : List Byte) (last : Bool) (s : State) :
    Leaves s (execTransferFw ld off bytes last s) := by
  refine leaves_next ?_
  grind [State.fwRow_lasting, !State.mbox_lasting, !State.setScalar_lasting, !State.modMgmt_lasting, !State.modLd_lasting,
    !State.commitStage_lasting]

theorem State.restStage_lasting (s : State) : (s.restStage).lasting = s.lasting := by
  simp only [State.restStage, State.setScalar_lasting, apply_ite State.lasting, ite_self]

theorem State.endSessionsIf_lasting (s : State) (p : Session → Bool) (q : Setup → Bool) : (s.endSessionsIf p q).lasting = s.lasting := by
  simp only [State.endSessionsIf, State.restStage_lasting, State.modMgmt_lasting]

theorem State.endSessions_lasting (s : State) : (s.endSessions).lasting = s.lasting := by
  simp only [State.endSessions, State.endSessionsIf_lasting]

theorem execActivateFw_lasting (ld : ℕ) (online : Bool) (s : State) : Leaves s (execActivateFw ld online s) := by
  refine leaves_next ?_
  grind [State.fwRow_lasting, !State.activate_lasting, !State.mbox_lasting, !State.endSessions_lasting]

end Sys2Proof.Machine
end

section

/-! What lasts under the definitions of `Sys2Proof/Machine/Governor.lean`. -/

namespace Sys2Proof.Machine
open Sys2Proof

theorem State.commitLimits_lasting (s : State) (idx : ℕ) (c : Changes) : (s.commitLimits idx c).2.lasting = s.lasting := by
  unfold State.commitLimits
  grind [State.commitChecked_lasting]

theorem State.setTemp_lasting (s : State) (i : ℕ) (t : ℤ) : (s.setTemp i t).lasting = s.lasting := rfl

theorem State.sendMv_lasting (s : State) (v : ℚ) (failed : Bool) : (s.sendMv v failed).lasting = s.lasting := by
  simp only [State.sendMv, State.count_lasting, State.emit_lasting, State.lasting_mk, State.lasting_eta, apply_ite State.lasting,
    ite_self]

theorem execGovernorTick_lasting (temps : List ℤ) (power meas avsFailed : ℕ) (s : State) :
    Leaves s (execGovernorTick temps power meas avsFailed s) := by
  refine leaves_next ?_
  simp only [State.count_lasting, State.sendMv_lasting, State.raise_lasting, State.lasting_mk, State.lasting_eta, apply_ite State.lasting,
    ite_self]

theorem State.thermalCause_lasting (s : State) : (s.thermalCause).lasting = s.lasting := rfl

theorem execDieTripLimit_lasting (sensor : ℕ) (temp : ℤ) (s : State) : Leaves s (execDieTripLimit sensor temp s) := by
  refine leaves_next ?_
  simp only [State.setTemp_lasting, State.thermalCause_lasting, apply_ite State.lasting, ite_self]

theorem execCriticalTemperature_lasting (sensor : ℕ) (temp : ℤ) (s : State) : Leaves s (execCriticalTemperature sensor temp s) := by
  refine leaves_next ?_
  simp only [State.setTemp_lasting, State.thermalCause_lasting, State.lasting_mk, State.lasting_eta, apply_ite State.lasting, ite_self]

theorem execCriticalHoldEnd_lasting (s : State) : Leaves s (execCriticalHoldEnd s) := by
  refine leaves_next ?_
  simp only [State.lasting_mk, State.lasting_eta, apply_ite State.lasting, ite_self]

theorem execThermTripNChange_lasting (active : Bool) (s : State) : Leaves s (execThermTripNChange active s) := by
  refine leaves_next ?_
  simp only [State.setPin_lasting, State.thermalCause_lasting, State.raise_lasting, State.lasting_mk, State.lasting_eta, apply_ite
    State.lasting, ite_self]

theorem execThermTripStuck_lasting (s : State) : Leaves s (execThermTripStuck s) := by
  refine leaves_next ?_
  simp only [State.raise_lasting, State.lasting_mk, State.lasting_eta, apply_ite State.lasting, ite_self]

end Sys2Proof.Machine
end

section

/-! What lasts under the definitions of `Sys2Proof/Machine/Reset.lean`. -/

namespace Sys2Proof.Machine
open Sys2Proof

theorem State.modNode_lasting (s : State) (f : Node → Node) : (s.modNode f).lasting = s.lasting := rfl

theorem State.trainPorts_lasting (s : State) : (s.trainPorts).lasting = s.lasting := by
  unfold State.trainPorts
  grind [!State.reportPort_lasting, foldl_lasting]

theorem State.beginExit_lasting (s : State) : (s.beginExit).lasting = s.lasting := by
  simp only [State.beginExit, State.trainWith_lasting, State.modNode_lasting, State.trainPorts_lasting]

theorem State.testUnits_lasting (s : State) : (s.testUnits).lasting = s.lasting :=
  (foldl_lasting (fun _ _ => State.reportPort_lasting ..) _ _).trans
    (foldl_lasting (fun _ _ => foldl_lasting (fun _ _ => State.setOper_lasting ..) _ _) unitClasses s)

theorem State.applyLds_lasting (s : State) : (s.applyLds).lasting = s.lasting := by
  unfold State.applyLds
  refine (foldl_lasting (fun _ _ => State.setOct_lasting ..) _ _).trans ?_
  refine (State.setOct_lasting ..).trans ?_
  exact (State.setScalar_lasting ..).trans (State.setScalar_lasting ..)

theorem State.dropConns_lasting (s : State) : (s.dropConns).lasting = s.lasting := by
  refine foldl_lasting (fun u c => ?_) _ s
  dsimp only
  split
  · exact (State.removeConn_lasting ..).trans (State.resetConn_lasting ..)
  · exact State.resetConn_lasting ..

theorem State.warmSteps_lasting (s : State) : (s.warmSteps).lasting = s.lasting := by
  unfold State.warmSteps
  refine (State.modNode_lasting ..).trans ?_
  refine (State.applyLds_lasting ..).trans ?_
  refine (State.testUnits_lasting ..).trans ?_
  refine (State.raiseLevels_lasting ..).trans ?_
  exact (State.dropConns_lasting s.endSessions).trans (State.endSessions_lasting s)

theorem State.bankSettle_lasting (s : State) : (s.bankSettle).lasting = s.lasting := by
  simp only [State.bankSettle, State.warmSteps_lasting, State.beginExit_lasting, apply_ite State.lasting, ite_self]

theorem State.clearCause_lasting (s : State) (i : ℕ) : (s.clearCause i).lasting = s.lasting := by
  simp only [State.clearCause, State.bankSettle_lasting, State.setCause_lasting]

theorem State.endAnneals_lasting (s : State) : (s.endAnneals).lasting = s.lasting := by
  unfold State.endAnneals
  grind [!State.quenchLoan_lasting, foldl_lasting]

theorem execBankedEntry_lasting (s : State) : Leaves s (execBankedEntry s) := by
  refine leaves_next ?_
  simp only [State.endRuns_lasting, State.endAnneals_lasting, State.setScalar_lasting, State.modNode_lasting, State.raise_lasting,
    State.count_lasting, apply_ite State.lasting, ite_self]

theorem State.resetBusy_lasting (s : State) : (s.resetBusy).lasting = s.lasting := by
  unfold State.resetBusy
  grind [!State.resetConn_lasting, foldl_lasting]

theorem State.loseAll_lasting (s : State) : (s.loseAll).lasting = s.lasting := by
  unfold State.loseAll
  grind [!State.abandon_lasting, !State.finish_lasting, foldl_lasting]

theorem State.stopMoves_lasting (s : State) : (s.stopMoves).lasting = s.lasting := by
  unfold State.stopMoves
  grind [!State.stopMigration_lasting, !State.swapOutFailed_lasting, !State.failRestore_lasting, foldl_lasting]

theorem State.stopUnits_lasting (s : State) : (s.stopUnits).lasting = s.lasting := by
  unfold State.stopUnits
  dsimp only
  refine (State.serveLines_lasting ..).trans ((foldl_lasting (fun u a => ?_) _ _).trans ?_)
  · split
    · exact (State.endHostWalk_lasting ..).trans ((State.emit_lasting ..).trans (State.vendorRecord_lasting ..))
    · exact (State.endHostWalk_lasting ..).trans (State.serveLine_lasting ..)
  · exact State.finishSteps_lasting s fun _ => true

theorem State.enterBanked_lasting (s : State) : (s.enterBanked).lasting = s.lasting := by
  unfold State.enterBanked
  refine (State.trainPorts_lasting ..).trans ?_
  refine (State.modNode_lasting ..).trans ?_
  refine (State.setScalar_lasting ..).trans ?_
  refine (State.stopUnits_lasting ..).trans ?_
  refine (State.stopMoves_lasting ..).trans ?_
  refine (foldl_lasting (fun _ _ => State.dropMerge_lasting ..) _ _).trans ?_
  exact (State.loseAll_lasting ..).trans (State.resetBusy_lasting ..)

theorem execDrainBoundExpiry_lasting (s : State) : Leaves s (execDrainBoundExpiry s) := by
  refine leaves_next ?_
  simp only [State.bankSettle_lasting, State.enterBanked_lasting, apply_ite State.lasting, ite_self]

theorem State.setCorePrios_lasting (s : State) : (s.setCorePrios).lasting = s.lasting :=
  (State.rerouteWaiting_lasting ..).trans (foldl_snd_lasting (fun _ _ => rfl) (List.range 8) (([] : List (BitVec 8)), s))

theorem State.warmEnd_lasting (s : State) : (s.warmEnd).lasting = s.lasting := by
  simp only [State.warmEnd, State.count_lasting, State.setCause_lasting, State.setCorePrios_lasting, State.modNode_lasting, apply_ite
    State.lasting, ite_self]

theorem State.release_lasting (s : State) : (s.release).lasting = s.lasting := by
  simp only [State.release, State.warmEnd_lasting, State.count_lasting, State.modNode_lasting, State.rerouteWaiting_lasting,
    State.raise_lasting, State.lasting_mk, State.lasting_eta]

theorem execBankedExit_lasting (s : State) : Leaves s (execBankedExit s) := by
  refine leaves_next ?_
  simp only [State.release_lasting, State.bankSettle_lasting, State.trainPorts_lasting, State.modNode_lasting, apply_ite State.lasting,
    ite_self]

theorem State.bankCmd_lasting (s : State) (v : ℕ) : (s.bankCmd v).2.lasting = s.lasting := by
  unfold State.bankCmd
  grind [!State.setCause_lasting, !State.clearCause_lasting]

theorem State.warmReset_lasting (s : State) (v : ℕ) : (s.warmReset v).2.lasting = s.lasting := by
  unfold State.warmReset
  grind [!State.bankSettle_lasting, !State.setCause_lasting]

theorem execForceHoldChange_lasting (active : Bool) (s : State) : Leaves s (execForceHoldChange active s) := by
  refine leaves_next ?_
  simp only [State.setPin_lasting, State.setCause_lasting, State.raise_lasting, State.clearCause_lasting, apply_ite State.lasting,
    ite_self]

theorem execNodeRstNAssert_lasting (s : State) : Leaves s (execNodeRstNAssert s) := by
  refine leaves_next ?_
  simp only [State.setPin_lasting, State.modNode_lasting, State.setCause_lasting, apply_ite State.lasting, ite_self]

theorem execNodeRstNRelease_lasting (s : State) : Leaves s (execNodeRstNRelease s) := by
  refine leaves_next ?_
  simp only [State.setPin_lasting, State.warmEnd_lasting, State.bankSettle_lasting, apply_ite State.lasting, ite_self]

theorem execThermalClearTimer_lasting (s : State) : Leaves s (execThermalClearTimer s) := by
  refine leaves_next ?_
  simp only [State.clearCause_lasting, State.lasting_mk, State.lasting_eta, apply_ite State.lasting, ite_self]

theorem execActivationDone_lasting (failed : Option Status) (s : State) : Leaves s (execActivationDone failed s) := by
  refine leaves_next ?_
  (repeat' split) <;> simp only [State.bootSlot_lasting, State.flashWrite_lasting, State.setScalar_lasting, State.count_lasting,
    State.clearCause_lasting, State.lasting_mk, State.lasting_eta]

theorem execRecalibrateDone_lasting (measured : List (ℕ × List Byte)) (failed : BitVec 4) (s : State) :
    Leaves s (execRecalibrateDone measured failed s) := by
  have stored : ∀ (l : List ℕ) (u : State), (l.foldl (fun s g => s.storeGroup measured g) u).lasting = u.lasting :=
    foldl_lasting fun _ _ => State.storeGroup_lasting ..
  refine leaves_next ?_
  split
  · rfl
  simp only [State.clearCause_lasting, State.lasting_mk, State.lasting_eta, State.setScalar_lasting, stored]

theorem State.loadFault_lasting (s : State) (x : UnitClass × ℕ) : (s.loadFault x).lasting = s.lasting := by
  unfold State.loadFault
  grind [!State.setSpare_lasting, !State.setUnitRec_lasting]

theorem State.enterRecovery_lasting (s : State) : (s.enterRecovery).lasting = s.lasting := by
  refine (State.modNode_lasting ..).trans ?_
  have h := State.endSessions_lasting s
  simp_all [State.lasting, State.built]

theorem State.boot_lasting (s : State) : (s.boot).lasting = s.lasting := by
  unfold State.boot
  grind [!State.bootSlot_lasting, !State.enterRecovery_lasting]

theorem execRecoveryEntry_lasting (s : State) : Leaves s (execRecoveryEntry s) := by
  refine leaves_next ?_
  simp only [State.enterRecovery_lasting, apply_ite State.lasting, ite_self]

theorem execReady_lasting (s : State) : Leaves s (execReady s) := by
  refine leaves_next ?_
  simp only [State.modNode_lasting, State.bankSettle_lasting, State.raise_lasting, State.setCorePrios_lasting, apply_ite State.lasting,
    ite_self]

theorem State.killQueues_lasting (s : State) (ld : ℕ) : (s.killQueues ld).lasting = s.lasting := rfl

theorem State.maskSources_lasting (s : State) (ld : ℕ) : (s.maskSources ld).lasting = s.lasting :=
  foldl_lasting State.bankMask_lasting _ s

theorem State.resetTargets_lasting (s : State) (ld : ℕ) : (s.resetTargets ld).lasting = s.lasting := rfl

theorem State.dropTransfer_lasting (s : State) (ld : ℕ) : (s.dropTransfer ld).lasting = s.lasting := by
  simp only [State.dropTransfer, State.modMgmt_lasting, apply_ite State.lasting, ite_self]

theorem State.functionReset_lasting (s : State) (ld : ℕ) : (s.functionReset ld).lasting = s.lasting :=
  (State.resetTargets_lasting ..).trans <| (State.maskSources_lasting ..).trans <| (State.modLd_lasting ..).trans <|
    (State.dropTransfer_lasting ..).trans (State.killQueues_lasting ..)

theorem execFunctionLevelReset_lasting (ld : ℕ) (s : State) : Leaves s (execFunctionLevelReset ld s) := by
  refine leaves_next ?_
  simp only [State.functionReset_lasting, apply_ite State.lasting, ite_self]

theorem State.offerAgain_lasting (s : State) (c : Comp) : (s.offerAgain c).lasting = s.lasting := by
  unfold State.offerAgain
  grind [!State.offerParts_lasting, !State.modLd_lasting]

theorem State.cxlReset_lasting (s : State) (ld : ℕ) : (s.cxlReset ld).lasting = s.lasting :=
  (foldl_lasting State.offerAgain_lasting _ _).trans ((State.modLd_lasting ..).trans (State.functionReset_lasting ..))

theorem execCxlReset_lasting (ld : ℕ) (s : State) : Leaves s (execCxlReset ld s) := by
  refine leaves_next ?_
  simp only [State.cxlReset_lasting, apply_ite State.lasting, ite_self]

theorem execPerstNAssert_lasting (s : State) : Leaves s (execPerstNAssert s) := by
  refine leaves_next ?_
  grind [!State.setPin_lasting, !State.modNode_lasting, !State.cxlReset_lasting, foldl_lasting]

theorem execPerstNRelease_lasting (s : State) : Leaves s (execPerstNRelease s) := leaves_next rfl

theorem execFabrefLoss_lasting (s : State) : Leaves s (execFabrefLoss s) := by
  refine leaves_next ?_
  split
  · rfl
  refine (foldl_lasting (fun _ _ => State.reportPort_lasting ..) _ _).trans ?_
  exact (State.modNode_lasting ..).trans (State.count_lasting ..)

theorem execFabrefReturn_lasting (s : State) : Leaves s (execFabrefReturn s) := by
  refine leaves_next ?_
  simp only [State.trainPorts_lasting, State.modNode_lasting, State.lasting_mk, State.lasting_eta, apply_ite State.lasting, ite_self]

theorem execPeRefclkLoss_lasting (s : State) : Leaves s (execPeRefclkLoss s) := by
  refine leaves_next ?_
  simp only [State.modNode_lasting, State.lasting_mk, State.lasting_eta, apply_ite State.lasting, ite_self]

end Sys2Proof.Machine
end

section

/-! What lasts under the definitions of `Sys2Proof/Machine/Dictionary.lean`. -/

namespace Sys2Proof.Machine
open Sys2Proof

theorem execGetHealthInfo_lasting (ld : ℕ) (s : State) : Leaves s (execGetHealthInfo ld s) := by
  refine leaves_next ?_
  simp only [State.mboxReport_lasting]

end Sys2Proof.Machine
end

section

/-! What lasts under the definitions of `Sys2Proof/Machine/Commit.lean`. -/

namespace Sys2Proof.Machine
open Sys2Proof

theorem State.commitComm_lasting (s : State) (c : Changes) : (s.commitComm c).2.lasting = s.lasting := by
  unfold State.commitComm
  dsimp only
  (repeat' split) <;> simp only [State.applyChanges_lasting]

theorem State.commitKeys_lasting (s : State) (c : Changes) : (s.commitKeys c).2.lasting = s.lasting := by
  unfold State.commitKeys
  grind [!State.applyChanges_lasting]

theorem State.commitPort_lasting (s : State) (idx : ℕ) (c : Changes) : (s.commitPort idx c).2.lasting = s.lasting := by
  unfold State.commitPort
  grind [!State.applyChanges_lasting]

theorem State.commitTransport_lasting (s : State) (c : Changes) : (s.commitTransport c).2.lasting = s.lasting := by
  unfold State.commitTransport
  grind [!State.applyChanges_lasting]

theorem State.writeRw_lasting (s : State) (idx sub : ℕ) (o : Obj) (v : ℕ) : (s.writeRw idx sub o v).2.lasting = s.lasting := by
  unfold State.writeRw
  dsimp only
  (repeat' split) <;> simp only [State.setScalar_lasting, State.flashWrite_lasting]

theorem State.commitIndex_lasting (s : State) (idx : ℕ) (c : Changes) : (s.commitIndex idx c).2.lasting = s.lasting := by
  unfold State.commitIndex
  (repeat' split) <;> simp only [State.commitTenant_lasting, State.commitComp_lasting, State.commitSlot_lasting,
    State.commitCalibration_lasting, State.commitAdmin_lasting, State.commitPort_lasting, State.commitLd_lasting,
    State.commitComm_lasting, State.commitKeys_lasting, State.commitLimits_lasting, State.commitTransport_lasting,
    State.commitLdConfig_lasting, State.commitRoutes_lasting, State.commitRehearsal_lasting, State.commitStage_lasting,
    State.applyChanges_lasting]

end Sys2Proof.Machine
end

section

/-! What lasts under the definitions of `Sys2Proof/Machine/Manage.lean`. -/

namespace Sys2Proof.Machine
open Sys2Proof

theorem State.vopRead_lasting (s : State) (x : Session) (f : VopFrame) : (s.vopRead x f).state.lasting = s.lasting := by
  unfold State.vopRead
  grind

theorem State.stage_lasting (s : State) (session idx sub off : ℕ) (t : OTy) (bs : List Byte) :
    (s.stage session idx sub off t bs).lasting = s.lasting := by
  simp only [State.stage, State.modMgmt_lasting, State.setScalar_lasting, apply_ite State.lasting, ite_self]

theorem State.modSession_lasting (s : State) (n : ℕ) (f : Session → Session) : (s.modSession n f).lasting = s.lasting := rfl

theorem State.vopBlockRead_lasting (s : State) (x : Session) (f : VopFrame) : (s.vopBlockRead x f).state.lasting = s.lasting := by
  unfold State.vopBlockRead
  dsimp only
  (repeat' split) <;> simp only [State.modSession_lasting]

theorem State.vopBlockWrite_lasting (s : State) (x : Session) (f : VopFrame) : (s.vopBlockWrite x f).state.lasting = s.lasting := by
  unfold State.vopBlockWrite
  dsimp only
  (repeat' split) <;> simp only [State.stage_lasting]

theorem State.commitOne_lasting (s : State) (session idx : ℕ) (discard : Bool) :
    (s.commitOne session idx discard).2.lasting = s.lasting := by
  unfold State.commitOne
  dsimp only
  (repeat' split) <;> simp only [State.modMgmt_lasting, State.restStage_lasting, State.commitIndex_lasting]

theorem State.commitAll_lasting (s : State) (session : ℕ) (discard : Bool) : (s.commitAll session discard).2.lasting = s.lasting := by
  refine foldl_snd_lasting ?_ _ ((none : Option (Status × ℕ)), s)
  exact fun a idx => State.commitOne_lasting a.2 session idx discard

theorem State.vopCommit_lasting (s : State) (x : Session) (f : VopFrame) : (s.vopCommit x f).state.lasting = s.lasting := by
  unfold State.vopCommit
  grind [!State.commitAll_lasting, !State.commitOne_lasting]

theorem State.vopSubscribe_lasting (s : State) (x : Session) (f : VopFrame) : (s.vopSubscribe x f).state.lasting = s.lasting := by
  unfold State.vopSubscribe
  dsimp only
  (repeat' split) <;> simp only [State.modSession_lasting]

theorem State.vopHello_lasting (s : State) (f : VopFrame) : (s.vopHello f).2.lasting = s.lasting := by
  unfold State.vopHello
  dsimp only
  (repeat' split) <;> simp only [State.drawBytes_lasting, State.drawBits_lasting, State.modMgmt_lasting]

theorem State.vopOpen_lasting (s : State) (f : VopFrame) : (s.vopOpen f).2.lasting = s.lasting := by
  unfold State.vopOpen
  dsimp only
  (repeat' split) <;> simp only [State.vopHello_lasting, State.vopRead_lasting, State.vopBlockWrite_lasting, State.modMgmt_lasting,
    State.restStage_lasting, State.setScalar_lasting, State.bootSlot_lasting, State.setSlot_lasting, State.flashWrite_lasting,
    State.modNode_lasting]

theorem State.openSession_lasting (s : State) (u : Setup) (f : VopFrame) : (s.openSession u f).2.lasting = s.lasting := rfl

theorem State.vopProof_lasting (s : State) (u : Setup) (f : VopFrame) : (s.vopProof u f).2.lasting = s.lasting := by
  unfold State.vopProof
  dsimp only
  (repeat' split) <;> simp only [State.count_lasting, State.openSession_lasting, State.flashWrite_lasting, State.setOctets_lasting,
    State.modMgmt_lasting]

theorem State.afterReply_lasting (s : State) (f : VopFrame) (st : Status) : (s.afterReply f st).lasting = s.lasting := by
  simp only [State.afterReply, State.endSessions_lasting, State.endSessionsIf_lasting, apply_ite State.lasting, ite_self]

theorem execSessionIdleExpiry_lasting (sid : ℕ) (s : State) : Leaves s (execSessionIdleExpiry sid s) := by
  refine leaves_next ?_
  simp only [State.endSessionsIf_lasting, apply_ite State.lasting, ite_self]

theorem execSessionSetupTimeout_lasting (sid : ℕ) (s : State) : Leaves s (execSessionSetupTimeout sid s) := by
  refine leaves_next ?_
  simp only [State.count_lasting, State.modMgmt_lasting, apply_ite State.lasting, ite_self]

theorem State.sendVop_lasting (s : State) (r : Route) (mac : BitVec 48) (bs : List Byte) : (s.sendVop r mac bs).lasting = s.lasting := by
  unfold State.sendVop
  grind [!State.sendMgt_lasting, !State.emit_lasting]

theorem State.watchSubs_lasting (s : State) : (s.watchSubs).lasting = s.lasting := by
  simp only [State.watchSubs, State.lasting_mk, State.lasting_eta, apply_ite State.lasting, ite_self]

theorem State.notifySub_lasting (s : State) (x : Session) (u : Subscription) (o : Obj) : (s.notifySub x u o).lasting = s.lasting := by
  simp only [State.notifySub, State.modSession_lasting, State.count_lasting, State.sendVop_lasting, apply_ite State.lasting, ite_self]

theorem execNotify_lasting (sid sub : ℕ) (s : State) : Leaves s (execNotify sid sub s) := by
  refine leaves_next ?_
  (repeat' split) <;> simp only [State.notifySub_lasting, State.modSession_lasting]

end Sys2Proof.Machine
end

section

/-! What lasts under the definitions of `Sys2Proof/Machine/Time.lean`. -/

namespace Sys2Proof.Machine
open Sys2Proof

theorem State.integrate_lasting (s : State) (dt : ℕ) : (s.integrate dt).lasting = s.lasting := rfl

end Sys2Proof.Machine
end

section

/-! What every step keeps: the commands that wait, the variant and the fuses that are blown. All rows leave what lasts as it is,
but for the edges of PWRGOOD, which restart the clock, and for ROLLBACK_COMMIT, which blows fuses. -/

namespace Sys2Proof.Machine
open Sys2Proof

/-- `t` holds what outlasts a command in `s`, with fuses blown more or as they were. -/
structure State.Keeps (s t : State) : Prop where
  queue : t.pending = s.pending
  variant : t.variant = s.variant
  rollback : s.trust.rollback ≤ t.trust.rollback
  revoked : ∀ i, s.trust.keyRevoked.getLsbD i = true → t.trust.keyRevoked.getLsbD i = true

theorem State.keeps_of_built {s t : State} (h : t.built = s.built) : s.Keeps t := by
  simp only [State.built, Prod.mk.injEq] at h
  obtain ⟨queue, variant, rollback, revoked⟩ := h
  exact ⟨queue, variant, rollback ▸ le_rfl, fun _ hi => revoked ▸ hi⟩

theorem State.built_of_lasting {s t : State} (h : t.lasting = s.lasting) : t.built = s.built := congrArg Prod.fst h

/-- `Keeps` with the local counter standing. -/
structure State.KeepsTime (s t : State) : Prop extends s.Keeps t where
  ltime : t.clk.ltime = s.clk.ltime

theorem State.keepsTime_of_lasting {s t : State} (h : t.lasting = s.lasting) : s.KeepsTime t :=
  ⟨State.keeps_of_built (State.built_of_lasting h), congrArg Prod.snd h⟩

theorem State.KeepsTime.rfl {s : State} : s.KeepsTime s := State.keepsTime_of_lasting (Eq.refl _)

theorem State.KeepsTime.trans {s t u : State} (h : s.KeepsTime t) (g : t.KeepsTime u) : s.KeepsTime u where
  queue := g.queue.trans h.queue
  variant := g.variant.trans h.variant
  rollback := h.rollback.trans g.rollback
  revoked := fun i hi => g.revoked i (h.revoked i hi)
  ltime := g.ltime.trans h.ltime

theorem State.KeepsTime.lasting {s t u : State} (h : s.KeepsTime t) (g : u.lasting = t.lasting) : s.KeepsTime u :=
  h.trans (State.keepsTime_of_lasting g)

/-- ROLLBACK_COMMIT raises the rollback counter and revokes the keys below the running image's. -/
theorem State.rollbackCommit_keeps (s : State) (v : ℕ) : s.KeepsTime (s.rollbackCommit v).2 := by
  unfold State.rollbackCommit
  split
  · exact .rfl
  split
  · exact .rfl
  dsimp only
  split
  · exact .rfl
  · exact ⟨⟨rfl, rfl, by dsimp only; omega, fun i hi => by simp [hi]⟩, rfl⟩

theorem State.unlessHeld_keeps (s : State) (x : Session) (f : VopFrame) (r : Status × State) (h : s.KeepsTime r.2) :
    s.KeepsTime (s.unlessHeld x f r).state := by
  unfold State.unlessHeld
  split
  · exact .rfl
  · exact h

theorem State.writeWo_keeps (s : State) (route : Route) (session role idx sub : ℕ) (bs : List Byte) :
    s.KeepsTime (s.writeWo route session role idx sub bs).2 := by
  unfold State.writeWo
  dsimp only
  (repeat' split)
  case isTrue.isTrue.isFalse => exact State.rollbackCommit_keeps ..
  all_goals
    apply State.keepsTime_of_lasting
    simp only [State.activate_lasting, State.writeExportKey_lasting, State.writeQuenchNow_lasting, State.assay_lasting,
      State.recalibrate_lasting, State.bankCmd_lasting, State.warmReset_lasting]

theorem State.vopWrite_keeps (s : State) (x : Session) (f : VopFrame) : s.KeepsTime (s.vopWrite x f).state := by
  unfold State.vopWrite
  dsimp only
  (repeat' split) <;> try exact State.KeepsTime.rfl
  · exact State.keepsTime_of_lasting (State.stage_lasting ..)
  · exact State.unlessHeld_keeps _ _ _ _ (State.keepsTime_of_lasting (State.writeRw_lasting ..))
  · exact State.unlessHeld_keeps _ _ _ _ (State.writeWo_keeps ..)

theorem State.vopDo_keeps (s : State) (x : Session) (f : VopFrame) : s.KeepsTime (s.vopDo x f).state := by
  unfold State.vopDo
  split
  · exact State.keepsTime_of_lasting (State.vopRead_lasting ..)
  split
  · exact State.vopWrite_keeps ..
  apply State.keepsTime_of_lasting
  (repeat' split) <;> simp only [State.vopCommit_lasting, State.vopBlockRead_lasting, State.vopBlockWrite_lasting,
    State.vopSubscribe_lasting, State.endSessionsIf_lasting]

theorem State.vopSession_keeps (s : State) (x : Session) (f : VopFrame) : s.KeepsTime (s.vopSession x f).2 := by
  have counted : ∀ n, s.KeepsTime (s.count 0x6700 n) := fun _ => State.keepsTime_of_lasting (State.count_lasting ..)
  have heard : ∀ m, s.KeepsTime (s.modSession x.id m) := fun _ => State.keepsTime_of_lasting (State.modSession_lasting ..)
  unfold State.vopSession
  split
  · exact counted _
  split
  · exact counted _
  split
  · exact counted _
  dsimp only
  split
  · exact heard _
  · refine State.KeepsTime.lasting ?_ (State.afterReply_lasting ..)
    refine State.KeepsTime.lasting ?_ (State.modSession_lasting ..)
    exact (heard _).trans (State.vopDo_keeps ..)

theorem State.vop_keeps (s : State) (f : VopFrame) : s.KeepsTime (s.vop f).2 := by
  unfold State.vop
  split
  · exact .rfl
  split
  · exact State.keepsTime_of_lasting (State.count_lasting ..)
  split
  · exact .rfl
  split
  · exact State.keepsTime_of_lasting (State.vopOpen_lasting ..)
  split
  · exact State.vopSession_keeps ..
  split
  · exact State.keepsTime_of_lasting (State.vopProof_lasting ..)
  · exact State.keepsTime_of_lasting (State.count_lasting ..)

/-- A packet is left unheard, or goes to its row with what lasts as it was. -/
theorem State.receive_cases (s : State) (p : Packet) (cls : PClass) (type : ℕ) (go : State → State) :
    (s.receive p cls type go).lasting = s.lasting ∨ s.receive p cls type go = go (s.heard p) := by
  unfold State.receive
  by_cases h : s.node.powered = false
  · left; simp [h]
  (repeat' split) <;> simp only [State.count_lasting, State.arrived_lasting, State.heard_lasting, true_or, or_true]

theorem State.vopArrive_keeps (s : State) (f : VopFrame) : s.KeepsTime (s.vopArrive f) := by
  unfold State.vopArrive
  split
  · exact .rfl
  split
  · have h := s.vop_keeps f
    split
    next hv =>
      rw [hv] at h
      split
      · exact h.lasting (State.emit_lasting ..)
      · exact h
    next hv =>
      rw [hv] at h
      exact h
  · split
    · exact (State.KeepsTime.lasting .rfl (State.mboxTake_lasting ..)).trans (State.vop_keeps ..) |>.lasting (State.mbox_lasting ..)
    · exact .rfl
  · split
    · exact .rfl
    obtain h | h := s.receive_cases f.via .mgt 6 _
    · exact State.keepsTime_of_lasting h
    rw [h]
    refine (State.keepsTime_of_lasting (State.heard_lasting s f.via)).trans ?_
    split
    · exact State.keepsTime_of_lasting (State.count_lasting ..)
    · have h := (State.keepsTime_of_lasting (State.accepted_lasting (s.heard f.via))).trans ((s.heard f.via).accepted.vop_keeps f)
      split
      next hv =>
        rw [hv] at h
        exact h.lasting (State.replyTo_lasting ..)
      next hv =>
        rw [hv] at h
        exact h
  · exact .rfl

theorem State.vopRow_keeps (s : State) (f : VopFrame) (op : ℕ) (idx : ℕ → Bool) : s.KeepsTime (s.vopRow f op idx) := by
  unfold State.vopRow
  split
  · exact State.vopArrive_keeps ..
  · exact .rfl

/-- A row that completes keeps what it must, and the local counter stands. -/
def Steady (s : State) (o : Host.Outcome State Fault Refusal) : Prop := ∀ t, o = .next t → s.KeepsTime t

theorem Leaves.steady {s : State} {o : Host.Outcome State Fault Refusal} (h : Leaves s o) : Steady s o :=
  fun t ht => State.keepsTime_of_lasting (h t ht)

theorem steady_next {s t : State} (h : s.KeepsTime t) : Steady s (.next t) := by
  intro u hu
  cases hu
  exact h

theorem vopRow_steady (s : State) (f : VopFrame) (op : ℕ) (idx : ℕ → Bool) : Steady s (.next (s.vopRow f op idx)) :=
  steady_next (State.vopRow_keeps ..)

theorem execVopRead_steady (f : VopFrame) (s : State) : Steady s (execVopRead f s) := by
  refine steady_next ?_
  split
  · exact State.vopRow_keeps ..
  · exact State.vopArrive_keeps ..

theorem execVopFrame_steady (ld : ℕ) (f : VopFrame) (s : State) : Steady s (execVopFrame ld f s) := by
  refine steady_next ?_
  split
  · exact State.keepsTime_of_lasting ((State.mbox_lasting ..).trans (State.mboxTake_lasting ..))
  · exact State.vopArrive_keeps ..

theorem State.flashOnly_built (s : State) : s.flashOnly.built = s.built := by
  unfold State.flashOnly
  dsimp only
  refine (State.built_of_lasting (State.count_lasting ..)).trans ?_
  refine (State.built_of_lasting (getD_lasting fun t h => State.addRoot_lasting _ _ h)).trans ?_
  refine (State.built_of_lasting (State.modMem_lasting ..)).trans ?_
  exact (State.built_of_lasting (foldl_lasting State.loadFault_lasting _ _)).trans rfl

theorem execPwrgoodFall_keeps {s t : State} (h : execPwrgoodFall s = .next t) : s.Keeps t := by
  cases h
  split
  · exact State.keeps_of_built s.flashOnly_built
  · exact State.keeps_of_built rfl

theorem execPwrgoodRise_keeps {v : BitVec 32} {s t : State} (h : execPwrgoodRise v s = .next t) : s.Keeps t := by
  cases h
  split
  · exact State.keeps_of_built rfl
  have raised : ∀ u : State, ((u.setScalar 0x2006 2 0).applyLds.boot.raiseLevels).lasting = u.lasting := fun u =>
    (State.raiseLevels_lasting ..).trans ((State.boot_lasting ..).trans ((State.applyLds_lasting ..).trans (State.setScalar_lasting ..)))
  refine State.keeps_of_built (Eq.trans ?_ s.flashOnly_built)
  refine State.built_of_lasting ((raised _).trans ?_)
  grind [!State.modNode_lasting, !State.setCause_lasting]

/-- Every row but the edges of PWRGOOD leaves the local counter standing. -/
theorem exec_steady (c : Instr) (s : State) (rise : ∀ v, c ≠ .pwrgoodRise v) (fall : c ≠ .pwrgoodFall) : Steady s (exec c s) := by
  cases c with
  | geomDefine r => exact (execGeomDefine_lasting r s).steady
  | geomRelease r => exact (execGeomRelease_lasting r s).steady
  | seqCreate r => exact (execSeqCreate_lasting r s).steady
  | append r dma => exact (execAppend_lasting r dma s).steady
  | fork r => exact (execFork_lasting r s).steady
  | seqPin r => exact (execSeqPin_lasting r s).steady
  | seqPreempt r => exact (execSeqPreempt_lasting r s).steady
  | seqRestore r => exact (execSeqRestore_lasting r s).steady
  | restoreFailed seq st => exact (execRestoreFailed_lasting seq st s).steady
  | seqDestroy r => exact (execSeqDestroy_lasting r s).steady
  | seqTruncate r => exact (execSeqTruncate_lasting r s).steady
  | seqQuery r => exact (execSeqQuery_lasting r s).steady
  | seqFence r => exact (execSeqFence_lasting r s).steady
  | seqFenceTimeout r => exact (execSeqFenceTimeout_lasting r s).steady
  | pageShare r => exact (execPageShare_lasting r s).steady
  | map r => exact (execMap_lasting r s).steady
  | unmap r => exact (execUnmap_lasting r s).steady
  | remap r => exact (execRemap_lasting r s).steady
  | quarantineEnd item => exact (execQuarantineEnd_lasting item s).steady
  | attend r => exact (execAttend_lasting r s).steady
  | nearBankStepEnd unit => exact (execNearBankStepEnd_lasting unit s).steady
  | refreshDue unit => exact (execRefreshDue_lasting unit s).steady
  | broadcastCommandComplete r => exact (execBroadcastCommandComplete_lasting r s).steady
  | crucibleMergeDone r => exact (execCrucibleMergeDone_lasting r s).steady
  | mergeOpen r => exact (execMergeOpen_lasting r s).steady
  | mergeSubmit r dma => exact (execMergeSubmit_lasting r dma s).steady
  | mergeClose r => exact (execMergeClose_lasting r s).steady
  | mergeAbort r => exact (execMergeAbort_lasting r s).steady
  | mergeTimeout slot => exact (execMergeTimeout_lasting slot s).steady
  | tsRebuild r => exact (execTsRebuild_lasting r s).steady
  | tsRead r => exact (execTsRead_lasting r s).steady
  | touchstoneErrorRebuild frame inWord => exact (execTouchstoneErrorRebuild_lasting frame inWord s).steady
  | gatherReduce r => exact (execGatherReduce_lasting r s).steady
  | ewise r => exact (execEwise_lasting r s).steady
  | norm r => exact (execNorm_lasting r s).steady
  | optStep r => exact (execOptStep_lasting r s).steady
  | cast r => exact (execCast_lasting r s).steady
  | tierMoveUp r => exact (execTierMoveUp_lasting r s).steady
  | tierMoveDown r => exact (execTierMoveDown_lasting r s).steady
  | tierMoveHold r => exact (execTierMoveHold_lasting r s).steady
  | heatPeriodExpiry => exact (execHeatPeriodExpiry_lasting s).steady
  | demotionStart => exact (execDemotionStart_lasting s).steady
  | promotionStart frame => exact (execPromotionStart_lasting frame s).steady
  | migrationSwitch frame => exact (execMigrationSwitch_lasting frame s).steady
  | lowerUnitRmw frame off bytes => exact (execLowerUnitRmw_lasting frame off bytes s).steady
  | imageCompaction frame => exact (execImageCompaction_lasting frame s).steady
  | lowerSectorWaitEnd x => exact (execLowerSectorWaitEnd_lasting x s).steady
  | ltReadLimitExpiry x => exact (execLtReadLimitExpiry_lasting x s).steady
  | privilegedReadRetry id ok time => exact (execPrivilegedReadRetry_lasting id ok time s).steady
  | swapOutFrameDone frame => exact (execSwapOutFrameDone_lasting frame s).steady
  | swapOutFailure frame => exact (execSwapOutFailure_lasting frame s).steady
  | restoreFrameReadDone frame hdr decodes => exact (execRestoreFrameReadDone_lasting frame hdr decodes s).steady
  | restoreDmaTimeout frame => exact (execRestoreDmaTimeout_lasting frame s).steady
  | psInsert r => exact (execPsInsert_lasting r s).steady
  | psRemove r => exact (execPsRemove_lasting r s).steady
  | psSearch r => exact (execPsSearch_lasting r s).steady
  | psPurge r => exact (execPsPurge_lasting r s).steady
  | reqDataRx p => exact (execReqDataRx_lasting p s).steady
  | reqMergeRx p => exact (execReqMergeRx_lasting p s).steady
  | rspDataRx p => exact (execRspDataRx_lasting p s).steady
  | rspEndRx p => exact (execRspEndRx_lasting p s).steady
  | missReplyRx p => exact (execMissReplyRx_lasting p s).steady
  | sackRx p => exact (execSackRx_lasting p s).steady
  | creditAskRx p => exact (execCreditAskRx_lasting p s).steady
  | fenceAckRx p => exact (execFenceAckRx_lasting p s).steady
  | compAckRx p => exact (execCompAckRx_lasting p s).steady
  | keepaliveRx p => exact (execKeepaliveRx_lasting p s).steady
  | connSetupRx p => exact (execConnSetupRx_lasting p s).steady
  | connAcceptRx p => exact (execConnAcceptRx_lasting p s).steady
  | connCloseRx p => exact (execConnCloseRx_lasting p s).steady
  | connResetRx p => exact (execConnResetRx_lasting p s).steady
  | pauseFrameRx port => exact (execPauseFrameRx_lasting port s).steady
  | retransmitTimerExpiry conn space psn => exact (execRetransmitTimerExpiry_lasting conn space psn s).steady
  | responseTimerExpiry r => exact (execResponseTimerExpiry_lasting r s).steady
  | sackDelayExpiry conn space => exact (execSackDelayExpiry_lasting conn space s).steady
  | rateUpdate conn peer port mac ip => exact (execRateUpdate_lasting conn peer port mac ip s).steady
  | pathReadmit conn path => exact (execPathReadmit_lasting conn path s).steady
  | creditAskRepeat conn => exact (execCreditAskRepeat_lasting conn s).steady
  | backoffExpiry r => exact (execBackoffExpiry_lasting r s).steady
  | keepalivePeriod port node => exact (execKeepalivePeriod_lasting port node s).steady
  | peerBankedTimeout node => exact (execPeerBankedTimeout_lasting node s).steady
  | connSetupResend conn => exact (execConnSetupResend_lasting conn s).steady
  | connCloseResend conn => exact (execConnCloseResend_lasting conn s).steady
  | connResetQuietEnd conn => exact (execConnResetQuietEnd_lasting conn s).steady
  | connNumberRelease conn => exact (execConnNumberRelease_lasting conn s).steady
  | portTrainingDone port partnerBanked => exact (execPortTrainingDone_lasting port partnerBanked s).steady
  | portLinkDown port lost => exact (execPortLinkDown_lasting port lost s).steady
  | piDoorbellWrite ld q v => exact (execPiDoorbellWrite_lasting ld q v s).steady
  | cqCiDoorbellWrite ld q v => exact (execCqCiDoorbellWrite_lasting ld q v s).steady
  | workEntryStart q e => exact (execWorkEntryStart_lasting q e s).steady
  | requestEnd r => exact (execRequestEnd_lasting r s).steady
  | remoteRequest r dma => exact (execRemoteRequest_lasting r dma s).steady
  | write r dma => exact (execWrite_lasting r dma s).steady
  | read r dma => exact (execRead_lasting r dma s).steady
  | writeImm r dma => exact (execWriteImm_lasting r dma s).steady
  | fadd r => exact (execFadd_lasting r s).steady
  | swap r => exact (execSwap_lasting r s).steady
  | cas r => exact (execCas_lasting r s).steady
  | cas128 r dma => exact (execCas128_lasting r dma s).steady
  | ledgerQuery r => exact (execLedgerQuery_lasting r s).steady
  | fence r => exact (execFence_lasting r s).steady
  | waitCount r => exact (execWaitCount_lasting r s).steady
  | waitCountTimeout r => exact (execWaitCountTimeout_lasting r s).steady
  | connect r => exact (execConnect_lasting r s).steady
  | disconnect r => exact (execDisconnect_lasting r s).steady
  | reg r => exact (execReg_lasting r s).steady
  | revoke r => exact (execRevoke_lasting r s).steady
  | winBind r => exact (execWinBind_lasting r s).steady
  | contextFetchDone conn => exact (execContextFetchDone_lasting conn s).steady
  | contextWriteback die => exact (execContextWriteback_lasting die s).steady
  | windowRead ld tenant addr => exact (execWindowRead_lasting ld tenant addr s).steady
  | windowWrite ld tenant addr line => exact (execWindowWrite_lasting ld tenant addr line s).steady
  | winLimitExpiry op => exact (execWinLimitExpiry_lasting op s).steady
  | winsyncRead ld tenant => exact (execWinsyncRead_lasting ld tenant s).steady
  | quench r => exact (execQuench_lasting r s).steady
  | anneal r => exact (execAnneal_lasting r s).steady
  | annealDeadlineExpiry slot => exact (execAnnealDeadlineExpiry_lasting slot s).steady
  | zeroingDone tenant => exact (execZeroingDone_lasting tenant s).steady
  | tenantAdminCommit => exact vopRow_steady s _ _ _
  | compositionAdminCommit => exact vopRow_steady s _ _ _
  | compositionFreed slot => exact (execCompositionFreed_lasting slot s).steady
  | mapCommit => exact vopRow_steady s _ _ _
  | compMapReleased slot => exact (execCompMapReleased_lasting slot s).steady
  | quenchNow => exact vopRow_steady s _ _ _
  | exportKeyWrite => exact vopRow_steady s _ _ _
  | tenantLimitsCommit => exact vopRow_steady s _ _ _
  | schedSample => exact (execSchedSample_lasting s).steady
  | cxlMemRead ld hpa => exact (execCxlMemRead_lasting ld hpa s).steady
  | cxlMemWrite ld hpa line poison => exact (execCxlMemWrite_lasting ld hpa line poison s).steady
  | hdmDecoderCommit ld dec base size skip ways => exact (execHdmDecoderCommit_lasting ld dec base size skip ways s).steady
  | apertureCommit => exact vopRow_steady s _ _ _
  | ldConfigCommit => exact vopRow_steady s _ _ _
  | identify ld => exact (execIdentify_lasting ld s).steady
  | backgroundOperationStatus ld => exact (execBackgroundOperationStatus_lasting ld s).steady
  | getSupportedLogs ld => exact (execGetSupportedLogs_lasting ld s).steady
  | getLog ld off len => exact (execGetLog_lasting ld off len s).steady
  | getEventRecords ld log => exact (execGetEventRecords_lasting ld log s).steady
  | clearEventRecords ld log handles all => exact (execClearEventRecords_lasting ld log handles all s).steady
  | getEventInterruptPolicy ld => exact (execGetEventInterruptPolicy_lasting ld s).steady
  | setEventInterruptPolicy ld log entry => exact (execSetEventInterruptPolicy_lasting ld log entry s).steady
  | getFwInfo ld => exact (execGetFwInfo_lasting ld s).steady
  | transferFw ld off bytes last => exact (execTransferFw_lasting ld off bytes last s).steady
  | activateFw ld online => exact (execActivateFw_lasting ld online s).steady
  | getTimestamp ld => exact (execGetTimestamp_lasting ld s).steady
  | setTimestamp ld v => exact (execSetTimestamp_lasting ld v s).steady
  | identifyMemoryDevice ld => exact (execIdentifyMemoryDevice_lasting ld s).steady
  | getHealthInfo ld => exact (execGetHealthInfo_lasting ld s).steady
  | getDynamicCapacityConfiguration ld => exact (execGetDynamicCapacityConfiguration_lasting ld s).steady
  | getDynamicCapacityExtentList ld => exact (execGetDynamicCapacityExtentList_lasting ld s).steady
  | addDynamicCapacityResponse ld ranges => exact (execAddDynamicCapacityResponse_lasting ld ranges s).steady
  | releaseDynamicCapacity ld ranges => exact (execReleaseDynamicCapacity_lasting ld ranges s).steady
  | unsupportedMailboxCommand ld op => exact (execUnsupportedMailboxCommand_lasting ld op s).steady
  | vopFrame => exact execVopFrame_steady _ _ s
  | queueCreate ld payload => exact (execQueueCreate_lasting ld payload s).steady
  | queueDestroy ld payload => exact (execQueueDestroy_lasting ld payload s).steady
  | areaGrant ld payload => exact (execAreaGrant_lasting ld payload s).steady
  | areaReclaim ld payload => exact (execAreaReclaim_lasting ld payload s).steady
  | reclaim ld payload => exact (execReclaim_lasting ld payload s).steady
  | backgroundCommandDone ld => exact (execBackgroundCommandDone_lasting ld s).steady
  | doeDiscovery ld index => exact (execDoeDiscovery_lasting ld index s).steady
  | cdatTableAccess ld handle => exact (execCdatTableAccess_lasting ld handle s).steady
  | assayRequest route m => exact (execAssayRequest_lasting route m s).steady
  | quoteReady id => exact (execQuoteReady_lasting id s).steady
  | functionLevelReset ld => exact (execFunctionLevelReset_lasting ld s).steady
  | cxlReset ld => exact (execCxlReset_lasting ld s).steady
  | perstNAssert => exact (execPerstNAssert_lasting s).steady
  | perstNRelease => exact (execPerstNRelease_lasting s).steady
  | pendSet ld word v => exact (execPendSet_lasting ld word v s).steady
  | pendClr ld word v => exact (execPendClr_lasting ld word v s).steady
  | maskSet ld word v => exact (execMaskSet_lasting ld word v s).steady
  | maskClr ld word v => exact (execMaskClr_lasting ld word v s).steady
  | fpendSet ld v => exact (execFpendSet_lasting ld v s).steady
  | fpendClr ld v => exact (execFpendClr_lasting ld v s).steady
  | fmaskSet ld v => exact (execFmaskSet_lasting ld v s).steady
  | fmaskClr ld v => exact (execFmaskClr_lasting ld v s).steady
  | curprioWrite ld target v => exact (execCurprioWrite_lasting ld target v s).steady
  | routesCommit => exact vopRow_steady s _ _ _
  | evinPinActive k active => exact (execEvinPinActive_lasting k active s).steady
  | vopRead => exact execVopRead_steady _ s
  | vopWrite => exact vopRow_steady s _ _ _
  | vopCommit => exact vopRow_steady s _ _ _
  | blockRead => exact vopRow_steady s _ _ _
  | blockWrite => exact vopRow_steady s _ _ _
  | subscribe => exact vopRow_steady s _ _ _
  | notify sid sub => exact (execNotify_lasting sid sub s).steady
  | hello => exact vopRow_steady s _ _ _
  | proof => exact vopRow_steady s _ _ _
  | close => exact vopRow_steady s _ _ _
  | sessionIdleExpiry sid => exact (execSessionIdleExpiry_lasting sid s).steady
  | sessionSetupTimeout sid => exact (execSessionSetupTimeout_lasting sid s).steady
  | unitAdminCommit => exact vopRow_steady s _ _ _
  | unitDrainDone cls unit => exact (execUnitDrainDone_lasting cls unit s).steady
  | drainLimitExpiry cls unit => exact (execDrainLimitExpiry_lasting cls unit s).steady
  | selfTestDone cls unit pass => exact (execSelfTestDone_lasting cls unit pass s).steady
  | calibrationCommit => exact vopRow_steady s _ _ _
  | recalibrate => exact vopRow_steady s _ _ _
  | recalibrateDone measured failed => exact (execRecalibrateDone_lasting measured failed s).steady
  | rehearsalCommit => exact vopRow_steady s _ _ _
  | rehearsalRunStart slot => exact (execRehearsalRunStart_lasting slot s).steady
  | rehearsalRunEnd slot => exact (execRehearsalRunEnd_lasting slot s).steady
  | stageCommit => exact vopRow_steady s _ _ _
  | activate => exact vopRow_steady s _ _ _
  | activationDone failed => exact (execActivationDone_lasting failed s).steady
  | rollbackCommit => exact vopRow_steady s _ _ _
  | uncorrectableError w => exact (execUncorrectableError_lasting w s).steady
  | correctableError w => exact (execCorrectableError_lasting w s).steady
  | channelLost upper unit => exact (execChannelLost_lasting upper unit s).steady
  | burnishRead upper unit found => exact (execBurnishRead_lasting upper unit found s).steady
  | relocationDone frame => exact (execRelocationDone_lasting frame s).steady
  | contextLostSram r => exact (execContextLostSram_lasting r s).steady
  | pieceOverrun cls unit => exact (execPieceOverrun_lasting cls unit s).steady
  | spareSwitch cls unit => exact (execSpareSwitch_lasting cls unit s).steady
  | paceUpdate paces => exact (execPaceUpdate_lasting paces s).steady
  | pwrgoodRise => exact absurd rfl (rise _)
  | pwrgoodFall => exact absurd rfl fall
  | recoveryEntry => exact (execRecoveryEntry_lasting s).steady
  | ready => exact (execReady_lasting s).steady
  | forceHoldChange active => exact (execForceHoldChange_lasting active s).steady
  | thermTripNChange active => exact (execThermTripNChange_lasting active s).steady
  | thermalClearTimer => exact (execThermalClearTimer_lasting s).steady
  | thermTripStuck => exact (execThermTripStuck_lasting s).steady
  | dieTripLimit sensor temp => exact (execDieTripLimit_lasting sensor temp s).steady
  | criticalTemperature sensor temp => exact (execCriticalTemperature_lasting sensor temp s).steady
  | criticalHoldEnd => exact (execCriticalHoldEnd_lasting s).steady
  | nodeRstNAssert => exact (execNodeRstNAssert_lasting s).steady
  | nodeRstNRelease => exact (execNodeRstNRelease_lasting s).steady
  | bankCmd => exact vopRow_steady s _ _ _
  | warmReset => exact vopRow_steady s _ _ _
  | bankedEntry => exact (execBankedEntry_lasting s).steady
  | drainBoundExpiry => exact (execDrainBoundExpiry_lasting s).steady
  | bankedExit => exact (execBankedExit_lasting s).steady
  | fabrefLoss => exact (execFabrefLoss_lasting s).steady
  | fabrefReturn => exact (execFabrefReturn_lasting s).steady
  | peRefclkLoss => exact (execPeRefclkLoss_lasting s).steady
  | governorTick temps power meas avsFailed => exact (execGovernorTick_lasting temps power meas avsFailed s).steady
  | governorLimitsCommit => exact vopRow_steady s _ _ _
  | registerWrite ld reg v => exact (execRegisterWrite_lasting ld reg v s).steady
  | connResetResend conn => exact (execConnResetResend_lasting conn s).steady
  | bucketRefill tenant res => exact (execBucketRefill_lasting tenant res s).steady
  | attentionCorePieceEnd core => exact (execAttentionCorePieceEnd_lasting core s).steady
  | cxlLinkTrainingDone => exact (execCxlLinkTrainingDone_lasting s).steady
  | msixControlWrite ld w => exact (execMsixControlWrite_lasting ld w s).steady
  | busMasterEnableWrite ld on => exact (execBusMasterEnableWrite_lasting ld on s).steady

theorem exec_keeps {c : Instr} {s t : State} (h : exec c s = .next t) : s.Keeps t := by
  by_cases rise : ∃ v, c = .pwrgoodRise v
  · obtain ⟨v, rfl⟩ := rise
    exact execPwrgoodRise_keeps h
  by_cases fall : c = .pwrgoodFall
  · subst fall
    exact execPwrgoodFall_keeps h
  · exact (exec_steady c s (not_exists.mp rise) fall t h).toKeeps

/-- An idle period moves the clock, and keeps the rest. -/
theorem State.tick_built (s : State) : s.tick.built = s.built := by
  have idle : ((s.watchSubs.integrate (s.clk.tick.ltime - s.clk.ltime).toNat).pump).lasting = s.lasting :=
    (State.pump_lasting _).trans ((State.integrate_lasting ..).trans (State.watchSubs_lasting _))
  unfold State.tick
  split
  · rfl
  dsimp only
  generalize State.pump _ = u at idle ⊢
  have running : u.winPump.drainCtl.egress.built = s.built :=
    State.built_of_lasting ((State.egress_lasting ..).trans ((State.drainCtl_lasting ..).trans ((State.winPump_lasting u).trans idle)))
  have held : u.drainCtl.built = s.built := State.built_of_lasting ((State.drainCtl_lasting u).trans idle)
  split
  · exact running
  · exact held

theorem State.tick_ltime (s : State) : s.tick.clk.ltime = if s.node.powered then s.clk.tick.ltime else s.clk.ltime := by
  unfold State.tick
  split
  next off => simp_all
  next on => simp_all

theorem step_keeps {s t : State} (h : step s = .next t) : t.variant = s.variant ∧ s.trust.rollback ≤ t.trust.rollback ∧
    ∀ i, s.trust.keyRevoked.getLsbD i = true → t.trust.keyRevoked.getLsbD i = true := by
  unfold step at h
  split at h
  · cases h
    have h := State.keeps_of_built s.tick_built
    exact ⟨h.variant, h.rollback, h.revoked⟩
  · have h := exec_keeps h
    exact ⟨h.variant, h.rollback, h.revoked⟩

/-- A period of the reference raises the local counter by 6 or 7. -/
theorem Clock.tick_rises (c : Clock) (h : c.ltime.toNat + 7 < 2 ^ 64) : c.ltime.toNat ≤ c.tick.ltime.toNat := by
  unfold Clock.tick
  dsimp only
  split <;> bv_omega

/-- Settles O54: every row keeps the commands that wait. -/
theorem meaningsLeaveTheQueue : Obligations.MeaningsLeaveTheQueue := fun _ _ _ h => (exec_keeps h).queue

/-- Settles O55: every row and every idle period keeps the variant. -/
theorem variantIsFixed : Obligations.VariantIsFixed := fun _ _ h => (step_keeps h).1

/-- Settles O56: only ROLLBACK_COMMIT touches the fuses, and it blows them. -/
theorem fusesBlowOneWay : Obligations.FusesBlowOneWay := fun _ _ h => (step_keeps h).2

/-- Settles O57: a row leaves the counter standing, an idle period raises it. -/
theorem localCounterNeverRunsBack : Obligations.LocalCounterNeverRunsBack := by
  intro s t h below rise fall
  unfold step at h
  split at h
  · cases h
    rw [State.tick_ltime]
    split
    · exact s.clk.tick_rises below
    · exact le_rfl
  next c rest queue =>
    rw [queue] at rise fall
    have steady := exec_steady c { s with pending := rest } (fun v hv => rise v (hv ▸ rfl)) (fun hc => fall (hc ▸ rfl)) t h
    exact (congrArg BitVec.toNat steady.ltime).ge

end Sys2Proof.Machine
end

section

/-! Frames under an open session: what each operation answers, and the row that carries it (R385 to R395). -/

namespace Sys2Proof.Machine
open Sys2Proof

/-- A row whose meaning is a state completes with it. -/
theorem completes {u t : State} (h : u = t) : ∃ t', (Host.Outcome.next u : Host.Outcome State Fault Refusal) = .next t' ∧ t' = t :=
  ⟨u, rfl, h⟩

/-- A frame of a row's operation and index, under its session, is answered by what `vopDo` says. -/
theorem vopRow_answers {s : State} {f : VopFrame} {x : Session} {op : Nat} {p : Nat → Bool} {a : Answer} (h : s.InSession f x)
    (ho : f.op = op) (hp : p f.index = true) (ha : (s.heardIn x f).vopDo x f = a) :
    ∃ t, (Host.Outcome.next (s.vopRow f op p) : Host.Outcome State Fault Refusal) = .next t ∧ t = answered s x f a :=
  completes (ha ▸ vopRow_session h ho hp)

theorem vopDo_read {s : State} {x : Session} {f : VopFrame} (h : f.op = opRead) : s.vopDo x f = s.vopRead x f := by
  simp [State.vopDo, h]

theorem vopDo_write {s : State} {x : Session} {f : VopFrame} (h : f.op = opWrite) : s.vopDo x f = s.vopWrite x f := by
  simp [State.vopDo, h, opWrite, opRead]

theorem vopDo_commit {s : State} {x : Session} {f : VopFrame} (h : f.op = opCommit) : s.vopDo x f = s.vopCommit x f := by
  simp [State.vopDo, h, opWrite, opRead, opCommit]

theorem vopDo_blockRead {s : State} {x : Session} {f : VopFrame} (h : f.op = opBlockRead) : s.vopDo x f = s.vopBlockRead x f := by
  simp [State.vopDo, h, opWrite, opRead, opCommit, opBlockRead]

theorem vopDo_blockWrite {s : State} {x : Session} {f : VopFrame} (h : f.op = opBlockWrite) : s.vopDo x f = s.vopBlockWrite x f := by
  simp [State.vopDo, h, opWrite, opRead, opCommit, opBlockRead, opBlockWrite]

theorem vopDo_subscribe {s : State} {x : Session} {f : VopFrame} (h : f.op = opSubscribe) : s.vopDo x f = s.vopSubscribe x f := by
  simp [State.vopDo, h, opWrite, opRead, opCommit, opBlockRead, opBlockWrite, opSubscribe]

theorem vopDo_close {s : State} {x : Session} {f : VopFrame} (h : f.op = opClose) :
    s.vopDo x f = ⟨.ok, s.endSessionsIf (·.id == x.id) fun _ => false, [], false, none⟩ := by
  simp [State.vopDo, h, opWrite, opRead, opCommit, opBlockRead, opBlockWrite, opSubscribe, opClose]

/-! ### COMMIT -/

theorem commitOne_answer {s v : State} {i j : Nat} (held : s.heldByOther i j = false) (some : s.mgmt.changes i j ≠ [])
    (h : (s.modMgmt fun m => m.unstage i j).commitIndex j (s.mgmt.changes i j) = (.ok, v)) : s.commitOne i j false = (.ok, v) := by
  unfold State.commitOne
  simp [held, some, h]

theorem vopCommit_answer {s u v : State} {f : VopFrame} {x : Session} {c : Changes} (h : s.Commits f x c u)
    (hv : u.commitIndex f.index c = (.ok, v)) : (s.heardIn x f).vopDo x f = ⟨.ok, v, [], false, none⟩ := by
  obtain ⟨op, role, payload, index, objs, held, rfl, staged, rfl⟩ := h
  have zero : beVal f.payload = 0 := by rw [payload]; rfl
  have one : f.payload.length = 1 := by rw [payload]; rfl
  have e := commitOne_answer held staged hv
  rw [vopDo_commit op]
  unfold State.vopCommit
  have objs' : (indexObjs (s.heardIn x f).variant f.index).isEmpty = false := by rw [List.isEmpty_eq_false_iff]; exact objs
  simp [objs', role, one, zero, index, e]

/-- The COMMIT rows, each with the indices that its frames name. -/
def commitRows : List ((VopFrame → Instr) × (Nat → Bool)) :=
  [(Instr.tenantAdminCommit, inRun 0x4000 0x1000), (Instr.tenantLimitsCommit, inRun 0x4000 0x1000),
    (Instr.compositionAdminCommit, inRun 0x5000 0x400), (Instr.mapCommit, inRun 0x5000 0x400),
    (Instr.apertureCommit, inRun 0x3230 16), (Instr.ldConfigCommit, inRun 0x3230 17), (Instr.routesCommit, (· == 0x3300)),
    (Instr.unitAdminCommit, inRun 0x3000 7), (Instr.calibrationCommit, inRun 0x2000 5),
    (Instr.rehearsalCommit, inRun 0x7000 17), (Instr.stageCommit, (· == 0x7100)),
    (Instr.governorLimitsCommit, fun i => i == 0x2100 || i == 0x2102 || i == 0x2002), (Instr.vopCommit, fun _ => true)]

theorem exec_commitRow {r : VopFrame → Instr} {p : Nat → Bool} (h : (r, p) ∈ commitRows) (f : VopFrame) (s : State) :
    exec (r f) s = .next (s.vopRow f opCommit p) := by
  simp only [commitRows, List.mem_cons, Prod.mk.injEq, List.not_mem_nil, or_false] at h
  rcases h with ⟨rfl, rfl⟩ | ⟨rfl, rfl⟩ | ⟨rfl, rfl⟩ | ⟨rfl, rfl⟩ | ⟨rfl, rfl⟩ | ⟨rfl, rfl⟩ | ⟨rfl, rfl⟩ | ⟨rfl, rfl⟩ | ⟨rfl, rfl⟩ |
    ⟨rfl, rfl⟩ | ⟨rfl, rfl⟩ | ⟨rfl, rfl⟩ | ⟨rfl, rfl⟩ <;> rfl

/-- Settles O31: each row of `commitRows` passes its frame to the session, which COMMITs by the index's rule. -/
theorem managementCommitsComplete : Obligations.ManagementCommitsComplete := by
  intro s f x c u v session commits answer r p row index
  rw [exec_commitRow row]
  exact vopRow_answers session commits.1 index (vopCommit_answer commits answer)

/-! ### WRITE -/

/-- The checks that a WRITE by role 0 has passed before its object's access decides. -/
theorem vopWrite_access {s : State} {f : VopFrame} {x : Session} {o : Obj} (h : s.Writes f x o) :
    (s.heardIn x f).vopDo x f =
      match o.acc with
      | .rwc =>
        if !(s.heardIn x f).writeOk f.index f.sub 0 (o.ty.fromWire f.payload) then ⟨.rangeFault, s.heardIn x f, [], false, none⟩
        else if (s.heardIn x f).heldByOther x.id f.index then ⟨.busyRetry, s.heardIn x f, [], false, none⟩
        else ⟨.ok, (s.heardIn x f).stage x.id f.index f.sub 0 o.ty (o.ty.fromWire f.payload), [], false, none⟩
      | .rw => (s.heardIn x f).unlessHeld x f ((s.heardIn x f).writeRw f.index f.sub o (leVal (o.ty.fromWire f.payload)))
      | _ => (s.heardIn x f).unlessHeld x f ((s.heardIn x f).writeWo x.route x.id x.role f.index f.sub f.payload) := by
  obtain ⟨op, role, obj, notConst, notRo, length, small, present, value⟩ := h
  have may : mayWrite x.role f.index f.sub = true := by simp [mayWrite, role]
  have obj' : objAt (s.heardIn x f).variant f.index f.sub = some o := obj
  have present' : objAbsent (s.heardIn x f).variant f.index f.sub = false := present
  rw [vopDo_write op]
  unfold State.vopWrite
  simp only [obj', present', may, notConst, notRo, length, value]
  simp [Nat.not_lt.mpr small] <;> rfl

/-- The rows of command objects, each with the objects that its frames name. -/
def commandRows (f : VopFrame) : List ((VopFrame → Instr) × (Nat → Bool)) :=
  [(Instr.quenchNow, fun i => inRun 0x5000 0x400 i && f.sub == 0xF),
    (Instr.exportKeyWrite, fun i => inRun 0x5000 0x400 i && f.sub == 0xE), (Instr.recalibrate, fun i => i == 0x2006 && f.sub == 1),
    (Instr.activate, fun i => i == 0x7100 && f.sub == 9), (Instr.rollbackCommit, fun i => i == 0x7100 && f.sub == 0xC),
    (Instr.bankCmd, fun i => i == 0x3010 && f.sub == 0x13), (Instr.warmReset, fun i => i == 0x3010 && f.sub == 0x14),
    (Instr.vopWrite, fun _ => true)]

theorem exec_commandRow {f : VopFrame} {r : VopFrame → Instr} {p : Nat → Bool} (h : (r, p) ∈ commandRows f) (s : State) :
    exec (r f) s = .next (s.vopRow f opWrite p) := by
  simp only [commandRows, List.mem_cons, Prod.mk.injEq, List.not_mem_nil, or_false] at h
  rcases h with ⟨rfl, rfl⟩ | ⟨rfl, rfl⟩ | ⟨rfl, rfl⟩ | ⟨rfl, rfl⟩ | ⟨rfl, rfl⟩ | ⟨rfl, rfl⟩ | ⟨rfl, rfl⟩ | ⟨rfl, rfl⟩ <;> rfl

theorem unlessHeld_free {s : State} {x : Session} {f : VopFrame} (r : Status × State) (h : s.heldByOther x.id f.index = false) :
    s.unlessHeld x f r = ⟨r.1, r.2, [], false, none⟩ := by
  simp [State.unlessHeld, h]

theorem vopWrite_wo {s v : State} {f : VopFrame} {x : Session} {o : Obj} (session : s.InSession f x) (h : s.Writes f x o)
    (acc : o.acc = .wo)
    (free : (s.heardIn x f).heldByOther x.id f.index = false)
    (hv : (s.heardIn x f).writeWo .mgmtPort x.id 0 f.index f.sub f.payload = (.ok, v)) :
    (s.heardIn x f).vopDo x f = ⟨.ok, v, [], false, none⟩ := by
  obtain ⟨-, -, -, -, -, -, -, -, -, route, -, -⟩ := session
  have role := h.2.1
  simp only [vopWrite_access h, acc, unlessHeld_free _ free, route, role, hv]

theorem vopWrite_rw {s : State} {f : VopFrame} {x : Session} {o : Obj} (h : s.Writes f x o) (acc : o.acc = .rw)
    (free : (s.heardIn x f).heldByOther x.id f.index = false)
    (low : ((s.heardIn x f).rwRange f.index f.sub).1 ≤ leVal (o.ty.fromWire f.payload))
    (high : leVal (o.ty.fromWire f.payload) ≤ ((s.heardIn x f).rwRange f.index f.sub).2) :
    (s.heardIn x f).vopDo x f =
      ⟨.ok, if o.flash then ((s.heardIn x f).setScalar f.index f.sub (leVal (o.ty.fromWire f.payload))).flashWrite
        else (s.heardIn x f).setScalar f.index f.sub (leVal (o.ty.fromWire f.payload)), [], false, none⟩ := by
  simp only [vopWrite_access h, acc, unlessHeld_free _ free, State.writeRw]
  rw [if_neg (by omega)]

/-! What the command objects do (R320, R403, R424, R425, R449, R453). -/

theorem writeWo_exportKey {s : State} {k : Nat} {y : Comp} (bs : List Byte) (comp : s.comp k = some y) (loan : y.loan = true)
    (small : k < 1024)
    (rt : Route) (n : Nat) : s.writeWo rt n 0 (0x5000 + k) 0xE bs =
      (.ok, s.modComp k fun c => { c with exportKey := some (BitVec.ofNat 512 (leVal bs)) }) := by
  have notStage : 0x5000 + k ≠ 0x7100 := by omega
  simp [State.writeWo, notStage, State.writeExportKey, comp, loan]

theorem writeWo_quenchNow {s : State} {k : Nat} {y : Comp} {bs : List Byte} (comp : s.comp k = some y) (loan : y.loan = true)
    (small : k < 1024)
    (one : beVal bs = 1) (rt : Route) (n : Nat) : s.writeWo rt n 0 (0x5000 + k) 0xF bs = (.ok, (s.quenchLoan y .revoked).2) := by
  have notStage : 0x5000 + k ≠ 0x7100 := by omega
  simp [State.writeWo, notStage, State.writeQuenchNow, comp, loan, one]

theorem writeWo_recalibrate {s : State} {bs : List Byte} (low : 1 ≤ beVal bs) (high : beVal bs < 16) (free : s.scalar 0x2006 2 ≠ 1)
    (rt : Route) (n : Nat) : s.writeWo rt n 0 0x2006 1 bs = (.ok,
      ({ (s.endRuns.setScalar 0x2006 2 1).setScalar 0x2006 3 0 with
        node := { ((s.endRuns.setScalar 0x2006 2 1).setScalar 0x2006 3 0).node with recal := BitVec.ofNat 8 (beVal bs) } } : State).setCause
          causeRecalibrate true) := by
  have inRange : ¬(beVal bs = 0 ∨ 16 ≤ beVal bs) := by omega
  simp only [State.writeWo, State.recalibrate, inRange, free]
  rfl

theorem writeWo_activate {s : State} {bs : List Byte} (idle : s.activating = false) (still : s.recalibrating = false)
    (cold : s.node.warmRunning = false) (staged : s.scalar 0x7100 stageState = 2) (one : beVal bs = 1) (rt : Route) (n : Nat) :
    s.writeWo rt n 0 0x7100 9 bs = (.ok, (s.setScalar 0x7100 activateState 1).setCause causeActivation true) := by
  simp [State.writeWo, State.activate, idle, still, cold, staged, one]

theorem writeWo_rollback {s : State} {bs : List Byte} (idle : s.activating = false) (one : beVal bs = 1) (rt : Route) (n : Nat) :
    s.writeWo rt n 0 0x7100 0xC bs = (.ok, if (s.slot s.trust.runningB).svn ≤ s.trust.rollback then s else
      { s with trust := { s.trust with
        rollback := (s.slot s.trust.runningB).svn
        keyRevoked := s.trust.keyRevoked ||| BitVec.ofNat 4 (2 ^ (s.slot s.trust.runningB).keyslot - 1) } }) := by
  simp only [State.writeWo, State.rollbackCommit, idle, one]
  simp only [Nat.reduceLeDiff, Nat.reduceEqDiff, Bool.false_eq_true, ne_eq, not_true_eq_false, if_true, if_false]
  split <;> rfl

theorem writeWo_bankCmd (s : State) (bs : List Byte) (rt : Route) (n : Nat) : s.writeWo rt n 0 0x3010 0x13 bs = s.bankCmd (beVal bs) := rfl

theorem writeWo_warmReset (s : State) (bs : List Byte) (rt : Route) (n : Nat) : s.writeWo rt n 0 0x3010 0x14 bs = s.warmReset (beVal bs)
    := rfl

/-- Settles O33: a WRITE that passes its checks is answered by its object's access; each command object by its own row of the spec. -/
theorem managementWritesComplete : Obligations.ManagementWritesComplete := by
  refine ⟨?_, ?_, ?_, ?_, ?_, ?_, ?_, ?_, ?_⟩
  · intro s f x o v session writes acc free answer r p row index
    rw [exec_commandRow row]
    exact vopRow_answers session writes.1 index (vopWrite_wo session writes acc free answer)
  · intro s f x o session writes acc ok free
    refine vopRow_answers session writes.1 rfl ?_
    simp [vopWrite_access writes, acc, ok, free]
  · intro s f x o session writes acc bad
    refine vopRow_answers session writes.1 rfl ?_
    simp [vopWrite_access writes, acc, bad]
  · intro s f x o u session writes acc hu free low high
    subst hu
    exact vopRow_answers session writes.1 rfl (vopWrite_rw writes acc free low high)
  · intro s k y bs comp loan small
    exact ⟨writeWo_exportKey bs comp loan small, writeWo_quenchNow comp loan small⟩
  · intro s bs u low high free hu
    subst hu
    exact writeWo_recalibrate low high free
  · intro s bs idle still cold staged one
    exact writeWo_activate idle still cold staged one
  · intro s bs x idle one hx
    subst hx
    exact writeWo_rollback idle one
  · intro s bs rt n
    simp only [writeWo_bankCmd, writeWo_warmReset, State.bankCmd, State.warmReset]
    refine ⟨fun h => by simp [h], fun h => by simp [h], fun h idle => by simp [h, idle]⟩

end Sys2Proof.Machine
end

section

/-! Reads, block transfers, subscriptions and the life of a session (R378, R386, R388, R394, R395), and their limits (R388, R390). -/

namespace Sys2Proof.Machine
open Sys2Proof

theorem exec_vopRead {s : State} {f : VopFrame} (op : f.op = opRead) :
    exec (.vopRead f) s = .next (s.vopRow f opRead fun _ => true) := by
  have listed : vopOps.contains f.op = true := by rw [op]; rfl
  exact congrArg Host.Outcome.next (if_pos listed)

theorem vopRead_answer {s : State} {x : Session} {f : VopFrame} {o : Obj} (op : f.op = opRead)
    (obj : objAt s.variant f.index f.sub = some o)
    (may : s.mayRead x.role f.index = true) (small : o.ty.bytes ≤ vopMax) :
    (s.heardIn x f).vopDo x f = ⟨.ok, s.heardIn x f, (s.heardIn x f).valueFor x f.index f.sub o, false, none⟩ := by
  have obj' : objAt (s.heardIn x f).variant f.index f.sub = some o := obj
  have may' : (s.heardIn x f).mayRead x.role f.index = true := may
  rw [vopDo_read op]
  unfold State.vopRead
  simp [obj', may', Nat.not_lt.mpr small]

theorem vopBlockRead_answer {s : State} {x : Session} {f : VopFrame} {o : Obj} (op : f.op = opBlockRead)
    (obj : objAt s.variant f.index f.sub = some o) (may : s.mayRead x.role f.index = true) (octets : o.ty.isOctets = true)
    (two : f.payload.length = 2) (low : 0 < beVal f.payload) (high : beVal f.payload ≤ vopMax)
    (inside : f.offset + beVal f.payload ≤ o.ty.bytes) :
    (s.heardIn x f).vopDo x f =
      ⟨.ok, (s.heardIn x f).modSession x.id fun y =>
          { y with snaps := keepSnaps y f (f.offset + beVal f.payload == o.ty.bytes) ((s.heardIn x f).snapshot x f o) },
        slice ((s.heardIn x f).snapshot x f o) f.offset (beVal f.payload), f.offset + beVal f.payload == o.ty.bytes, none⟩ := by
  have obj' : objAt (s.heardIn x f).variant f.index f.sub = some o := obj
  have may' : (s.heardIn x f).mayRead x.role f.index = true := may
  rw [vopDo_blockRead op]
  unfold State.vopBlockRead
  simp [obj', may', octets, two, Nat.pos_iff_ne_zero.mp low, Nat.not_lt.mpr high, Nat.not_lt.mpr inside]

theorem vopBlockWrite_answer {s : State} {x : Session} {f : VopFrame} {o : Obj} (op : f.op = opBlockWrite) (role : x.role = 0)
    (obj : objAt s.variant f.index f.sub = some o) (octets : o.ty.isOctets = true) (acc : o.acc = .rwc)
    (inside : f.offset + f.payload.length ≤ o.ty.bytes) (present : objAbsent s.variant f.index f.sub = false)
    (ok : (s.heardIn x f).writeOk f.index f.sub f.offset f.payload = true) (free : (s.heardIn x f).heldByOther x.id f.index = false) :
    (s.heardIn x f).vopDo x f = ⟨.ok, (s.heardIn x f).stage x.id f.index f.sub f.offset o.ty f.payload, [], false, none⟩ := by
  have obj' : objAt (s.heardIn x f).variant f.index f.sub = some o := obj
  have present' : objAbsent (s.heardIn x f).variant f.index f.sub = false := present
  rw [vopDo_blockWrite op]
  unfold State.vopBlockWrite
  simp [obj', mayWrite, role, octets, acc, Nat.not_lt.mpr inside, present', ok, free]

/-- A subscription that is ended: KIND 1. -/
theorem vopSubscribe_end {s : State} {x : Session} {f : VopFrame} {o : Obj} (op : f.op = opSubscribe)
    (obj : objAt s.variant f.index f.sub = some o) (may : s.mayRead x.role f.index = true) (nine : f.payload.length = 9)
    (kind : beVal (f.payload.take 1) = 1) :
    (s.heardIn x f).vopDo x f =
      ⟨.ok, (s.heardIn x f).modSession x.id fun y =>
        { y with subs := dropWhere (fun u => u.index == f.index && u.sub == f.sub) y.subs }, [], false, none⟩ := by
  have obj' : objAt (s.heardIn x f).variant f.index f.sub = some o := obj
  have may' : (s.heardIn x f).mayRead x.role f.index = true := may
  rw [vopDo_subscribe op]
  unfold State.vopSubscribe
  simp [obj', may', nine, kind]

/-- A subscription that begins: KIND 0, an interval in range, and fewer than the limit. -/
theorem vopSubscribe_begin {s : State} {x : Session} {f : VopFrame} {o : Obj} (op : f.op = opSubscribe)
    (obj : objAt s.variant f.index f.sub = some o) (may : s.mayRead x.role f.index = true) (nine : f.payload.length = 9)
    (kind : beVal (f.payload.take 1) = 0) (low : 10000000 ≤ beVal (f.payload.drop 1)) (high : beVal (f.payload.drop 1) ≤ 3600000000000)
    (room : (dropWhere (fun u : Subscription => u.index == f.index && u.sub == f.sub) x.subs).length < subMax) :
    (s.heardIn x f).vopDo x f =
      ⟨.ok, (s.heardIn x f).modSession x.id fun y =>
        { y with subs := dropWhere (fun u => u.index == f.index && u.sub == f.sub) y.subs ++
            [{ index := f.index, sub := f.sub, interval := beVal (f.payload.drop 1), seen := (s.heardIn x f).valueFor x f.index f.sub o,
               last := (s.heardIn x f).valueFor x f.index f.sub o, changed := (s.heardIn x f).now }] }, [], false, none⟩ := by
  have obj' : objAt (s.heardIn x f).variant f.index f.sub = some o := obj
  have may' : (s.heardIn x f).mayRead x.role f.index = true := may
  rw [vopDo_subscribe op]
  unfold State.vopSubscribe
  rw [List.drop_one] at low high
  simp [obj', may', nine, kind, low, high, Nat.not_le.mpr room]

/-! ### HELLO and PROOF -/

/-- A reply on the management port, which sends nothing while FABREF is lost. -/
theorem vopArrive_mgmtPort {s u : State} {f : VopFrame} {r : List Byte} (powered : s.node.powered = true) (route : f.route = .mgmtPort)
    (h : s.vop f = (some r, u)) :
    s.vopArrive f = if u.clk.fabref then u.emit (.vop .mgmtPort (s.mgmtFrame f.mac r)) else u := by
  unfold State.vopArrive
  simp [powered, route, h]

theorem vop_open {s : State} {f : VopFrame} (route : f.route = .mgmtPort) (on : s.routeOn .mgmtPort = true) (ver : f.ver = 1)
    (op : f.op ∈ vopOps) (len : f.len ≤ vopMax) (flags : bit f.flags 7 = false) (session : f.session = 0) :
    s.vop f = (some (s.vopOpen f).1, (s.vopOpen f).2) := by
  unfold State.vop
  simp [route, on, ver, op, Nat.not_lt.mpr len, flags, session]

theorem vop_proof {s : State} {f : VopFrame} {y : Setup} (route : f.route = .mgmtPort) (on : s.routeOn .mgmtPort = true) (ver : f.ver = 1)
    (op : f.op = opProof) (len : f.len ≤ vopMax) (flags : bit f.flags 7 = false) (session : f.session ≠ 0)
    (noSession : s.mgmt.sessions.find? (·.id == f.session) = none) (setup : s.mgmt.setups.find? (·.id == f.session) = some y) :
    s.vop f = s.vopProof y f := by
  unfold State.vop
  have listed : f.op ∈ vopOps := by rw [op]; decide
  simp [route, on, ver, listed, Nat.not_lt.mpr len, flags, session, noSession, setup]

theorem vopOpen_hello {s : State} {f : VopFrame} (op : f.op = opHello) (recovery : s.node.recovery = false) : s.vopOpen f = s.vopHello f
    := by
  simp [State.vopOpen, op, recovery]

/-- HELLO of a role that its route takes, with room for a set-up: the set-up is the last. -/
theorem vopHello_setup {s : State} {f : VopFrame} (length : f.payload.length = 133) (role : beVal (f.payload.take 2) < 4096)
    (takes : s.roleRoute (beVal (f.payload.take 2)) f.route = true) (room : s.mgmt.setups.length < setupMax) :
    ∃ w, (s.vopHello f).2.mgmt.setups = s.mgmt.setups ++ [w] ∧ w.id = s.freshSession ∧ w.role = beVal (f.payload.take 2) ∧
      w.route = f.route ∧ w.hello = f.payload := by
  have passed : firstFail [(f.payload.length != 133 || decide (4096 ≤ beVal (f.payload.take 2)), Status.rangeFault),
      (!s.roleRoute (beVal (f.payload.take 2)) f.route, .keyFault), (decide (setupMax ≤ s.mgmt.setups.length), .busyRetry)] = none := by
    simp [firstFail, length, Nat.not_le.mpr role, takes, Nat.not_le.mpr room]
  unfold State.vopHello
  simp only [passed, State.drawBits, State.modMgmt, drawBytes_mgmt]
  exact ⟨_, rfl, rfl, rfl, rfl, rfl⟩

/-- A PROOF with a good tag and room for a session is answered: by the session it opens, or by KEY_FAULT. -/
theorem vopProof_answers {s : State} {y : Setup} {f : VopFrame} (route : f.route = y.route) (op : f.op = opProof)
    (tag : vopTag y.key true (vopCovered f) = f.tag) (room : s.mgmt.sessions.length < sessionMax) :
    ∃ r : List Byte × State, s.vopProof y f = (some r.1, r.2) ∧ (s.proofOk y f.payload = true → r = s.openSession y f) := by
  unfold State.vopProof
  rw [if_neg (by simp [route, op]), if_neg (by simp [tag]), if_neg (by omega)]
  split
  · exact ⟨s.openSession y f, rfl, fun _ => rfl⟩
  next bad =>
    split
    · exact ⟨(((s.setOctets 0x1101 1 0 (slice f.payload 1 97)).flashWrite).openSession y f), rfl, fun h => absurd h bad⟩
    · exact ⟨(_, _), rfl, fun h => absurd h bad⟩

/-- Settles O34: an operation of an open session is answered by `vopDo`; HELLO and PROOF reach their set-up. -/
theorem sessionRowsComplete : Obligations.SessionRowsComplete := by
  refine ⟨?_, ?_, ?_, ?_, ?_, ?_, ?_, ?_, ?_, ?_⟩
  · intro s f x o session op obj may small
    rw [exec_vopRead op]
    exact vopRow_answers session op rfl (vopRead_answer op obj may small)
  · intro s f x o n u all session op obj may octets two hn low high inside hall hu
    subst hn hall hu
    exact vopRow_answers session op rfl (vopBlockRead_answer op obj may octets two low high inside)
  · intro s f x o session op role obj octets acc inside present ok free
    exact vopRow_answers session op rfl (vopBlockWrite_answer op role obj octets acc inside present ok free)
  · intro s f x o k mine session op obj may nine hk hmine
    subst hk hmine
    refine ⟨fun kind => vopRow_answers session op rfl (vopSubscribe_end op obj may nine kind), ?_⟩
    intro w kind low high room hw
    subst hw
    exact vopRow_answers session op rfl (vopSubscribe_begin op obj may nine kind low high room)
  · intro s f x session op
    exact vopRow_answers session op rfl (vopDo_close op)
  · intro s f r powered recovery route on ver op len flags noSession length role takes room hr
    subst hr
    have listed : f.op ∈ vopOps := by rw [op]; decide
    have reply := vop_open route on ver listed len flags noSession
    rw [vopOpen_hello op recovery] at reply
    refine ⟨completes ?_, route ▸ vopHello_setup length role (route ▸ takes) room⟩
    unfold State.vopRow
    rw [if_pos ⟨op, rfl⟩, vopArrive_mgmtPort powered route reply]
  · intro s f y powered route routeY on ver op len flags session noSession setup tag room
    obtain ⟨r, answer, good⟩ := vopProof_answers (route.trans routeY.symm) op tag room
    have reply := (vop_proof route on ver op len flags session noSession setup).trans answer
    refine ⟨_, r, rfl, ?_, answer, good⟩
    unfold State.vopRow
    rw [if_pos ⟨op, rfl⟩, vopArrive_mgmtPort powered route reply]
  · intro s n powered
    exact completes (if_pos powered)
  · intro s n powered waits
    exact completes (if_pos ⟨powered, waits⟩)
  · intro s n k x y o powered session sub obj may
    refine completes ?_
    simp [powered, session, sub, obj, may]

/-- Settles O52: the limit is checked after the form and the role of a HELLO, and after the tag of a PROOF. -/
theorem sessionLimits : Obligations.SessionLimits := by
  refine ⟨?_, ?_, ?_⟩
  · intro s f length role takes full
    have stopped : firstFail [(f.payload.length != 133 || decide (4096 ≤ beVal (f.payload.take 2)), Status.rangeFault),
        (!s.roleRoute (beVal (f.payload.take 2)) f.route, .keyFault), (decide (setupMax ≤ s.mgmt.setups.length), .busyRetry)] =
        some .busyRetry := by
      simp [firstFail, length, Nat.not_le.mpr role, takes, setupMax, full]
    unfold State.vopHello
    simp only [stopped]
  · intro s u f route op tag full
    unfold State.vopProof
    rw [if_neg (by simp [route, op]), if_neg (by simp [tag]), if_pos (show sessionMax ≤ _ from full)]
  · intro s x f route
    unfold State.vopSession
    rw [if_pos route]

/-- Settles O60: a READ under a session changes nothing by itself; its answer changes what management holds. -/
theorem managementReadFrame : Obligations.ManagementReadFrame := by
  intro s f x session op
  rw [exec_vopRead op, vopRow_session session op rfl]
  refine ⟨_, rfl, answered_mgmtOnly x f _ ?_⟩
  rw [vopDo_read op]
  unfold State.vopRead
  (repeat' split) <;> rfl

end Sys2Proof.Machine
end

section

/-! What the COMMIT of an index does when its rule's checks hold, and that it does nothing when they fail (R313, R317, R322, R324, R337,
R365, R397, R404, R423, R464). -/

namespace Sys2Proof.Machine
open Sys2Proof

/-! ### The rule of each index -/

theorem commitIndex_tenant {s : State} {n : Nat} (c : Changes) (h : n < 4096) : s.commitIndex (0x4000 + n) c = s.commitTenant n c := by
  unfold State.commitIndex
  rw [if_pos (by omega), Nat.add_sub_cancel_left]

theorem commitIndex_comp {s : State} {k : Nat} (c : Changes) (h : k < 1024) : s.commitIndex (0x5000 + k) c = s.commitComp k c := by
  unfold State.commitIndex
  rw [if_neg (by omega), if_pos (by omega), Nat.add_sub_cancel_left]

theorem commitIndex_ld {s : State} {ld : Nat} (c : Changes) (h : ld < 16) : s.commitIndex (0x3230 + ld) c = s.commitLd ld c := by
  unfold State.commitIndex
  iterate 6 rw [if_neg (by omega)]
  rw [if_pos (by omega), Nat.add_sub_cancel_left]

theorem commitIndex_admin {s : State} {k : Nat} {u : UnitClass × Nat × Bool} (c : Changes) (hu : unitClassAt k = some u) (h : k < 11) :
    s.commitIndex (0x3000 + k) c = s.commitAdmin u.1 c := by
  unfold State.commitIndex
  iterate 4 rw [if_neg (by omega)]
  rw [if_pos (by omega), Nat.add_sub_cancel_left, hu]

/-! ### The checks hold -/

theorem commitTenant_activates {s : State} {n : Nat} {c : Changes} (free : s.tenant n = none)
    (checks : firstFail (s.tenantChecks n c) = none)
    (admin : c.has 2 = true) (one : s.would c (0x4000 + n) 2 = 1) (running : s.isBanked = false) :
    s.commitTenant n c = match s.activateTenant n c with | some v => (.ok, v) | none => (.capacity, s) := by
  simp [State.commitTenant, free, checks, admin, one, running] <;> rfl

theorem commitTenant_active {s : State} {n : Nat} {c : Changes} {y : Tenant} (tenant : s.tenant n = some y) (active : y.state = .active)
    (checks : firstFail (s.tenantChecks n c) = none) (stays : c.has 2 = true → s.would c (0x4000 + n) 2 ≠ 0 ∨ n ≠ 0) :
    s.commitTenant n c = (.ok, if c.has 2 ∧ s.would c (0x4000 + n) 2 = 0 then (s.applyTenant n c).freeTenant n else s.applyTenant n c) := by
  simp only [State.commitTenant, tenant, active, checks]
  by_cases released : c.has 2 = true ∧ s.would c (0x4000 + n) 2 = 0
  · have notRoot : n ≠ 0 := (stays released.1).resolve_left (not_not.mpr released.2)
    simp [released, notRoot]
  · simp [released]

theorem commitFree_activates {s : State} {k : Nat} {c : Changes} (checks : firstFail (s.compChecks k c true) = none)
    (admin : c.has 4 = true)
    (one : s.would c (0x5000 + k) 4 = 1) (room : s.would c (0x5000 + k) 3 = 1 → s.noRegion (s.would c (0x5000 + k) 2) = false)
    (map : s.mapDecides k c = none) :
    s.commitFree k c = (.ok, if c.has 6 then (s.activateComp k (noMap c)).takeMap k (s.stagedMap (0x5000 + k) c)
      else s.activateComp k (noMap c)) := by
  have roomOk : firstFail [(c.has 6 && !true, Status.rangeFault),
      (true && s.would c (0x5000 + k) 3 == 1 && s.noRegion (s.would c (0x5000 + k) 2), .capacity)] = none := by
    by_cases loan : s.would c (0x5000 + k) 3 = 1
    · simp [firstFail, room loan]
    · simp [firstFail, loan]
  simp only [State.commitFree, admin, one, BEq.rfl, Bool.and_self, (firstFail_append_none ..).mpr ⟨checks, roomOk⟩, map, if_true]

theorem commitHeld_serving {s : State} {y : Comp} {c : Changes} (active : y.state = .active) (serving : y.loan = false)
    (fixed : s.compFixed y c = true) (checks : firstFail (s.compChecks y.slot c false) = none) (map : s.mapDecides y.slot c = none) :
    s.commitHeld y c =
      let u := if c.has 6 then (s.applyChanges (0x5000 + y.slot) (noMap c)).takeMap y.slot (s.stagedMap (0x5000 + y.slot) c)
        else s.applyChanges (0x5000 + y.slot) (noMap c)
      (.ok, if c.has 4 && s.would c (0x5000 + y.slot) 4 == 0 then u.releaseComp y else u) := by
  have passed : firstFail ([(!s.compFixed y c, Status.rangeFault)] ++ s.compChecks y.slot c false) = none :=
    (firstFail_append_none ..).mpr ⟨by simp [fixed], checks⟩
  simp only [State.commitHeld, active, passed, map, serving]
  simp
  split <;> rfl

theorem commitLd_ok {s : State} {ld : Nat} {c : Changes} (targets : (s.would c (0x3230 + ld) 1 &&& s.otherTargets ld) = 0)
    (apertures : ∀ a ∈ aperturesIn (s.wouldBytes c (0x3230 + ld) 2 0 2048), s.apertureOk ld a = true)
    (apart : noClash Aperture.clash (aperturesIn (s.wouldBytes c (0x3230 + ld) 2 0 2048)) = true) :
    s.commitLd ld c = (.ok, if c.has 1 then (s.applyChanges (0x3230 + ld) c).rerouteWaiting (fun _ => true)
      else s.applyChanges (0x3230 + ld) c) := by
  have all : (aperturesIn (s.wouldBytes c (0x3230 + ld) 2 0 2048)).all (s.apertureOk ld) = true := List.all_eq_true.mpr apertures
  simp [State.commitLd, State.commitChecked, firstFail, targets, all, apart]

theorem commitAdmin_ok {s : State} {k : UnitClass} {c : Changes} (running : s.isBanked = false) (bytes : s.adminBytes c k = none)
    (leaves : s.leavesNone c k = false) :
    s.commitAdmin k c = (.ok, ((List.range (s.variant.count k)).filter fun i => s.wouldOut c k i != s.adminOut k i).foldl
      (fun s i => s.adminChanged k i) (s.applyChanges (0x3000 + k.index) c)) := by
  simp [State.commitAdmin, running, bytes, leaves]

theorem commitIndex_limits {s : State} {i : Nat} {c : Changes} (index : i ∈ [0x2100, 0x2102]) (ok : s.limitsOk i c = true) :
    s.commitIndex i c = (.ok, s.applyChanges i c) := by
  have rule : s.commitIndex i c = s.commitLimits i c := by
    simp only [List.mem_cons, List.not_mem_nil, or_false] at index
    rcases index with rfl | rfl <;> rfl
  rw [rule]
  simp [State.commitLimits, State.commitChecked, firstFail, ok]

/-- Settles O32: the rule of each index, when its checks hold. -/
theorem commitEffects : Obligations.CommitEffects := by
  refine ⟨?_, ?_, ?_, ?_, ?_, ?_, ?_, ?_, ?_⟩
  · intro s n c free small checks admin one running
    rw [commitIndex_tenant c small, commitTenant_activates free checks admin one running]
    exact ⟨fun v h => by rw [h], fun h => by rw [h]⟩
  · intro s n c y tenant small active checks stays
    rw [commitIndex_tenant c small, commitTenant_active tenant active checks stays]
  · intro s k c free small checks admin one room map
    rw [commitIndex_comp c small]
    unfold State.commitComp
    rw [free]
    exact commitFree_activates checks admin one room map
  · intro s k c y u comp slot small active serving fixed checks map hu
    subst slot hu
    rw [commitIndex_comp c small]
    unfold State.commitComp
    rw [comp]
    exact commitHeld_serving active serving fixed checks map
  · intro s ld c small targets apertures apart
    rw [commitIndex_ld c small, commitLd_ok targets apertures apart]
  · intro s k u c hu small running bytes leaves
    rw [commitIndex_admin c hu small, commitAdmin_ok running bytes leaves]
  · intro s i c index ok
    exact commitIndex_limits index ok
  · intro s c u hu
    subst hu
    rfl
  · intro s c u bs idle hbs hu
    subst hbs hu
    have rule : s.commitIndex 0x7100 c = s.commitStage c := rfl
    rw [rule]
    unfold State.commitStage
    rw [if_neg (by simp [idle])]
    rfl

/-! ### The checks fail -/

theorem commitTenant_bad {s v : State} {n : Nat} {c : Changes} {st : Status} (h : s.commitTenant n c = (st, v)) (bad : st ≠ .ok) : v = s
    := by
  unfold State.commitTenant at h
  grind

theorem commitFree_bad {s v : State} {k : Nat} {c : Changes} {st : Status} (h : s.commitFree k c = (st, v)) (bad : st ≠ .ok) : v = s := by
  unfold State.commitFree at h
  grind

theorem commitHeld_bad {s v : State} {y : Comp} {c : Changes} {st : Status} (h : s.commitHeld y c = (st, v)) (bad : st ≠ .ok) : v = s := by
  unfold State.commitHeld at h
  grind

theorem commitComp_bad {s v : State} {k : Nat} {c : Changes} {st : Status} (h : s.commitComp k c = (st, v)) (bad : st ≠ .ok) : v = s := by
  unfold State.commitComp at h
  split at h
  · exact commitHeld_bad h bad
  · exact commitFree_bad h bad

theorem commitAdmin_bad {s v : State} {k : UnitClass} {c : Changes} {st : Status} (h : s.commitAdmin k c = (st, v)) (bad : st ≠ .ok) :
    v = s := by
  unfold State.commitAdmin at h
  grind

theorem commitPort_bad {s v : State} {i : Nat} {c : Changes} {st : Status} (h : s.commitPort i c = (st, v)) (bad : st ≠ .ok) : v = s := by
  unfold State.commitPort at h
  grind

theorem commitComm_bad {s v : State} {c : Changes} {st : Status} (h : s.commitComm c = (st, v)) (bad : st ≠ .ok) : v = s := by
  unfold State.commitComm at h
  grind

theorem commitKeys_bad {s v : State} {c : Changes} {st : Status} (h : s.commitKeys c = (st, v)) (bad : st ≠ .ok) : v = s := by
  unfold State.commitKeys at h
  grind

theorem commitTransport_bad {s v : State} {c : Changes} {st : Status} (h : s.commitTransport c = (st, v)) (bad : st ≠ .ok) : v = s := by
  unfold State.commitTransport at h
  grind

theorem commitRoutes_bad {s v : State} {c : Changes} {st : Status} (h : s.commitRoutes c = (st, v)) (bad : st ≠ .ok) : v = s := by
  unfold State.commitRoutes at h
  grind

/-- Settles O51: the checks of each index come before it touches the state; only the image of STAGE is written and then checked. -/
theorem failedCommitChangesNothing : Obligations.FailedCommitChangesNothing := by
  intro s i c st v h bad notStage
  unfold State.commitIndex at h
  repeat' split at h
  · exact commitTenant_bad h bad
  · exact commitComp_bad h bad
  · exact commitChecked_bad h bad
  · unfold State.commitCalibration at h
    exact commitChecked_bad h bad
  · exact commitAdmin_bad h bad
  · exact absurd (Prod.mk.inj h).1.symm bad
  · exact commitPort_bad h bad
  · exact commitChecked_bad h bad
  · exact commitComm_bad h bad
  · exact commitKeys_bad h bad
  · exact commitChecked_bad h bad
  · exact commitChecked_bad h bad
  · exact commitTransport_bad h bad
  · exact commitChecked_bad h bad
  · exact commitRoutes_bad h bad
  · exact commitChecked_bad h bad
  · exact absurd rfl notStage
  · exact absurd (Prod.mk.inj h).1.symm bad

/-! ### A COMMIT of a staged byte beyond its object -/

theorem mgmtOnly_octs {s t : State} (h : mgmtOnly s t) : t.octs = s.octs := by
  rw [h]

/-- An answer that is sent leaves the stored bytes of the state that it came with. -/
theorem answered_octs (s : State) (x : Session) (f : VopFrame) (a : Answer) : (answered s x f a).octs = a.state.octs := by
  have ended : ∀ (u : State) p q, (u.endSessionsIf p q).octs = u.octs := fun u p q => mgmtOnly_octs (endSessionsIf_mgmtOnly u p q)
  have after : ∀ (u : State) st, (u.afterReply f st).octs = u.octs := by
    intro u st
    unfold State.afterReply
    dsimp only
    rw [ended]
    split
    · exact ended ..
    · rfl
  unfold answered
  dsimp only
  split
  · exact after ..
  · exact after ..

end Sys2Proof.Machine

namespace Sys2Proof.StagedLaws
open Sys2Proof Sys2Proof.Machine

/-- Offset from the first byte of 0x1010.1 to the second of TENANT_LD, 0x3240.3, in the byte store. -/
def reach : Nat := (objKey 0x3240 3 - objKey 0x1010 1) * octSpan + 1

/-- An open session of role 0 on the management port. -/
def manager : Session := { id := 1, role := 0, route := .mgmtPort, key := [] }

/-- Its COMMIT of 0x1010, with a good tag. -/
def commit : VopFrame :=
  let f : VopFrame := { op := opCommit, session := 1, seq := 1, index := 0x1010, len := 1, payload := [0] }
  { f with tag := vopTag [] true (vopCovered f) }

/-- A node that no reset reaches: the session has staged one byte of 0x1010.1, beyond the object's end. -/
def overstaged : State :=
  { State.reset with
    mgmt :=
      { State.reset.mgmt with sessions := [manager], staged := [{ session := 1, index := 0x1010, sub := 1, val := [(reach, 0xFF)] }] } }

theorem overstaged_inSession : overstaged.InSession commit manager := by
  refine ⟨?_, rfl, ?_, rfl, ?_, ?_, ?_, ?_, rfl, rfl, rfl, ?_⟩ <;> decide +kernel

/-- The state with nothing staged, in which the COMMIT is carried out. -/
def unstaged : State := (overstaged.heardIn manager commit).modMgmt fun m => m.unstage manager.id commit.index

theorem overstaged_commits : overstaged.Commits commit manager [(1, [(reach, 0xFF)])] unstaged := by
  refine ⟨rfl, rfl, rfl, ?_, ?_, ?_, ?_, ?_, rfl⟩ <;> decide +kernel

theorem overstaged_canonical : overstaged.Canonical := by
  refine ⟨?_, ?_, ?_⟩ <;> decide +kernel

/-- The byte is stored under the key of a byte of TENANT_LD, whose default it is. -/
theorem unstaged_applies : (unstaged.applyChanges 0x1010 [(1, [(reach, 0xFF)])]).octs = [(octKey 0x3240 3 1, 0xFF)] := by
  decide +kernel

/-- Refutes O58: the store's canonical form takes a byte's default from its key, and a COMMIT takes it from the object that the byte was
staged for. A byte staged beyond its object, which no WRITE or BLOCK_WRITE stages but the state can hold, is stored at its key's default. -/
theorem not_storesStayCanonical : ¬ Obligations.StoresStayCanonical := by
  intro keeps
  obtain ⟨t, ht, e⟩ := vopRow_answers (p := fun _ => true) overstaged_inSession rfl rfl (vopCommit_answer overstaged_commits rfl)
  obtain ⟨-, octets, -⟩ := keeps { overstaged with pending := [.vopCommit commit] } t overstaged_canonical ht
  rw [e, answered_octs] at octets
  exact absurd (unstaged_applies ▸ octets) (by decide +kernel)

end Sys2Proof.StagedLaws
end

section

/-! The rows of sequences (chapter 3): each check of a row is passed by one lemma, and what is left is the state that it answers. -/

namespace Sys2Proof.Machine
open Sys2Proof

/-- An ACTIVE sequence lets every request in (R68). -/
theorem letIn_active {s : State} {q : Req} {x : Seq} (h : x.state = .active) (wait : Bool) : s.letIn q x wait = none := by
  simp [State.letIn, h]

theorem ceilDiv_le {k m n : Nat} (h : 0 < m) : ceilDiv k m ≤ n ↔ k ≤ m * n := by
  unfold ceilDiv
  rw [Nat.div_le_iff_le_mul_add_pred h]
  omega

/-- An APPEND that has its frames writes (R73): those it had taken, or those it takes now. -/
theorem appendRun_ready {s v s3 : State} {q : Req} {x : Seq} {g : Geom} {l : List ((Nat × Nat) × Nat)} {bs : List Byte}
    (ready : s.AppendReady q x g v l)
    (written : ((v.modReq q.id fun q => { q with newFrames := [] }).installFrames (appendOf q x g) l).bind
      (·.appendLayers (appendOf q x g) bs (appendOf q x g).layers) = some s3) :
    s.appendRun q (appendOf q x g) bs =
      (s3.modSeq x.idx fun y => { y with
        fills := setFills (appendOf q x g).layers (x.fill (apLfirst q.entry) + apTokens q.entry) y.fills,
        lastAtt := v.clk.ltime }).okReq q (x.fill (apLfirst q.entry) + apTokens q.entry) := by
  have write : v.appendWrite q (appendOf q x g) l bs = (s3.modSeq x.idx fun y => { y with
        fills := setFills (appendOf q x g).layers (x.fill (apLfirst q.entry) + apTokens q.entry) y.fills,
        lastAtt := v.clk.ltime }).okReq q (x.fill (apLfirst q.entry) + apTokens q.entry) := by
    unfold State.appendWrite
    rw [written]
  unfold State.appendRun
  obtain ⟨taken, idle, rfl, rfl⟩ | ⟨none, s1, s2, tables, frames, copies, slots, hv, idle⟩ := ready
  · simpa [taken, idle] using write
  · simp only [none, List.isEmpty_nil, Bool.not_true, Bool.false_eq_true, if_false, tables, frames, copies, slots]
    unfold State.appendCopies
    subst hv
    simpa [idle] using write

/-- Settles O3: each check is passed in the row's order. Noting the parent's length, a FORK touches requests alone. -/
theorem sequenceDataComplete : Obligations.SequenceDataComplete := by
  refine ⟨?_, ?_, ?_, ?_⟩
  · intro s r q p n u s' h s'' edits names active hn hu turn pages short here range share tables take enter
    have pages' : u.pagesFail p (firstPages p.fills.length (ceilDiv (fld q.entry 207 176) 256)) = none := by rw [hu]; exact pages
    have here' : u.swappedNeeded p (firstPages p.fills.length (ceilDiv (fld q.entry 207 176) 256)) = false := by rw [hu]; exact here
    have range' : u.rangeBad q.tenant (opAddrHigh q.entry) (s.seqRange p) = false := by rw [hu]; exact range
    have share' : u.shareFull p [] (firstPages p.fills.length (ceilDiv (fld q.entry 207 176) 256)) = false := by rw [hu]; exact share
    have tables' : u.tablesLost q.tenant (opAddrHigh q.entry) (s.seqRange p) = false := by rw [hu]; exact tables
    have bytes : u.seqFrameBytes p = s.seqFrameBytes p := by rw [hu]; rfl
    have length : u.seqRange p = s.seqRange p := by rw [hu]; rfl
    refine completes ?_
    rw [State.runEdit_edits edits, State.onSeq_names names]
    dsimp only
    rw [← hn, ← hu, State.forkTurn_hasTurn turn, letIn_active active]
    dsimp only
    rw [if_neg (Nat.not_lt.mpr short), State.withPages_none pages', if_neg (by simp [here']), bytes, length,
      State.checked_none (by simp [range', share']), State.withTables_ok tables']
    dsimp only [childOf] at take enter ⊢
    rw [take]
    dsimp only
    rw [enter]
  · intro s r q x g bs dma s0 v l s3 edits names geom checks turn active fills source pages here ready written
    refine completes ?_
    rw [State.runEdit_edits edits, State.onSeq_names names, geom]
    dsimp only
    rw [State.checked_none checks, State.turn_hasTurn turn, letIn_active active]
    dsimp only
    rw [State.checked_none fills, source]
    dsimp only
    rw [State.withPages_none pages, if_neg (by simp [here]), appendRun_ready ready written]
  · intro s r q a b s' edits names other otherOk turn activeA activeB geom layerA layerB fillA aligned capB pagesA pagesB here share take
    have named : s.onSeq q (fld q.entry 255 208) = fun go => go b := by
      funext go
      simp [State.onSeq, other, otherOk]
    refine completes ?_
    rw [State.runEdit_edits edits, State.onSeq_names names, named]
    dsimp only
    rw [State.turn_hasTurn turn, letIn_active activeA, letIn_active activeB]
    dsimp only
    rw
      [State.checked_none (by simp [geom, aligned]; omega), State.withPages_none pagesA, State.withPages_none pagesB, if_neg (by simp [here]),
      State.checked_none (by simp [share]), take]
  · intro s r q x g k u v edits names turn active geom hk pages here hu hv
    have geomV : v.geom x.tenant x.geom = some g := by
      rw [hv, hu]
      split <;> exact geom
    have notSwapped : ¬(k % 256 ≠ 0 ∧ s.swappedNeeded x ((s.layersAbove x k).map fun l => (l, k / 256)) = true) := by
      rintro ⟨partial_, swapped⟩
      rcases here with whole | here
      · exact partial_ whole
      · rw [here] at swapped
        exact Bool.false_ne_true swapped
    have emptied : v = if (s.layersAbove x k).isEmpty then u else u.psForget x.handle k := by
      rw [hv]
      simp only [List.isEmpty_iff]
    have gone : truncGone s x v k = (v.seqMaps x).filter fun m =>
        (s.layersAbove x k).contains (x.pageOf (s.seqFrameBytes x) m.addr).1 &&
          decide (ceilDiv k 256 ≤ (x.pageOf (s.seqFrameBytes x) m.addr).2) := by
      simp only [ceilDiv_le (show 0 < 256 by decide)]
    refine completes ?_
    rw [State.runEdit_edits edits, State.onSeq_names names]
    dsimp only
    rw [State.turn_hasTurn turn, letIn_active active]
    dsimp only
    rw [← hk, State.withPages_none pages, if_neg notSwapped, ← hu, ← emptied, geomV, gone]

end Sys2Proof.Machine
end

section

/-! The rows that define, create, pin, query, swap, restore and destroy sequences, and the mapping rows (chapter 3). -/

namespace Sys2Proof.Machine
open Sys2Proof

theorem geom_drop (s : State) (t i t' i' : Nat) :
    ({ s with geoms := dropWhere (fun g => g.tenant == t && g.id == i) s.geoms } : State).geom t' i' =
      if t' = t ∧ i' = i then none else s.geom t' i' := by
  unfold State.geom
  dsimp only
  split
  next h =>
    obtain ⟨rfl, rfl⟩ := h
    exact find_dropWhere _ _
  next h =>
    refine find_dropWhere_other _ _ (fun g hg => ?_) _
    simp only [Bool.and_eq_true, beq_iff_eq] at hg
    simp only [Bool.and_eq_false_iff, beq_eq_false_iff_ne]
    omega

/-- Settles O1: the checks of the three rows are passed in order. -/
theorem geometryAndCreateComplete : Obligations.GeometryAndCreateComplete := by
  refine ⟨?_, ?_, ?_⟩
  · intro s r q vs s' runs loan checks free scales
    have passed : firstFail ((q.loan, Status.keyFault) :: (geomOf q.tenant q.entry).checks ++
        [((s.geom (geomOf q.tenant q.entry).tenant (geomOf q.tenant q.entry).id).isSome, .rangeFault)]) = none := by
      have free' : s.geom (geomOf q.tenant q.entry).tenant (geomOf q.tenant q.entry).id = none := free
      simp [firstFail_append_none, loan, checks, free']
    refine completes ?_
    rw [State.runReq_runs runs]
    dsimp only
    rw [State.checked_none passed, scales]
  · intro s r q runs small defined unused
    have noUse : (s.seqs.any fun x => x.tenant == q.tenant && x.geom == fld q.entry 143 128) = false := by
      simp only [List.any_eq_false, Bool.and_eq_true, beq_iff_eq]
      exact unused
    have passed : firstFail [(decide (1024 ≤ fld q.entry 143 128) || (s.geom q.tenant (fld q.entry 143 128)).isNone ||
        (s.seqs.any fun x => x.tenant == q.tenant && x.geom == fld q.entry 143 128), Status.rangeFault)] = none := by
      simp [small, noUse, defined]
    have row : exec (.geomRelease r) s = .next (({ s with
        geoms := dropWhere (fun g => g.tenant == q.tenant && g.id == fld q.entry 143 128) s.geoms }).okReq q 0) := by
      refine congrArg Host.Outcome.next ?_
      rw [State.runReq_runs runs]
      dsimp only
      rw [State.checked_none passed]
    refine ⟨_, row, State.ended_okReq runs.1 0, ?_, fun t' i other => ?_, rfl⟩
    · exact (geom_drop s ..).trans (if_pos ⟨rfl, rfl⟩)
    · exact (geom_drop s ..).trans (if_neg fun same => other (Prod.ext same.1 same.2))
  · intro s r q g s' h s'' edits loan geom low high range tables take enter
    refine completes ?_
    rw [State.runEdit_edits edits, geom]
    dsimp only
    rw [State.checked_none (by simp [loan, range, Nat.pos_iff_ne_zero.mp low, high]), State.withTables_ok tables, createSeq_ok take enter]

/-- Settles O2: the result that each table gives. -/
theorem pinQueryFenceComplete : Obligations.PinQueryFenceComplete := by
  refine ⟨?_, ?_, ?_, ?_, ?_⟩
  · intro s r q x runs names active pin unpinned room
    have row : exec (.seqPin r) s = .next ((s.modSeq x.idx fun x => { x with pinned := true }).okReq q 0) := by
      refine congrArg Host.Outcome.next ?_
      rw [State.runReq_runs runs, State.onSeq_names names]
      dsimp only
      rw [if_neg (by simp [pin]), if_neg (by simp [active]), State.checked_none (by simp [active, room]), unpinned]
      rfl
    exact ⟨_, row, State.ended_okReq runs.1 0, State.seqAt_modSeq (State.findSeq_at names.1) _ fun _ => rfl, rfl⟩
  · intro s r q x runs names unpin
    have row : exec (.seqPin r) s = .next ((s.modSeq x.idx fun x => { x with pinned := false }).okReq q (b2n x.pinned)) := by
      refine congrArg Host.Outcome.next ?_
      rw [State.runReq_runs runs, State.onSeq_names names]
      dsimp only
      rw [if_pos (by simp [unpin])]
    exact ⟨_, row, State.ended_okReq runs.1 _, State.seqAt_modSeq (State.findSeq_at names.1) _ fun _ => rfl, rfl⟩
  · intro s r q x s' runs names written
    refine completes ?_
    rw [State.runReq_runs runs, State.onSeq_names names]
    unfold State.store
    rw [written]
  · intro s r q runs fresh older
    have still : s.walksBelow q.tenant s.mem.walkEpoch = false := by
      simp only [State.walksBelow, List.any_eq_false, Bool.and_eq_true, beq_iff_eq, decide_eq_true_eq]
      exact fun w hw below => absurd below.2 (Nat.not_lt.mpr (older w hw below.1))
    have row : exec (.seqFence r) s = .next (s.okReq q s.mem.walkEpoch) := by
      refine congrArg Host.Outcome.next ?_
      rw [State.runReq_runs runs]
      simp [fresh, still]
    exact ⟨_, row, State.ended_okReq runs.1 _, rfl⟩
  · intro s r q f req waits running
    have row : exec (.seqFenceTimeout r) s = .next (s.endReq r .timeout q.count) := by
      refine congrArg Host.Outcome.next ?_
      simp [req, waits, running]
    exact ⟨_, row, State.ended_endReq req _ _, rfl⟩

theorem seqAt_drop (s : State) (i : Nat) : ({ s with seqs := dropWhere (·.idx == i) s.seqs } : State).seqAt i = none :=
  find_dropWhere _ _

theorem failRestore_mem (s : State) (i : Nat) (st : Status) : (s.failRestore i st).mem = s.mem := by
  unfold State.failRestore State.reclaimFailed
  dsimp only
  split <;> rfl

theorem failRestore_seqAt {s : State} {i : Nat} {x : Seq} (h : s.seqAt i = some x) (restoring : x.state = .restoring) (st : Status) :
    (s.failRestore i st).seqAt i = some { x with state := .preempted, starter := none, tried := [], victims := [] } := by
  have found := State.seqAt_modSeq h
    (fun q => if q.state = .restoring then { q with state := .preempted, starter := none, tried := [], victims := [] } else q)
    fun y => by split <;> rfl
  rw [if_pos restoring] at found
  rw [← found]
  unfold State.failRestore State.reclaimFailed
  dsimp only
  split <;> rfl

/-- Each request that waited for the restore goes on by its kind (R473). -/
theorem failRestore_outcome {s : State} {i : Nat} {q : Req} (mem : q ∈ s.reqs) (waits : q.phase = .waiting (.restore i)) (st : Status) :
    restoreOutcome st q ∈ (s.failRestore i st).reqs := by
  have reqs : (s.failRestore i st).reqs = modWhere (fun q => q.phase == .waiting (.restore i)) (restoreOutcome st) s.reqs := by
    unfold State.failRestore State.reclaimFailed
    dsimp only
    split <;> rfl
  rw [reqs]
  exact List.mem_map.mpr ⟨q, mem, by simp [waits]⟩

/-- Settles O4: SEQ_PREEMPT, SEQ_RESTORE and SEQ_DESTROY by the state of their sequence, and a restore that fails. -/
theorem preemptRestoreDestroyComplete : Obligations.PreemptRestoreDestroyComplete := by
  refine ⟨?_, ?_, ?_, ?_, ?_, ?_⟩
  · intro s r q x s' runs names active fresh alone out own
    have none : ∀ u : State, u.anyLive [] = false := fun u => by simp [State.anyLive]
    refine completes ?_
    rw [State.runReq_runs runs, State.onSeq_names names]
    simp only [active, fresh, alone, Bool.false_eq_true, if_false, none]
    unfold State.preemptNow
    simp only [out, State.req_id runs.1]
    rw [if_neg (by rw [List.isEmpty_iff]; exact own)]
  · intro s r q x runs names preempted fresh
    have row : exec (.seqPreempt r) s = .next (s.okReq q 0) := by
      refine congrArg Host.Outcome.next ?_
      rw [State.runReq_runs runs, State.onSeq_names names]
      simp [preempted, fresh]
    exact ⟨_, row, State.ended_okReq runs.1 0, rfl⟩
  · intro s r q x runs names preempted swapped
    have row : exec (.seqRestore r) s =
        .next ((s.modSeq x.idx fun q => { q with state := .restoring, moved := 0, starter := some r }).waitReq r (.restore x.idx)) := by
      refine congrArg Host.Outcome.next ?_
      rw [State.runReq_runs runs, State.onSeq_names names]
      simp [preempted, swapped, State.startRestore]
    exact ⟨_, row, State.waits_waitReq runs.1 _, State.seqAt_modSeq (State.findSeq_at names.1) _ fun _ => rfl, rfl⟩
  · intro s r q x runs names active accepted
    have row : exec (.seqRestore r) s = .next (s.okReq q x.moved) := by
      refine congrArg Host.Outcome.next ?_
      rw [State.runReq_runs runs, State.onSeq_names names]
      simp [active, accepted]
    exact ⟨_, row, State.ended_okReq runs.1 _, rfl⟩
  · intro s r q x edits found accepted alone state
    have row : exec (.seqDestroy r) s = .next (s.destroySeq q x) := by
      refine congrArg Host.Outcome.next ?_
      rw [State.runEdit_edits edits]
      simp only [accepted, found, if_true]
      unfold State.destroyWait
      rcases state with state | state <;> simp [alone, state]
    exact ⟨_, row, seqAt_drop _ _, rfl⟩
  · intro s i x st seq running restoring status
    have row : exec (.restoreFailed i st) s = .next (s.failRestore i st) := by
      refine congrArg Host.Outcome.next ?_
      simp only [seq]
      rw [if_pos ⟨running, restoring, status⟩]
    exact ⟨_, row, failRestore_seqAt seq restoring st, fun q mem waits => failRestore_outcome mem waits st, failRestore_mem s i st⟩

/-- The run that UNMAP or REMAP names, once R100's first steps have passed. -/
theorem withRun_run {s : State} {q : Req} {n : Nat} {ms : List Mapping}
    (hn : (if q.op = opREMAP then fld q.entry 287 256 else fld q.entry 223 192) = n)
    (low : 0 < n) (high : n ≤ s.mem.maps.length) (run : s.loanRun q.tenant n (mapAddr q.entry) = some ms)
    (limit : mapAddr q.entry + s.runBytes ms ≤ s.addrLimit q.tenant)
      (region : s.regionOver q.tenant (mapAddr q.entry) (s.runBytes ms) = false)
    (walks : s.mapsFail ms = none) (go : List Mapping → State) : s.withRun q go = go ms := by
  unfold State.withRun
  dsimp only
  rw [hn, if_neg (by omega), run]
  dsimp only
  rw [if_neg (by simp [region, limit]), walks]

/-- Storage that returns to the pool takes its item out of quarantine, and leaves the mappings and the requests. -/
theorem endQuarantine_leaves (s : State) (q : QItem) : (s.endQuarantine q).mem.quar = dropWhere (·.id == q.id) s.mem.quar ∧
    (s.endQuarantine q).mem.maps = s.mem.maps ∧ (s.endQuarantine q).reqs = s.reqs := by
  unfold State.endQuarantine
  cases q.frame <;> cases q.block <;> cases q.what <;> exact ⟨rfl, rfl, rfl⟩

/-- Settles O5: the checks of R100 are passed in order; a quarantined item that no walk can meet any more leaves the quarantine. -/
theorem mappingRowsComplete : Obligations.MappingRowsComplete := by
  refine ⟨?_, ?_, ?_, ?_⟩
  · intro s r q s1 l s2 edits low small aligned limit unmapped noSeq room tables take frames
    refine completes ?_
    rw [State.runEdit_edits edits]
    dsimp only
    rw [State.checked_none (by simp [unmapped, noSeq, aligned]; omega), State.withTables_ok tables, take]
    dsimp only
    rw [frames]
  · intro s r q ms edits low high run limit region walks
    refine completes ?_
    rw [State.runEdit_edits edits]
    have op : q.op = opUNMAP := edits.1.2.2.2.1
    rw [withRun_run (by rw [op]; rfl) low high run limit region walks]
  · intro s r q ms s' edits low high run limit region walks aligned limitTo unmapped noSeq apart tables take
    have fits : ((moved (fld q.entry 255 192) ms).any fun m => decide (m.addr % s.frameSize m.frame ≠ 0)) = false := by
      simpa using aligned
    refine completes ?_
    rw [State.runEdit_edits edits]
    have op : q.op = opREMAP := edits.1.2.2.2.1
    rw [withRun_run (by rw [op]; rfl) low high run limit region walks]
    dsimp only
    rw [State.checked_none, State.withTables_ok tables, take]
    simp only
      [firstFail_cons_none, firstFail_nil, fits, unmapped, noSeq, Bool.false_or, Bool.and_eq_false_iff, decide_eq_false_iff_not, and_true]
    omega
  · intro s i q item past zeroed
    have id : q.id = i := by simpa using List.find?_some item
    obtain ⟨quar, maps, reqs⟩ := endQuarantine_leaves s q
    have row : exec (.quarantineEnd i) s = .next (s.endQuarantine q) := by
      refine congrArg Host.Outcome.next ?_
      simp [item, past, zeroed]
    refine ⟨_, row, ?_, maps, reqs⟩
    rw [quar, id]
    exact find_dropWhere _ _

end Sys2Proof.Machine
end

section

/-! Sizes, addresses and orders: the clock's period, the state after reset, generations and handles, frame sizes, pages of a
sequence, the target of an event, and the store of a frame (R26, R33, R62, R63, R67, R370). -/

namespace Sys2Proof.Machine
open Sys2Proof

/-! ### The clock -/

theorem State.tick_clk {s : State} (on : s.node.powered = true) : s.tick.clk = s.clk.tick := by
  unfold State.tick
  simp [on]

theorem State.tick_node (s : State) : s.tick.node = s.node := by
  unfold State.tick
  split <;> rfl

theorem State.tick_pending (s : State) : s.tick.pending = s.pending := by
  have kept := s.tick_built
  simp only [State.built, Prod.mk.injEq] at kept
  tauto

/-- Settles O40: the front command is what a step takes. -/
theorem stepRunsTheFrontCommand : Obligations.StepRunsTheFrontCommand := fun _ _ _ => rfl

/-- Five periods of 6.4 ns are 32 ns, whatever fraction was carried before. -/
theorem Clock.tick_five {c : Clock} (carried : c.frac < 5) : c.tick.tick.tick.tick.tick.ltime = c.ltime + 32 := by
  obtain ⟨ltime, frac⟩ := c
  dsimp only at carried
  interval_cases frac <;> simp [Clock.tick, BitVec.add_assoc]

/-- Settles O41: a period moves the clock alone, by the fraction that it carries. -/
theorem localCounterAdvances : Obligations.LocalCounterAdvances := by
  intro s idle on carried
  refine ⟨⟨s.tick, ?_, s.tick_pending.trans idle, s.tick_node, ?_, ?_⟩, ?_⟩
  · unfold step
    rw [idle]
  · rw [State.tick_clk on]
    exact Nat.mod_lt _ (by decide)
  · rw [State.tick_clk on]
    unfold Clock.tick
    dsimp only
    split
    · exact .inr rfl
    · exact .inl rfl
  · have stays : ∀ u : State, u.node.powered = true → u.tick.node.powered = true := fun u hu => u.tick_node ▸ hu
    have on1 := stays s on
    have on2 := stays _ on1
    have on3 := stays _ on2
    rw
      [State.tick_clk (stays _ on3), State.tick_clk on3, State.tick_clk on2, State.tick_clk on1, State.tick_clk on, Clock.tick_five carried]

/-- Settles O42: each part is what reset writes. -/
theorem resetState : Obligations.ResetState := by
  refine ⟨rfl, rfl, rfl, rfl, rfl, rfl, rfl, rfl, fun k _ => ⟨rfl, rfl⟩, rfl, rfl, rfl, rfl, rfl, rfl, rfl, ?_, ?_⟩
  · decide +kernel
  · refine ⟨?_, ?_, ?_⟩ <;> decide +kernel

/-! ### Handles -/

theorem nextGen_lt (g : Nat) : nextGen g ≠ 0 ∧ nextGen g < 65536 := by
  unfold nextGen
  omega

theorem findSeq_some {s : State} {n h : Nat} {a : Bool} {x : Seq} (found : s.findSeq n h a = some x) :
    x ∈ s.seqs ∧ x.idx = h / 65536 ∧ h % 65536 ≠ 0 ∧ x.gen = h % 65536 ∧ x.tenant = n := by
  unfold State.findSeq at found
  split at found
  · cases found
  next q at_ =>
    split at found
    next names =>
      cases found
      obtain ⟨live, gen, tenant, -⟩ := names
      exact ⟨List.mem_of_find?_eq_some at_, by simpa using List.find?_some at_, live, gen, tenant⟩
    · cases found

/-- Settles O45: a handle is an index and a generation, and the generation is compared. -/
theorem handleGenerations : Obligations.HandleGenerations := by
  refine ⟨nextGen_lt, rfl, fun g hg => ?_, fun s n h a dead => ?_, fun s n h a x found => ?_⟩
  · unfold nextGen
    omega
  · rw [Option.eq_none_iff_forall_not_mem]
    intro x found
    obtain ⟨-, -, live, -⟩ := findSeq_some found
    exact live dead
  · obtain ⟨mem, idx, -, gen, tenant⟩ := findSeq_some found
    refine ⟨by omega, ?_, tenant, mem⟩
    unfold Seq.handle
    omega

/-! ### Sizes -/

theorem clog2_le_iff (x k : Nat) : clog2 x ≤ k ↔ x ≤ 2 ^ k := by
  unfold clog2
  split
  next small => exact iff_of_true (Nat.zero_le _) (small.trans Nat.one_le_two_pow)
  next large => rw [Nat.succ_le_iff, Nat.log2_lt (by omega), Nat.lt_iff_add_one_le, Nat.sub_add_cancel (by omega)]

/-- Settles O46: the least exponent is the logarithm rounded up. -/
theorem frameIsLeastPowerOfTwo : Obligations.FrameIsLeastPowerOfTwo := by
  intro p hp
  have frame : frameBytes p = 2 ^ max 14 (clog2 p) := by
    unfold frameBytes granule
    rw [(pow_right_mono₀ (by decide : 1 ≤ 2)).map_max]
    rfl
  rw [frame]
  refine ⟨⟨_, le_max_left .., max_le (by decide) ((clog2_le_iff p 23).mpr hp), rfl⟩, (clog2_le_iff ..).mp (le_max_right ..), fun k low
    fits => ?_⟩
  exact Nat.pow_le_pow_right (by decide) (max_le low ((clog2_le_iff p k).mpr fits))

theorem le_roundUp (a : Nat) {b : Nat} (hb : 0 < b) : a ≤ roundUp a b := by
  unfold roundUp ceilDiv
  have := Nat.div_add_mod (a + b - 1) b
  have := Nat.mod_lt (a + b - 1) hb
  rw [Nat.mul_comm]
  omega

/-- Settles O47: a page is a digit of the address, in base F and then in base P_max. -/
theorem pagesOfASequence : Obligations.PagesOfASequence := by
  intro x f layers l p d hf hp hl hd
  have pages : max 1 x.pmax = x.pmax := max_eq_right (Nat.one_le_of_lt hp)
  have index : (l * x.pmax + p) * f + f ≤ layers * x.pmax * f :=
    calc (l * x.pmax + p) * f + f = (l * x.pmax + p + 1) * f := by ring
      _ ≤ ((l + 1) * x.pmax) * f := Nat.mul_le_mul_right _ (by rw [Nat.succ_mul]; omega)
      _ ≤ layers * x.pmax * f := Nat.mul_le_mul_right _ (Nat.mul_le_mul_right _ hl)
  refine ⟨rfl, ?_, ?_, ?_⟩
  · have offset : (x.pageAddr f l p + d - x.base) / f = l * x.pmax + p := by
      unfold Seq.pageAddr
      rw [show x.base + (l * x.pmax + p) * f + d - x.base = d + (l * x.pmax + p) * f by omega, Nat.add_mul_div_right _ _ hf,
        Nat.div_eq_of_lt hd, Nat.zero_add]
    have layer : (l * x.pmax + p) / x.pmax = l := by
      rw [Nat.mul_comm, Nat.mul_add_div (Nat.zero_lt_of_lt hp), Nat.div_eq_of_lt hp, Nat.add_zero]
    have page : (l * x.pmax + p) % x.pmax = p := by rw [Nat.mul_comm, Nat.mul_add_mod, Nat.mod_eq_of_lt hp]
    unfold Seq.pageOf
    rw [offset, pages]
    dsimp only
    rw [layer, page]
  · have := le_roundUp (layers * x.pmax * f) (b := mib8) (by decide)
    unfold rangeBytes Seq.pageAddr
    omega
  · unfold rangeBytes roundUp mib8
    exact Nat.mul_mod_left ..

end Sys2Proof.Machine
end

section

/-! Routing, frame stores, the governor's setpoint and the event rows (R18, R37, R180, R366, R370, R371, R373, R466, R467). -/

namespace Sys2Proof.Machine
open Sys2Proof

/-! ### The target of an event -/

/-- The first member at or after `r`, wrapping. -/
theorem firstFrom_spec {l : List Nat} (sorted : l.Pairwise (· < ·)) {z : Nat} (some_ : z ∈ l) (r d : Nat) {x : Nat}
    (pick : (l.find? fun x => decide (r ≤ x)).getD (l.headD d) = x) :
    x ∈ l ∧ (∀ y ∈ l, r ≤ y → r ≤ x ∧ x ≤ y) ∧ (x < r → ∀ y ∈ l, x ≤ y) := by
  cases hf : l.find? fun x => decide (r ≤ x) with
  | some w =>
    rw [hf, Option.getD_some] at pick
    subst pick
    obtain ⟨reached, before, after, rfl, passed⟩ := List.find?_eq_some_iff_append.mp hf
    simp only [decide_eq_true_eq, Bool.not_eq_eq_eq_not, Bool.not_true, decide_eq_false_iff_not] at reached passed
    have later := (List.pairwise_cons.mp (List.pairwise_append.mp sorted).2.1).1
    refine ⟨by simp, fun y hy ry => ⟨reached, ?_⟩, fun below => absurd reached (Nat.not_le_of_lt below)⟩
    rcases List.mem_append.mp hy with hb | ha
    · exact absurd ry (passed y hb)
    · rcases List.mem_cons.mp ha with rfl | ha
      · exact le_rfl
      · exact (later y ha).le
  | none =>
    rw [hf, Option.getD_none] at pick
    have none_ : ∀ y ∈ l, ¬ r ≤ y := by simpa using hf
    cases l with
    | nil => cases some_
    | cons a l =>
      rw [List.headD_cons] at pick
      subst pick
      refine ⟨List.mem_cons_self, fun y hy ry => absurd ry (none_ y hy), fun _ y hy => ?_⟩
      rcases List.mem_cons.mp hy with rfl | hy
      · exact le_rfl
      · exact ((List.pairwise_cons.mp sorted).1 y hy).le

/-- The least value of `f` on a list, no greater than `a`. -/
theorem foldl_min_spec (f : Nat → Nat) (l : List Nat) (a : Nat) :
    l.foldl (fun a x => min a (f x)) a ≤ a ∧ (∀ y ∈ l, l.foldl (fun a x => min a (f x)) a ≤ f y) ∧
      (l.foldl (fun a x => min a (f x)) a = a ∨ ∃ y ∈ l, f y = l.foldl (fun a x => min a (f x)) a) := by
  induction l generalizing a with
  | nil => simp
  | cons x l ih =>
    obtain ⟨start, below, taken⟩ := ih (min a (f x))
    simp only [List.foldl_cons, List.mem_cons, forall_eq_or_imp, exists_eq_or_imp]
    refine ⟨start.trans (min_le_left ..), ⟨start.trans (min_le_right ..), below⟩, ?_⟩
    rcases taken with taken | taken
    · rcases min_choice a (f x) with left | right
      · exact .inl (taken.trans left)
      · exact .inr (.inl (right.symm.trans taken.symm))
    · exact .inr (.inr taken)

/-- The candidates whose current priority is below the source's. -/
def State.outranked (s : State) (src : Nat) : List Nat := (s.candidates src).filter fun x => decide (s.curprio x < s.sourcePrio src)

theorem State.mem_outranked {s : State} {src x : Nat} : x ∈ s.outranked src ↔ x ∈ s.candidates src ∧ s.curprio x < s.sourcePrio src := by
  simp [State.outranked]

theorem State.pickTarget_none (s : State) (src : Nat) : s.pickTarget src = none ↔ s.outranked src = [] := by
  unfold State.pickTarget
  change (match s.outranked src with | [] => none | x0 :: _ => _) = none ↔ _
  cases s.outranked src <;> simp

/-- The target picked is the first, from the pointer on, of those whose priority is the least among the eligible. -/
theorem State.pickTarget_some {s : State} {src x : Nat} (pick : s.pickTarget src = some x) :
    ∃ low d z, (∀ y ∈ s.outranked src, low ≤ s.curprio y) ∧ z ∈ (s.outranked src).filter (fun x => s.curprio x == low) ∧
      ((((s.outranked src).filter fun x => s.curprio x == low).find? fun x => decide (assocGet s.ev.rr src 0 ≤ x)).getD
        (((s.outranked src).filter fun x => s.curprio x == low).headD d)) = x := by
  have cut : s.pickTarget src = match s.outranked src with
      | [] => none
      | x0 :: _ =>
        let low := (s.outranked src).foldl (fun a x => min a (s.curprio x)) (s.curprio x0)
        let tied := (s.outranked src).filter fun x => s.curprio x == low
        some ((tied.find? fun x => decide (assocGet s.ev.rr src 0 ≤ x)).getD (tied.headD x0)) := rfl
  rw [cut] at pick
  obtain ⟨start, below, taken⟩ : _ := foldl_min_spec s.curprio (s.outranked src) (s.curprio ((s.outranked src).headD 0))
  cases h : s.outranked src with
  | nil => simp [h] at pick
  | cons x0 l =>
    rw [h] at pick start below taken
    rw [List.headD_cons] at start below taken
    dsimp only at pick
    generalize (x0 :: l).foldl (fun a x => min a (s.curprio x)) (s.curprio x0) = low at pick start below taken
    refine ⟨low, x0, ?_⟩
    rcases taken with taken | ⟨z, hz, taken⟩
    · exact ⟨x0, below, by simp [taken.symm], Option.some.inj pick⟩
    · exact ⟨z, below, by simp [taken, hz], Option.some.inj pick⟩

/-- Settles O49: the least priority, then the order of the candidates. -/
theorem routingPicksLowestPriority : Obligations.RoutingPicksLowestPriority := by
  refine ⟨fun s src => ?_, fun s src x pick => ?_⟩
  · rw [State.pickTarget_none]
    unfold State.outranked
    simp
  · obtain ⟨low, d, z, least, tie, first⟩ := State.pickTarget_some pick
    have sorted : ((s.outranked src).filter fun x => s.curprio x == low).Pairwise (· < ·) :=
      ((candidates_sorted s src).filter _).filter _
    obtain ⟨tied, next, wrap⟩ := firstFrom_spec sorted tie _ _ first
    obtain ⟨eligible, atLow⟩ : x ∈ s.outranked src ∧ s.curprio x = low := by simpa using tied
    obtain ⟨candidate, below⟩ := State.mem_outranked.mp eligible
    have others : ∀ y ∈ s.candidates src, s.curprio y = s.curprio x → y ∈ (s.outranked src).filter fun x => s.curprio x == low := by
      intro y hy same
      simp [State.mem_outranked, hy, same.trans atLow, atLow ▸ below]
    refine ⟨candidate, below, fun y hy => ?_, fun y hy same => next y (others y hy same), fun hx y hy same => wrap hx y (others y hy same)⟩
    by_cases hb : s.curprio y < s.sourcePrio src
    · exact atLow ▸ least y (State.mem_outranked.mpr ⟨hy, hb⟩)
    · omega

/-! ### Frame stores -/

/-- Everything but the records of frames and of quarantined storage. -/
def State.contents (s : State) := (s.mem.data, s.octs, s.objs, s.seqs, s.tenants, s.out)

theorem State.beforeWrite_contents (s : State) (n : Nat) : (s.beforeWrite n).contents = s.contents := by
  unfold State.beforeWrite
  split
  · split
    · split <;> rfl
    · rfl
  · rfl

/-- An upper-tier frame's bytes are stored, and its marks are kept in its record. -/
theorem State.writeInPlace_upper {s t : State} {n off : Nat} {bs : List Byte} {f : Frame} (at_ : s.frame n = some f)
    (upper : ∀ k, f.place ≠ .lower k) (write : s.writeInPlace n off bs = some t) :
    t.contents = (s.putFrame n off bs).contents := by
  unfold State.writeInPlace at write
  rw [at_] at write
  dsimp only at write
  split at write
  next k lower => exact absurd lower (upper k)
  · cases write
    rfl

/-- Bytes of two frames, or of two places in one, have different keys. -/
theorem dataKey_apart {n off len m o : Nat} (fits : off + len ≤ mib8) (ho : o < mib8) (apart : m ≠ n ∨ o < off ∨ off + len ≤ o) :
    ¬(dataKey n off ≤ dataKey m o ∧ dataKey m o < dataKey n off + len) := by
  unfold dataKey
  unfold mib8 at *
  omega

/-- Settles O50: the store is a run of bytes under the frame's keys. -/
theorem frameStoreReadsBack : Obligations.FrameStoreReadsBack := by
  intro s n off bs t f wf at_ upper write fits
  have kept := (State.writeInPlace_upper at_ upper write)
  have before := s.beforeWrite_contents n
  simp only [State.contents, State.putFrame, State.modMem, Prod.mk.injEq] at kept before
  obtain ⟨data, octs, objs, seqs, tenants, out⟩ := kept
  obtain ⟨data0, octs0, objs0, seqs0, tenants0, out0⟩ := before
  rw [data0] at data
  refine ⟨?_, fun m o ho apart => ?_, ?_, octs.trans octs0, objs.trans objs0, seqs.trans seqs0, tenants.trans tenants0, out.trans out0⟩
  · unfold State.readFrame
    rw [data, Memory.readBytes_writeBytes wf]
  · simp only [State.readFrame, Memory.readBytes, List.range_one, List.map_cons, List.map_nil, Nat.add_zero, List.cons.injEq, and_true]
    rw [data, Memory.read_writeBytes wf, if_neg (dataKey_apart fits ho apart)]
  · rw [data]
    exact Memory.writeBytes_wf wf _ _

/-! ### The governor -/

theorem govern_range (vt vp vmax : Rat) : 600 ≤ govern vt vp vmax ∧ govern vt vp vmax ≤ 850 := by
  unfold govern
  exact ⟨le_max_left .., max_le (by norm_num) (min_le_left ..)⟩

/-- A setpoint is sent; only one that arrives changes VCORE. -/
theorem State.sendMv_vset (s : State) (v : Rat) (failed : Bool) :
    (s.sendMv v failed).gov.vset = if failed then s.gov.vset else if s.node.critHold then 600 else v := by
  unfold State.sendMv
  split <;> rfl

theorem raise_gov (s : State) (k : Nat) : (s.raise k).gov = s.gov := by rw [raise_frame]

/-- A tick of the governor with power sends the setpoint of its inputs. -/
theorem execGovernorTick_vset {s t : State} {xs : List Int} {w m n : Nat} (tick : exec (.governorTick xs w m n) s = .next t) :
    ∃ vt vp vmax, t.gov.vset = if s.node.powered = true ∧ n < 3 then
      if s.node.critHold then 600 else govern vt vp vmax else s.gov.vset := by
  have effect := (Host.Outcome.next.inj tick).symm
  split at effect
  next off => exact ⟨0, 0, 0, by rw [effect, if_neg (by simp_all)]⟩
  next on =>
    dsimp only at effect
    have sent : ∃ (u : State) (vt vp vmax : Rat), t.gov = (u.sendMv (govern vt vp vmax) (decide (3 ≤ n))).gov ∧
        u.gov.vset = s.gov.vset ∧ u.node = s.node := by
      split at effect
      · exact ⟨_, _, _, _, (congrArg State.gov effect).trans (raise_gov ..), rfl, rfl⟩
      · exact ⟨_, _, _, _, congrArg State.gov effect, rfl, rfl⟩
    obtain ⟨u, vt, vp, vmax, gov, vset, node⟩ := sent
    refine ⟨vt, vp, vmax, ?_⟩
    have powered : s.node.powered = true := by simpa using on
    rw [gov, State.sendMv_vset, vset, node]
    by_cases hn : n < 3
    · simp [powered, hn, Nat.not_le.mpr hn]
    · simp [hn, Nat.le_of_not_lt hn]

/-- Settles O53: a setpoint is clamped before it is sent. -/
theorem vcoreStaysInRange : Obligations.VcoreStaysInRange := by
  refine ⟨fun s xs w m n t low high tick => ?_, fun vt vp vmax => ?_⟩
  · obtain ⟨vt, vp, vmax, vset⟩ := execGovernorTick_vset tick
    obtain ⟨least, most⟩ := govern_range vt vp vmax
    refine ⟨?_, ?_, fun on hold few => by rw [vset, if_pos ⟨on, few⟩, if_pos hold]⟩
    · rw [vset]
      split_ifs
      exacts [le_rfl, least, low]
    · rw [vset]
      split_ifs
      exacts [by norm_num, most, high]
  · obtain ⟨least, most⟩ := govern_range vt vp vmax
    refine ⟨least, most, fun ok => max_le ok ?_, fun ok => max_le ok ?_⟩
    · exact (min_le_right ..).trans (min_le_left ..)
    · exact (min_le_right ..).trans ((min_le_right ..).trans (min_le_left ..))

/-! ### Event rows -/

theorem State.bankSet_evOnly (s : State) (src : Nat) : evOnly s (s.bankSet src) := by
  unfold State.bankSet
  split
  · exact raise_evOnly s src
  · exact evOnly_refl s

theorem State.bankClr_evOnly (s : State) (src : Nat) : evOnly s (s.bankClr src) := by
  unfold State.bankClr
  split
  · exact ackSource_evOnly s src
  · exact evOnly_refl s

theorem State.bankMask_evOnly (s : State) (src : Nat) : evOnly s (s.bankMask src) := by
  unfold State.bankMask
  refine evOnly_trans (b := s.setMask src true) ?_ rfl
  rw [setMask_frame]
  rfl

theorem State.rerouteWaiting_evOnly (s : State) (p : Nat → Bool) : evOnly s (s.rerouteWaiting p) := by
  unfold State.rerouteWaiting
  refine foldl_evOnly _ (fun u src => ?_) _ s
  split
  · exact route_evOnly u src
  · exact evOnly_refl u

theorem State.bankWrite_carried {s : State} {ld : Nat} (up : s.linkCarries ld = true) (srcs : List Nat) (f : State → Nat → State) :
    s.bankWrite ld srcs f = srcs.foldl f s := if_pos up

/-- Settles O29: a link that carries the LD carries its writes. -/
theorem eventBanksComplete : Obligations.EventBanksComplete := by
  refine ⟨fun s ld word v up => ⟨?_, ?_, ?_, ?_⟩, fun s ld v up => ⟨?_, ?_, ?_, ?_⟩⟩ <;>
    exact completes (State.bankWrite_carried up _ _)

theorem bankWrite_evOnly {s : State} {ld : Nat} (up : s.linkCarries ld = true) (srcs : List Nat) {f : State → Nat → State}
    (each : ∀ u src, evOnly u (f u src)) : ∃ t, Host.Outcome.next (s.bankWrite ld srcs f) = (.next t : Host.Outcome State Fault Refusal) ∧
      evOnly s t :=
  ⟨_, rfl, State.bankWrite_carried up srcs f ▸ foldl_evOnly f each srcs s⟩

/-- Settles O59: each bank writes one source at a time, and a source is raised, cleared, masked or unmasked. -/
theorem eventRowsFrame : Obligations.EventRowsFrame := by
  refine ⟨fun s ld word v up => ?_, fun s ld k v up => ?_, fun s i a on small => ?_⟩
  · simp only [List.forall_mem_cons, List.not_mem_nil, false_imp_iff, implies_true, and_true]
    exact ⟨bankWrite_evOnly up _ State.bankSet_evOnly, bankWrite_evOnly up _ State.bankClr_evOnly, bankWrite_evOnly up _
      State.bankMask_evOnly,
      bankWrite_evOnly up _ bankUnmask_evOnly, bankWrite_evOnly up _ State.bankSet_evOnly, bankWrite_evOnly up _ State.bankClr_evOnly,
      bankWrite_evOnly up _ State.bankMask_evOnly, bankWrite_evOnly up _ bankUnmask_evOnly⟩
  · refine ⟨_, rfl, ?_⟩
    change evOnly s _
    split
    · exact evOnly_refl s
    · dsimp only
      split
      · exact evOnly_trans (b := s.setTarget _) rfl (State.rerouteWaiting_evOnly ..)
      · rfl
  · refine ⟨_, rfl, ?_⟩
    rw [if_neg (Nat.not_le_of_lt small), if_neg (by simp [on])]
    dsimp only
    split
    · have set_ := raise_evOnly (if bit ((s.setPin (pinEvin i) a).scalar 0x3300 2) i && (s.setPin (pinEvin i) a).pendOf (srcEvin i) then
          (s.setPin (pinEvin i) a).countEdge i else s.setPin (pinEvin i) a) (srcEvin i)
      unfold evOnly at set_
      rw [set_]
      split <;> rfl
    · rfl

/-- Settles O30: the rows of the pins, of MSI-X and of the resets. -/
theorem attachmentPinsComplete : Obligations.AttachmentPinsComplete := by
  refine ⟨?_, ?_, ?_, ?_, ?_⟩
  · intro s ld k v u up owns hu
    subst hu
    refine completes ?_
    rw [if_neg (by simp [up, owns])]
  · intro s i on small
    refine ⟨fun was => completes ?_, completes ?_⟩
    · rw [if_neg (Nat.not_le_of_lt small), if_neg (by simp [on])]
      dsimp only
      rw [if_pos (by simp [was])]
    · rw [if_neg (Nat.not_le_of_lt small), if_neg (by simp [on])]
      dsimp only
      rw [if_neg (by simp)]
  · intro s ld present
    refine ⟨?_, ?_, ?_⟩
    · intro on mk u hu
      subst hu
      refine completes ?_
      rw [if_neg (by simp [present])]
      rfl
    · intro i mk small
      refine completes ?_
      simp [present, small]
    · intro on
      refine completes ?_
      simp [present]
  · intro s ld up
    exact ⟨completes (if_pos up), completes (if_pos up)⟩
  · intro s on
    refine ⟨fun was => completes ?_, completes rfl⟩
    rw [if_neg (by simp [was]), if_neg (by simp [on])]

end Sys2Proof.Machine
end

section

/-! Packets on a connection, the queues' doorbells and entries, and the remote operations (chapters 9 and 10). -/

namespace Sys2Proof.Machine
open Sys2Proof

/-! ### Packets -/

/-- Settles O15: the packet is heard and finds its connection; then the checks of its kind are passed. -/
theorem connectionPacketsComplete : Obligations.ConnectionPacketsComplete := by
  refine ⟨?_, ?_, ?_, ?_, ?_, ?_, ?_, ?_, ?_⟩
  · intro s p c arrives on takes new below
    refine completes ?_
    rw [receive_arrives arrives, onConn_heard on]
    unfold State.rxReqData
    simp [takes, new, below]
  · intro s p c arrives on takes new inside slots
    refine completes ?_
    rw [receive_arrives arrives, onConn_heard on]
    unfold State.rxReqMerge
    simp [takes, new, inside, Nat.not_le.mpr slots]
  · intro s p c q o u s' arrives on takes new inside awaits epoch room hu placed
    have epoch' : u.holdsEpoch c.comp p.epoch = true := by rw [hu]; exact epoch
    refine completes ?_
    rw [receive_arrives arrives, onConn_heard on]
    unfold State.rxRspData
    rw [if_neg (by simp [takes]), if_neg (by simp [new]), if_neg (by simp [inside]), awaits]
    dsimp only
    rw [← hu, if_neg (by simp [epoch']), if_neg, placed]
    split
    · exact Bool.false_ne_true
    · simpa using room
  · intro s p c q o arrives other on takes new inside awaits epoch
    refine completes ?_
    rw [if_neg other, receive_arrives arrives, onConn_heard on]
    unfold State.rxRspEnd
    rw [if_neg (by simp [takes, other]), if_neg (by simp [new]), if_neg (by simp [inside]), awaits]
    exact if_pos epoch
  · intro s p c q o arrives miss on takes awaits sent
    obtain ⟨x, mem, psn, req, gone⟩ := sent
    refine completes ?_
    rw [if_neg (by simp [miss]), receive_arrives arrives, onConn_heard on]
    unfold State.rxMissReply
    rw [if_neg (by simp [takes, miss]), awaits]
    dsimp only
    rw [if_pos (List.any_eq_true.mpr ⟨x, mem, by simp [psn, req, gone]⟩)]
  · intro s p c arrives on takes length space above within
    refine ⟨_, _, ?_, rfl, rfl⟩
    refine congrArg Host.Outcome.next ?_
    rw [receive_arrives arrives, onConn_heard on]
    unfold State.rxSack
    dsimp only
    rw [if_neg (by simp [takes, above]; omega)]
  · intro s p c arrives on takes asks
    refine completes ?_
    rw [receive_arrives arrives, onConn_heard on]
    unfold State.rxCreditAsk
    rw [if_neg (by simp [takes])]
    dsimp only
    rw [if_neg asks]
  · intro s p c arrives on takes
    refine completes ?_
    rw [receive_arrives arrives, onConn_heard on]
    exact if_neg (by simp [takes])
  · intro s p c arrives on takes
    refine completes ?_
    rw [receive_arrives arrives, onConn_heard on]
    exact if_neg (by simp [takes])

/-! ### Queues -/

theorem cq_modCq {s : State} {n : Nat} {c : Cq} (h : s.cq n = some c) (f : Cq → Cq) (hf : ∀ x, (f x).num = x.num) :
    (s.modCq n f).cq n = some (f c) := by
  unfold State.cq State.modCq at *
  dsimp only
  rw [find_modWhere _ _ (by intro x hx; simpa [hf] using hx), h]
  rfl

/-- What an entry that is taken leaves: one request, one entry more behind CI, and the memory as it was. -/
theorem takeEntry_spec {s : State} {n : Nat} {w : Wq} (queue : s.wq n = some w) (e : BitVec 512) (st : Option Status) :
    ∃ q : Req, (s.takeEntry w e st).reqs = s.reqs ++ [q] ∧ q.id = s.nextReq ∧ q.origin = .queue n ∧ q.entry = e ∧ q.tenant = w.tenant ∧
      q.comp = w.comp ∧ q.phase = (match st with | some x => .ended x 0 | none => .started) ∧
      (s.takeEntry w e st).nextReq = s.nextReq + 1 ∧ ((s.takeEntry w e st).wq n).map (·.ci) = some (w.ci + 1) ∧
      (s.takeEntry w e st).mem = s.mem := by
  have num := wq_num queue
  refine ⟨_, rfl, rfl, by rw [num], rfl, rfl, rfl, rfl, rfl, ?_, rfl⟩
  unfold State.takeEntry
  dsimp only
  rw [num, wq_modWq]
  case h => exact queue
  · rfl
  · exact fun _ => rfl

/-- Settles O19: a doorbell moves one index; an entry that may start is taken. -/
theorem queueRowsComplete : Obligations.QueueRowsComplete := by
  refine ⟨?_, ?_, ?_, ?_, ?_, ?_⟩
  · intro s ld n v w queue on own live inside
    have row : exec (.piDoorbellWrite ld n v) s = .next (s.modWq n fun w => { w with pi := v }) := by
      refine congrArg Host.Outcome.next ?_
      simp [queue, on, own, live, inside]
    exact ⟨_, row, wq_modWq queue _ fun _ => rfl, rfl⟩
  · intro s ld n v w queue on own live outside
    refine completes ?_
    simp [queue, on, own, live, outside]
  · intro s ld n v c queue on own inside
    have row : exec (.cqCiDoorbellWrite ld n v) s = .next (s.modCq n fun c => { c with ci := v }) := by
      refine congrArg Host.Outcome.next ?_
      simp [queue, on, own, inside]
    exact ⟨_, row, cq_modCq queue _ fun _ => rfl, rfl⟩
  · intro s n e w queue may going header plain
    have row : exec (.workEntryStart n e) s = .next (s.takeEntry w e none) := by
      refine congrArg Host.Outcome.next ?_
      simp [queue, may, going, header, plain]
    obtain ⟨q, reqs, id, origin, entry, tenant, comp, phase, next, ci, mem⟩ := takeEntry_spec queue e none
    exact ⟨_, q, row, reqs, id, origin, entry, tenant, comp, phase, next, ci, mem⟩
  · intro s n e w st queue may going header
    have row : exec (.workEntryStart n e) s = .next (s.takeEntry w e (some st)) := by
      refine congrArg Host.Outcome.next ?_
      simp [queue, may, going, header]
    obtain ⟨q, reqs, -, -, -, -, -, phase, -, ci, -⟩ := takeEntry_spec queue e (some st)
    exact ⟨_, q, row, reqs, phase, ci⟩
  · intro s r q st n found ended on report
    refine completes ?_
    simp [found, on, report]

/-! ### Remote operations -/

theorem onRegion_held {s s' : State} {q : Req} {need : KeyRight} {len : Nat} {g : Region}
    (hold : s.holdKey q (remRkey q.entry) need (remRoff q.entry) len = .ok (g, s')) (go : Region → State → State) :
    s.onRegion q need len go = go g s' := by
  unfold State.onRegion
  rw [hold]

/-- An atomic operation whose key, ledger, read and write succeed. -/
theorem atomicRow_done {s s1 s2 s3 s4 : State} {q : Req} {n psn width : Nat} {g : Region} {old : List Byte}
    {f : List Byte → Option (List Byte) × Nat × List Byte} (origin : q.origin = .remote n psn)
    (hold : s.holdKey q (remRkey q.entry) .remoteA (remRoff q.entry) width = .ok (g, s1)) (ledger : s1.withLedger n = .got () s2)
    (load : s2.loadTenant q.payer (g.base + remRoff q.entry) width = .ok (old, s3))
    (write : (∃ bs, (f old).1 = some bs ∧ s3.writeTenant q.payer (g.base + remRoff q.entry) bs = .done s4) ∨
      (f old).1 = none ∧ s3.xlateStatus q.tenant (g.base + remRoff q.entry) width .write = .ok ∧ s4 = s3) :
    s.atomicRow q width f = atomicDone s4 q width (leVal old) (f old).2.1 (f old).2.2 := by
  unfold State.atomicRow
  rw [onRegion_held hold]
  dsimp only
  rw [rcqOf_fst s1 q n psn origin, ledger]
  dsimp only
  rw [load]
  dsimp only
  have word := rcqOf_fst s4 q n psn origin
  rcases write with ⟨bs, new, write⟩ | ⟨same, may, rfl⟩
  · rw [new]
    dsimp only
    rw [write]
    dsimp only [atomicDone]
    rewrite [word]
    rfl
  · rw [same]
    dsimp only
    rw [may]
    dsimp only [atomicDone]
    rewrite [word]
    rfl

/-- Settles O21: a queue's operation is issued to its peer; at the target the key, the ledger and the memory are met in order. -/
theorem remoteOperationsComplete : Obligations.RemoteOperationsComplete := by
  refine ⟨?_, ?_, ?_, ?_, ?_, ?_, ?_, ?_, ?_, ?_, ?_⟩
  · intro s r q n c found origin started away both fresh runs free conn notAttend notAppend
    refine completes ?_
    rw [found]
    dsimp only
    rw [origin]
    dsimp only
    rw [if_neg (by simp [started, away, both, fresh, runs, free]), if_neg notAttend, if_neg notAppend]
  · intro s r q n d c op row found hop started fresh runs free origin gate
    simp only [List.mem_cons, Prod.mk.injEq, List.not_mem_nil, or_false] at row
    rcases row with ⟨rfl, rfl⟩ | ⟨rfl, rfl⟩ | ⟨rfl, rfl⟩ | ⟨rfl, rfl⟩ <;>
      exact completes (remoteRow_queue found hop started fresh runs free origin gate d _)
  · intro s r q n c op row found hop started fresh runs free origin gate
    simp only [List.mem_cons, Prod.mk.injEq, List.not_mem_nil, or_false] at row
    rcases row with ⟨rfl, rfl⟩ | ⟨rfl, rfl⟩ | ⟨rfl, rfl⟩ | ⟨rfl, rfl⟩ <;>
      exact completes (remoteRow_queue found hop started fresh runs free origin gate [] _)
  · intro s u r q n psn d g s1 s2 at_ length hold put
    refine completes ?_
    rw [remoteRow_target at_, State.checked_none (by simp [dataShort, length]), onRegion_held hold]
    unfold State.placeWrite
    rw [put]
  · intro s u r q n psn d g s1 bs s2 at_ hold take
    refine completes ?_
    rw [remoteRow_target at_, onRegion_held hold, take]
  · intro s u r q n psn d at_ data len fresh free
    refine completes ?_
    rw
      [remoteRow_target at_, State.checked_none (by simp [dataShort, data, len]), if_pos (.inl len), State.checked_none rfl, if_neg (by simp [free])]
    simp [len, fresh]
  · intro s u r q n psn op c new g s1 s2 old s3 s4 at_ row hold ledger load write
    have origin : q.origin = .remote n psn := at_.2.2.2.2.2.2.1
    simp only [List.mem_cons, Prod.mk.injEq, List.not_mem_nil, or_false] at row
    rcases row with ⟨rfl, rfl, rfl⟩ | ⟨rfl, rfl, rfl⟩ <;> refine completes ?_ <;> rw [remoteRow_target at_] <;>
      exact congrArg _ (atomicRow_done origin hold ledger load (.inl ⟨_, rfl, write⟩))
  · intro s u r q n psn g s1 s2 old s3 s4 at_ hold ledger load same write
    have origin : q.origin = .remote n psn := at_.2.2.2.2.2.2.1
    refine completes ?_
    rw [remoteRow_target at_, atomicRow_done origin hold ledger load (.inl ⟨_, if_pos same, write⟩)]
  · intro s u r q n psn g s1 s2 old s3 at_ hold ledger load differs reaches
    have origin : q.origin = .remote n psn := at_.2.2.2.2.2.2.1
    refine completes ?_
    rw [remoteRow_target at_, atomicRow_done origin hold ledger load (.inr ⟨if_neg differs, reaches, rfl⟩)]
  · intro s u r q n psn d g s1 s2 old s3 s4 at_ length hold ledger load same write
    have origin : q.origin = .remote n psn := at_.2.2.2.2.2.2.1
    have same' : (old == q.inlineData.take 16) = true := by simp [← same]
    refine completes ?_
    rw [remoteRow_target at_, State.checked_none (by simp [length]), atomicRow_done origin hold ledger load (.inl ⟨_, if_pos same', write⟩)]
    dsimp only
    rw [same']
    rfl
  · intro s u r q n psn g s1 bs s2 at_ len hold load
    refine completes ?_
    rw [remoteRow_target at_, State.checked_none (by simp [len]), len, onRegion_held hold, load]
    rfl

end Sys2Proof.Machine
end

section

/-! Attention requests, near-bank units, loan operations, merge contexts, touchstones and the search unit (chapters 4, 5, 6 and 8). -/

namespace Sys2Proof.Machine
open Sys2Proof

/-! ### Attention and units -/

/-- Settles O6: each check and each read of the row is passed in order. -/
theorem attendComplete : Obligations.AttendComplete := by
  refine ⟨?_, ?_⟩
  · intro s u r q tb s1 x g blk s2 ps runs fresh entry hu table rows seq kept geom geoms query pages
    subst hu
    refine completes ?_
    rw [State.runReq_runs runs, if_neg (by simp [fresh])]
    dsimp only
    rw [State.checked_none entry, table]
    dsimp only
    rw [State.checked_none rows, seq]
    dsimp only
    rw [if_neg (by simp [kept]), geom]
    dsimp only
    rw [State.checked_none geoms, query]
    dsimp only
    rw [pages]
  · intro s r q a found att busy held waits runs
    refine completes ?_
    simp [found, att, busy, held, waits, runs]

theorem tagHead_units (s : State) (p : Point) (t : Nat) (loan : Bool) (l : List Job) : (s.tagHead p t loan l).2.eng.units = s.eng.units :=
    by
  induction l with
  | nil => rfl
  | cons j js ih =>
    unfold State.tagHead
    split
    · rfl
    · exact ih

theorem nbUnit_of_units {s t : State} (units : t.eng.units = s.eng.units) (u : Nat) : t.nbUnit u = s.nbUnit u := by
  unfold State.nbUnit
  rw [units]

/-- A step that is cut owes what its unit owed, and is cut. -/
theorem cutStep_owed (s : State) (n : Nat) (j : Job) :
    ((s.cutStep n j).nbUnit n).owed = (s.nbUnit n).owed ∧ ((s.cutStep n j).nbUnit n).cut = true := by
  unfold State.cutStep
  dsimp only
  have marked : ∀ (v : State) (x : NbUnit), x.n = n → x.owed = (s.nbUnit n).owed ∧ x.cut = true →
      ((v.setNb x).nbUnit n).owed = (s.nbUnit n).owed ∧ ((v.setNb x).nbUnit n).cut = true := by
    intro v x hx h
    rw [nbUnit_setNb, if_pos hx.symm]
    exact h
  split
  · exact marked _ _ (nbUnit_n ..) ⟨rfl, rfl⟩
  · split
    · exact marked _ _ (nbUnit_n ..) (marked _ _ (nbUnit_n ..) ⟨rfl, rfl⟩)
    · refine marked _ _ (nbUnit_n ..) ?_
      dsimp only
      rw [nbUnit_of_units (tagHead_units ..)]
      exact marked _ _ (nbUnit_n ..) ⟨rfl, rfl⟩

/-- Settles O7: the rows of the units and of the attention cores. -/
theorem unitEventsComplete : Obligations.UnitEventsComplete := by
  refine ⟨?_, ?_, ?_, ?_⟩
  · intro s u j step runs
    refine completes ?_
    simp [step, runs]
  · intro s u j step few
    have owed : min maxOwed ((s.nbUnit u).owed + 1) = (s.nbUnit u).owed + 1 := by omega
    have row : exec (.refreshDue u) s = .next (s.setNb { s.nbUnit u with owed := (s.nbUnit u).owed + 1 }) := by
      refine congrArg Host.Outcome.next ?_
      simp only [step, owed]
      rw [if_neg (by omega)]
    refine ⟨_, row, ?_, fun v other => ?_, rfl⟩
    · rw [nbUnit_setNb, if_pos (nbUnit_n s u).symm]
    · rw [nbUnit_setNb, if_neg (by rw [nbUnit_n]; exact other)]
  · intro s u j step eighth whole
    have owed : min maxOwed ((s.nbUnit u).owed + 1) = maxOwed := by omega
    have row : exec (.refreshDue u) s = .next ((s.setNb { s.nbUnit u with owed := maxOwed }).cutStep u j) := by
      refine congrArg Host.Outcome.next ?_
      simp only [step, owed]
      rw [if_pos ⟨trivial, by simp [whole]⟩]
    obtain ⟨keeps, cut⟩ := cutStep_owed (s.setNb { s.nbUnit u with owed := maxOwed }) u j
    refine ⟨_, row, ?_, cut⟩
    rw [keeps, nbUnit_setNb, if_pos (nbUnit_n s u).symm]
  · intro s c j piece runs served
    refine completes ?_
    rw [piece]
    dsimp only
    rw [if_neg (by simp [runs, served])]

/-! ### Loan operations -/

/-- Settles O8: an operation's own row takes its request, and the end of its list writes or counts what it made. -/
theorem loanOperationsComplete : Obligations.LoanOperationsComplete := by
  refine ⟨?_, ?_, ?_⟩
  · intro s r q d s1 p s2 c op row runs own fresh loose checks desc plan
    have inRange : (decide (1 ≤ nbOp q.entry) && decide (nbOp q.entry ≤ 5)) = true ∧ exec c s = .next (s.nbRow r op) := by
      rw [own]
      simp only [List.mem_cons, Prod.mk.injEq, List.not_mem_nil, or_false] at row
      rcases row with ⟨rfl, rfl⟩ | ⟨rfl, rfl⟩ | ⟨rfl, rfl⟩ | ⟨rfl, rfl⟩ | ⟨rfl, rfl⟩ <;> exact ⟨rfl, rfl⟩
    obtain ⟨inRange, body⟩ := inRange
    rw [body]
    refine completes ?_
    unfold State.nbRow
    rw [runs.1]
    dsimp only
    rw [if_pos inRange]
    unfold State.nbExec
    rw [State.runReq_runs runs, if_neg (by simp [own, fresh]), if_neg (by simp [loose]), State.checked_none checks, desc]
    dsimp only
    rw [plan]
    rfl
  · intro s r q w found work done waits runs other
    refine completes ?_
    simp [found, work, done, waits, runs, other, LoanWork.result]
  · intro s r q w s' found work done waits runs gather out
    refine completes ?_
    simp [found, work, done, waits, runs, gather, out, LoanWork.result]

/-! ### Merge contexts -/

/-- Settles O9: the checks of each row are passed in order. -/
theorem mergeRowsComplete : Obligations.MergeRowsComplete := by
  refine ⟨?_, ?_, ?_, ?_, ?_⟩
  · intro s r q slot l s' runs fmt records manyRecords contrib manyContrib lowDv highDv evenDv result free frames
    refine ⟨_,
      { slot := slot, gen := max 1 (assocGet s'.gens.merges slot 0), tenant := q.tenant, comp := q.comp, result := moResult q.entry,
        records := moRecords q.entry, contribs := moContrib q.entry, dv := moDv q.entry, ofmt := moOfmt q.entry,
        counts := flag q.entry 347, normalise := flag q.entry 346, frames := l.map (·.2),
        deadline := s'.now + 1000 * if moTimeout q.entry = 0 then 1000000 else moTimeout q.entry },
      ?_, rfl, rfl, rfl, rfl, rfl, rfl, rfl, rfl, rfl, rfl, rfl, rfl⟩
    refine congrArg Host.Outcome.next ?_
    rw [State.runReq_runs runs]
    dsimp only
    rw [State.checked_none (by simp [evenDv, result]; omega), free]
    dsimp only
    rw [frames]
  · intro s r q dma x bs s1 s2 runs some_ aligned ctx known source merged
    refine completes ?_
    rw [State.runReq_runs runs]
    dsimp only
    rw [State.checked_none (by simp [aligned]; omega), ctx]
    simp only [Option.map_some, Option.getD_some, if_neg known]
    rw [source]
    dsimp only
    rw [merged]
  · intro s r q x runs ctx free
    refine completes ?_
    rw [State.runReq_runs runs, ctx]
    dsimp only
    rw [if_neg (by tauto)]
  · intro s r q x runs ctx
    refine completes ?_
    rw [State.runReq_runs runs, ctx]
  · intro s slot runs
    exact completes (if_pos runs)

/-! ### Touchstones -/

/-- Settles O10: the checks of each row are passed in order; an error marks the word before its block is rebuilt. -/
theorem touchstoneRowsComplete : Obligations.TouchstoneRowsComplete := by
  refine ⟨?_, ?_, ?_, ?_⟩
  · intro s r q x g runs names geom layers turn active pages here
    refine ⟨_, _, _, _, ?_, rfl, rfl⟩
    refine congrArg Host.Outcome.next ?_
    rw [State.runReq_runs runs, State.onSeq_names names, geom]
    dsimp only
    rw [State.checked_none (by simp [layers]), letIn_active active]
    dsimp only
    rw [State.turn_hasTurn turn, State.withPages_none pages, if_neg (by simp [here])]
  · intro s r q x g s' runs aligned some_ many names geom layer pages active reach write
    refine completes ?_
    rw [State.runReq_runs runs]
    dsimp only
    rw [State.checked_none (by simp [aligned]; omega), State.onSeq_names names, geom]
    dsimp only
    rw [State.checked_none (by simp; omega), letIn_active active]
    dsimp only
    rw [State.withPages_none reach]
    unfold State.store
    rw [write]
  · intro s n f w v ps u frame touch hv drawn
    refine completes ?_
    rw [frame]
    dsimp only
    rw [touch]
    dsimp only
    rw [← hv, drawn]
    rfl
  · intro s n f w v i v' gr frame touch hv drawn hgr
    refine ⟨_, _, ?_, rfl, rfl⟩
    refine congrArg Host.Outcome.next ?_
    rw [frame]
    dsimp only
    rw [touch]
    dsimp only
    rw [← hv, drawn, hgr]
    rfl

/-! ### The search unit -/

/-- Settles O11: the unit is fitted, and the checks of each row are passed in order; a variant without it ends the row with UNIT_ABSENT. -/
theorem prefixRowsComplete : Obligations.PrefixRowsComplete := by
  refine ⟨?_, ?_, ?_, ?_, ?_⟩
  · intro s r q x bank slot runs fitted names checks place
    obtain ⟨e, he⟩ : ∃ e : PsSlot, e = {
      bank := bank, slot := slot, gen := s.psGen bank slot, tenant := q.tenant,
      tag := psTag (piCkey q.entry) (piMkey q.entry), ckey := piCkey q.entry, mkey := piMkey q.entry, handle := x.handle,
      page := piPage q.entry } := ⟨_, rfl⟩
    have row : exec (.psInsert r) s = .next ((({ s with
        ps := e :: s.ps
        gens := { s.gens with prefixes := assocPut s.gens.prefixes (bank * psSlots + slot) (s.psGen bank slot) 0 } } : State).count
          0x6200 5).okReq q e.id) := by
      refine congrArg Host.Outcome.next ?_
      rw [PrefixLaws.psRow_runs runs fitted, State.onSeq_names names, State.checked_none checks]
      dsimp only
      rw [place, he]
    subst he
    exact ⟨_, _, row, rfl, rfl, rfl, rfl, rfl, rfl, rfl, rfl, rfl, State.ended_okReq runs.1 _, rfl, rfl⟩
  · intro s r q runs fitted live
    have row : exec (.psRemove r) s = .next ((s.psDrop fun e => e.id == prEntry q.entry && e.tenant == q.tenant).okReq q 0) := by
      refine congrArg Host.Outcome.next ?_
      rw [PrefixLaws.psRow_runs runs fitted]
      exact if_pos live
    exact ⟨_, row, State.ended_okReq runs.1 0, rfl, rfl, rfl⟩
  · intro s r q u bs s1 xs s2 runs fitted hu rAligned qAligned some_ many query result load answers write
    subst hu
    refine completes ?_
    rw [PrefixLaws.psRow_runs runs fitted]
    dsimp only
    rw [State.checked_none (by simp [rAligned, qAligned, query, result]; omega), load]
    dsimp only
    rw [← answers]
    unfold State.store
    rw [write]
  · intro s r q runs fitted
    have row : exec (.psPurge r) s = .next ((s.psDrop fun e => e.tenant == q.tenant && e.mkey == piMkey q.entry).okReq q
        (s.ps.filter fun e => e.tenant == q.tenant && e.mkey == piMkey q.entry).length) :=
      congrArg Host.Outcome.next (PrefixLaws.psRow_runs runs fitted _)
    exact ⟨_, row, State.ended_okReq runs.1 _, rfl, rfl⟩
  · intro s r q op c row runs absent
    have body : ∀ go, s.psRow r op go = s.endReq r .unitAbsent := fun go => by
      rw [State.psRow, State.runReq_runs runs, if_neg (by simp [absent])]
    have ends : exec c s = .next (s.endReq r .unitAbsent) := by
      simp only [List.mem_cons, Prod.mk.injEq, List.not_mem_nil, or_false] at row
      rcases row with ⟨rfl, rfl⟩ | ⟨rfl, rfl⟩ | ⟨rfl, rfl⟩ | ⟨rfl, rfl⟩ <;> exact congrArg Host.Outcome.next (body _)
    exact ⟨_, ends, State.ended_endReq runs.1 _ _, rfl⟩

end Sys2Proof.Machine
end

section

/-! Tier moves and migrations, waits at the lower tier, and swap frames (chapter 7). -/

namespace Sys2Proof.Machine
open Sys2Proof

/-- A frame in memory that nothing moves: no swap image, no migration, no allocation that stalls it. -/
structure State.Settled (s : State) (f : Frame) : Prop where
  resident : f.place.isSwap = false
  still : f.mig = none
  free : s.allocStalled f.num = false

/-- The frames that a TIER_MOVE would newly hold. -/
def newHolds (q : Req) (fs : List Frame) : List Frame :=
  if tmHold q.entry then fs.filter fun f => !f.held && !f.mig.any (·.hold) && (tmTarget q.entry == 0 || f.place.isUpper) else []

/-- The checks of a TIER_MOVE over settled frames are passed in order. -/
theorem tierMove_goes {s : State} {r : Nat} {q : Req} {targets : List Nat} {fs : List Frame} (runs : s.Runs r q opTIER_MOVE)
    (target : tmTarget q.entry ∈ targets) (loose : s.chained q (tmOrdered q.entry) = false)
    (frames : s.framesIn q.tenant (tmAddr q.entry) (tmLen q.entry) = fs) (settled : ∀ f ∈ fs, s.Settled f)
    (checks : firstFail (s.tierChecks q (newHolds q fs)) = none) (tables : s.tablesLost q.tenant (tmAddr q.entry) (tmLen q.entry) = false)
    (walks : s.mapsFail (s.mapsIn q.tenant (tmAddr q.entry) (tmLen q.entry)) = none) (go : Req → List Frame → Nat → State → State) :
    s.tierMove r targets go = go q fs 0 s := by
  have resident : (fs.filter fun f => !f.place.isSwap) = fs := List.filter_eq_self.mpr fun f hf => by simp [(settled f hf).resident]
  have still : (fs.any fun f => f.mig.isSome || s.allocStalled f.num) = false := by
    simp only [List.any_eq_false, Bool.or_eq_true, not_or]
    exact fun f hf => by simp [(settled f hf).still, (settled f hf).free]
  unfold State.tierMove
  rw [State.runReq_runs runs, if_neg (by simp [target]), if_neg (by simp [loose])]
  dsimp only
  rw [frames, resident, State.checked_none (by exact checks), State.withTables_ok tables, walks]
  dsimp only
  rw [if_neg (by simp [still]), Nat.sub_self]

theorem newHolds_none (q : Req) {fs : List Frame} (none_ : fs = [] ∨ tmHold q.entry = false) : newHolds q fs = [] := by
  unfold newHolds
  rcases none_ with rfl | off
  · simp
  · simp [off]

/-- Settles O12: a TIER_MOVE over no frame or one that is settled; heat, demotion, promotion, the switch and the images of the lower tier. -/
theorem tierRowsComplete : Obligations.TierRowsComplete := by
  refine ⟨?_, ?_, ?_, ?_, ?_, ?_, ?_, ?_, ?_, ?_, ?_⟩
  · intro s r q c targets row runs target loose frames checks tables walks
    have checks' : firstFail (s.tierChecks q (newHolds q [])) = none := by rw [newHolds_none q (.inl rfl)]; exact checks
    have goes := tierMove_goes runs target loose frames (by simp) checks' tables walks
    have ends : exec c s = .next (s.okReq q 0) := by
      simp only [List.mem_cons, Prod.mk.injEq, List.not_mem_nil, or_false] at row
      rcases row with ⟨rfl, rfl⟩ | ⟨rfl, rfl⟩ | ⟨rfl, rfl⟩
      · exact congrArg Host.Outcome.next ((goes _).trans (by simp [startMoves, State.tierBegun]))
      · exact congrArg Host.Outcome.next ((goes _).trans (by simp [startMoves, State.tierBegun]))
      · exact congrArg Host.Outcome.next ((goes _).trans (by simp [State.tierBegun]))
    exact ⟨_, ends, State.ended_okReq runs.1 0, rfl⟩
  · intro s r q f s' runs target loose frames lower resident still free holds checks tables walks start
    have checks' : firstFail (s.tierChecks q (newHolds q [f])) = none := by rw [newHolds_none q (.inr holds)]; exact checks
    refine completes ?_
    rw [tierMove_goes runs (by simp [target]) loose frames (by simpa using ⟨resident, still, free⟩) checks' tables walks]
    simp [lower, holds, startMoves, start, State.tierBegun]
  · intro s r q f s' runs target loose frames upper resident still free kind holds checks tables walks start
    have checks' : firstFail (s.tierChecks q (newHolds q [f])) = none := by rw [newHolds_none q (.inr holds)]; exact checks
    refine completes ?_
    rw [tierMove_goes runs (by simp [target]) loose frames (by simpa using ⟨resident, still, free⟩) checks' tables walks]
    simp [upper, kind, startMoves, start, State.tierBegun]
  · intro s r q f runs target loose frames upper resident still free holds loose' checks tables walks
    have checks' : firstFail (s.tierChecks q (newHolds q [f])) = none := by simpa [newHolds, holds, loose', still, upper] using checks
    have row : exec (.tierMoveHold r) s = .next ((s.modFrame f.num fun f => { f with held := true }).okReq q 1) := by
      refine congrArg Host.Outcome.next ?_
      rw [tierMove_goes runs (by simp [target]) loose frames (by simpa using ⟨resident, still, free⟩) checks' tables walks]
      simp [upper, loose', holds, State.tierBegun]
    exact ⟨_, row, State.ended_okReq (s := s.modFrame ..) runs.1 1, rfl⟩
  · exact fun s => ⟨_, rfl, rfl, rfl⟩
  · intro s runs due
    exact completes (if_pos ⟨runs, due⟩)
  · intro s n f s' frame runs fitted share lower still whole heat free room start
    refine completes ?_
    rw [frame]
    dsimp only
    rw [if_neg (by simp [runs, fitted, share, lower, still, whole, heat, free]), if_pos room, start, Option.getD_some]
  · intro s n f m frame mig own free resident served passed fits
    refine completes ?_
    rw [frame]
    dsimp only
    rw [mig]
    dsimp only
    have clean : ¬((!m.moved) = true ∧ (!m.dirty.isEmpty) = true ∧ m.passes ≤ copyPasses) := by
      rintro ⟨h1, h2, h3⟩
      rcases passed with p | p | p
      · simp [p] at h1
      · simp [p] at h2
      · omega
    rw [if_neg (by simp [own, free, resident, served]), if_neg clean, if_pos fits]
  · intro s n f m frame mig own free resident served here dirty few
    refine completes ?_
    rw [frame]
    dsimp only
    rw [mig]
    dsimp only
    rw [if_neg (by simp [own, free, resident, served]), if_pos (by simp [here, dirty, few])]
  · intro s n f off bs s' frame lower inside reads write
    refine completes ?_
    rw [frame]
    dsimp only
    rw [if_neg (by simp [lower, reads, inside]), write]
  · intro s n f s' frame due still free compact
    refine completes ?_
    simp [frame, due, still, free, compact]

/-! ### Waits -/

/-- Settles O13: each wait ends as its row says. -/
theorem tierWaitsComplete : Obligations.TierWaitsComplete := by
  refine ⟨?_, ?_, ?_, ?_, ?_, ?_, ?_, ?_⟩
  · intro s r q found waits
    have row : exec (.lowerSectorWaitEnd (.request r)) s = .next (s.modReq r fun q => { q with phase := .started }) := by
      refine congrArg Host.Outcome.next ?_
      simp [found, waits]
    exact ⟨_, row, s.req_modReq found _ fun _ => rfl, rfl⟩
  · intro s u v a l stores hu hv
    have row : exec (.lowerSectorWaitEnd .host) s =
        .next (if v.eng.stores.isEmpty then v.serveHeld l else { v with eng := { v.eng with stores := v.eng.stores ++ l } }) := by
      refine congrArg Host.Outcome.next ?_
      dsimp only
      rw [stores, State.serveHeld, ← hu, ← hv]
    refine ⟨_, row, fun none_ => ?_, fun some_ => ?_⟩
    · rw [if_pos (by simp [none_])]
    · rw [if_neg (by simp [some_])]
  · intro s r q found runs fitted live reads
    refine completes ?_
    simp [found, runs, fitted, live, reads]
  · intro s ld hpa runs up
    refine completes ?_
    simp [runs, up]
  · intro s k n key r runs
    refine completes ?_
    simp [runs]
  · intro s i x d stall
    refine completes ?_
    simp [stall]
  · intro s i x d stall few
    have row : exec (.privilegedReadRetry i false d) s = .next (s.modMem fun m =>
        { m with stalls := modWhere (·.id == i) (fun x => { x with attempts := x.attempts + 1 }) m.stalls }) := by
      refine congrArg Host.Outcome.next ?_
      rw [stall]
      dsimp only
      rw [if_neg Bool.false_ne_true, if_neg (by omega)]
    refine ⟨_, row, ?_, rfl⟩
    refine (find_modWhere _ _ (fun x hx => by simpa using hx) _).trans ?_
    rw [stall]
    rfl
  · intro s i x d stall many
    refine completes ?_
    rw [stall]
    dsimp only
    rw [if_neg Bool.false_ne_true, if_pos many]

/-! ### Swap frames -/

/-- Settles O14: the frame and its owner are found, and the row's conditions hold. -/
theorem swapRowsComplete : Obligations.SwapRowsComplete := by
  refine ⟨?_, ?_, ?_, ?_, ?_⟩
  · intro s n f q l p a k s' frame owner run resident leaving whole hs
    refine completes ?_
    rw [frame, owner]
    dsimp only
    rw [run]
    dsimp only
    rw [if_neg (by simp [resident, leaving, whole]), ← hs]
  · intro s n f q l p frame owner run resident leaving
    refine completes ?_
    rw [frame, owner]
    exact if_pos ⟨run, by simp [resident], leaving⟩
  · intro s n f q l p hdr frame owner runs swapped reading whole good
    refine completes ?_
    rw [frame, owner]
    dsimp only
    rw [if_neg (by simp [runs, swapped, reading, whole]), if_pos (by simp [good])]
  · intro s n f q l p hdr frame owner runs swapped reading whole
    refine completes ?_
    rw [frame, owner]
    dsimp only
    rw [if_neg (by simp [runs, swapped, reading, whole]), if_neg (by simp)]
  · intro s n f q l p frame owner swapped reading
    refine completes ?_
    rw [frame, owner]
    exact if_pos ⟨swapped, reading⟩

end Sys2Proof.Machine
end

section

/-! Management packets, the transport's timers, the life of connections, and ports (chapter 9). -/

namespace Sys2Proof.Machine
open Sys2Proof

/-! ### Packets -/

theorem heard_conns (s : State) (p : Packet) : (s.heard p).fab.conns = s.fab.conns := by
  obtain ⟨o, b, h⟩ := heard_only s p
  rw [h]

theorem heard_reqs (s : State) (p : Packet) : (s.heard p).reqs = s.reqs := by
  obtain ⟨o, b, h⟩ := heard_only s p
  rw [h]

/-- Settles O16: the packet is heard and taken, and finds the connection or the composition that it names. -/
theorem managementPacketsComplete : Obligations.ManagementPacketsComplete := by
  refine ⟨?_, ?_, ?_, ?_, ?_, ?_⟩
  · intro s p arrives
    refine ⟨_, congrArg Host.Outcome.next (receive_arrives arrives _), ?_, heard_conns s p, heard_reqs s p⟩
    exact List.lookup_cons_self
  · intro s p k arrives new comp checks
    refine completes ?_
    rw [receive_arrives arrives]
    dsimp only
    rw [new]
    dsimp only
    rw [comp]
    dsimp only
    rw [checks]
  · intro s p c r arrives conn state peer id ok req
    refine completes ?_
    rw [receive_arrives arrives]
    dsimp only
    rw [conn]
    dsimp only
    rw [if_neg (by simp [state, peer, id]), if_pos ok, req]
  · intro s p c arrives conn peer tenant state
    refine completes ?_
    rw [receive_arrives arrives]
    dsimp only
    rw [conn]
    dsimp only
    rw [if_neg (by simp [peer, tenant]), state]
  · intro s p c arrives conn
    refine completes ?_
    rw [receive_arrives arrives]
    dsimp only
    rw [conn]
  · intro s n fitted on
    exact completes (if_pos ⟨fitted, on⟩)

/-! ### Timers -/

theorem timerRetry_within {s : State} {q : Req} {o : RemoteOp} (left : o.retries < retryBudget) (go : State → State) :
    s.timerRetry q o go = go (s.modRemote q.id fun x => { x with retries := x.retries + 1 }) := if_neg (Nat.not_le.mpr left)

/-- A place where KEEPALIVE goes: node, MAC and IP. -/
abbrev samePlace (x y : Nat × BitVec 48 × BitVec 128 × Nat) : Bool := y.1 == x.1 && y.2.1 == x.2.1 && y.2.2.1 == x.2.2.1

/-- Leaving out what goes to a place already listed leaves one of each place. -/
theorem foldl_places (all l : List (Nat × BitVec 48 × BitVec 128 × Nat)) {x : Nat × BitVec 48 × BitVec 128 × Nat} (mem : x ∈ l ∨ x ∈ all) :
    ∃ y ∈ all.foldl (fun l x => if l.any fun y => y.1 == x.1 && y.2.1 == x.2.1 && y.2.2.1 == x.2.2.1 then l else l ++ [x]) l,
      samePlace x y = true := by
  have kept : ∀ (all l : List (Nat × BitVec 48 × BitVec 128 × Nat)) y, y ∈ l →
      y ∈ all.foldl (fun l x => if l.any fun y => y.1 == x.1 && y.2.1 == x.2.1 && y.2.2.1 == x.2.2.1 then l else l ++ [x]) l := by
    intro all
    induction all with
    | nil => exact fun _ _ h => h
    | cons z all ih =>
      intro l y hy
      rw [List.foldl_cons]
      apply ih
      split
      · exact hy
      · exact List.mem_append_left _ hy
  induction all generalizing l with
  | nil =>
    rcases mem with mem | mem
    · exact ⟨x, mem, by simp⟩
    · cases mem
  | cons z all ih =>
    rw [List.foldl_cons]
    rcases mem with mem | mem
    · refine ih _ (.inl ?_)
      split
      · exact mem
      · exact List.mem_append_left _ mem
    · rcases List.mem_cons.mp mem with rfl | mem
      · split
        next known =>
          obtain ⟨y, hy, same⟩ := List.any_eq_true.mp known
          exact ⟨y, kept all l y hy, same⟩
        · exact ⟨x, kept all _ x (by simp), by simp⟩
      · exact ih _ (.inr mem)

/-- A live port's idle paths of open connections are among the places that KEEPALIVE goes to. -/
theorem keepaliveTo_idle {s : State} {n : Nat} {c : Conn} {x : Path} (conn : c ∈ s.fab.conns) (path : x ∈ c.paths)
    (live : s.portLive n = true) (state : c.state = .opened) (port : x.port = n)
    (idle : ∀ d ∈ s.fab.conns, ∀ y ∈ d.paths, y.port = n → y.mac = x.mac → y.ip = x.ip → y.used + s.scalar 0x3210 0xE ≤ s.now) :
    ∃ k, (c.peer, x.mac, x.ip, k) ∈ s.keepaliveTo n := by
  have notBanked : s.portStatus n ≠ .banked := by
    intro banked
    simp [State.portLive, banked] at live
  unfold State.keepaliveTo
  dsimp only
  rw [if_neg notBanked, if_pos live]
  have quiet : (s.fab.conns.all fun c => c.paths.all fun y => !y.joins n x.mac x.ip || decide (y.used + s.scalar 0x3210 0xE ≤ s.now)) =
    true := by
    simp only [List.all_eq_true, Bool.or_eq_true, Bool.not_eq_eq_eq_not, Bool.not_true, decide_eq_true_eq]
    intro d hd y hy
    by_cases joins : y.joins n x.mac x.ip = true
    · simp only [Path.joins, Bool.and_eq_true, beq_iff_eq] at joins
      exact .inr (idle d hd y hy joins.1.1 joins.1.2 joins.2)
    · exact .inl (by simpa using joins)
  have listed : (c.peer, x.mac, x.ip, c.comp) ∈ (s.fab.conns.filter (·.state == .opened)).flatMap fun c =>
      (c.paths.filter fun x => x.port == n && s.fab.conns.all fun c => c.paths.all fun y =>
        !y.joins n x.mac x.ip || decide (y.used + s.scalar 0x3210 0xE ≤ s.now)).map fun x => (c.peer, x.mac, x.ip, c.comp) := by
    refine List.mem_flatMap.mpr ⟨c, by simp [conn, state], List.mem_map.mpr ⟨x, ?_, rfl⟩⟩
    exact List.mem_filter.mpr ⟨path, by simp only [port, beq_self_eq_true, quiet, Bool.and_self]⟩
  obtain ⟨⟨node, mac, ip, k⟩, mem, same⟩ := foldl_places _ [] (.inr listed)
  simp only [samePlace, Bool.and_eq_true, beq_iff_eq] at same
  obtain ⟨⟨rfl, rfl⟩, rfl⟩ := same
  exact ⟨k, mem⟩

/-- Settles O17: the timer's connection or request is there, and its budget is not spent. -/
theorem transportTimersComplete : Obligations.TransportTimersComplete := by
  refine ⟨?_, ?_, ?_, ?_, ?_, ?_, ?_, ?_, ?_, ?_, ?_⟩
  · intro s n sp psn c o conn out runs bare few
    refine completes ?_
    rw [conn]
    dsimp only
    rw [out]
    dsimp only
    rw [if_neg (by simp [runs]), bare]
    exact if_neg (Nat.not_le.mpr few)
  · intro s r q o c found remote conn live runs sent idle quiet few
    refine completes ?_
    rw [found]
    dsimp only
    rw [remote]
    dsimp only
    rw [conn]
    dsimp only
    have noPacket : ((c.sreq.outs ++ c.smerge.outs ++ c.loose).any fun x => x.req == some r) = false := by
      simp only [List.any_eq_false, beq_iff_eq]
      exact quiet
    rw [if_neg (by simp only [noPacket]; simp [live, runs, sent, idle]), timerRetry_within few]
  · intro s n sp c conn runs state some_ space
    refine completes ?_
    rw [conn]
    dsimp only
    rw [if_neg (by simp [runs, state]), if_pos some_, if_neg (by simp [space])]
  · intro s n c port mac ip conn
    refine ⟨_, rfl, (conn_modConn conn _ fun x => by split <;> rfl).trans ?_⟩
    rw [if_pos rfl]
    unfold modWhere
    simp only [Path.joins, Bool.and_eq_true, beq_iff_eq, and_assoc]
    rfl
  · intro s n i c conn
    exact ⟨_, rfl, conn_modConn conn _ fun _ => rfl⟩
  · intro s n c conn asking held runs
    refine completes ?_
    rw [conn]
    exact if_pos ⟨asking, held, runs⟩
  · intro s r q o found remote live runs back
    refine completes ?_
    simp [found, remote, live, runs, back]
  · intro s r q o psn rest found remote live runs front resends few
    refine completes ?_
    rw [found]
    dsimp only
    rw [remote]
    dsimp only
    rw [if_neg (by simp [live, runs]), if_neg (by simp [front]), resends]
    exact timerRetry_within few _
  · exact fun s n m => completes rfl
  · exact fun s n c conn x path live state port idle => keepaliveTo_idle conn path live state port idle
  · intro s n nodup
    refine ⟨_, rfl, nodup.not_mem_erase, fun m other => List.mem_erase_of_ne other, rfl⟩

/-! ### Connections and ports -/

/-- Settles O18: the connection stands in the state of its timer; a port's row finds it powered and fitted. -/
theorem connectionTimersComplete : Obligations.ConnectionTimersComplete := by
  refine ⟨?_, ?_, ?_, ?_, ?_, ?_, ?_, ?_, ?_, ?_⟩
  · intro s n c conn state few
    refine completes ?_
    rw [conn]
    dsimp only
    rw [if_neg (by simp [state]), if_neg (by omega)]
  · intro s n c conn state many
    refine completes ?_
    rw [conn]
    dsimp only
    rw [if_neg (by simp [state]), if_pos many]
  · intro s n c conn state some_ few
    refine completes ?_
    rw [conn]
    dsimp only
    rw [if_neg (by simp [state]; omega), if_neg (by omega)]
  · intro s n c conn state some_ many
    refine completes ?_
    rw [conn]
    dsimp only
    rw [if_neg (by simp [state]; omega), if_pos many]
  · intro s n c conn state
    refine completes ?_
    rw [conn]
    exact if_pos state
  · intro s n
    refine ⟨_, rfl, fun x mem => ?_, fun x mem other => ?_, rfl⟩
    · simpa [dropWhere] using (List.mem_filter.mp mem).2
    · exact List.mem_filter.mpr ⟨mem, by simpa using other⟩
  · intro s n c conn state few
    refine completes ?_
    rw [conn]
    dsimp only
    rw [if_neg (by simp [state]; omega)]
  · intro s n u on fitted service fabref hu loose wide
    subst hu
    refine completes ?_
    rw [if_neg (by simp [on, service, fabref, fitted])]
    dsimp only
    rw [if_neg (by simp [loose]), wide]
    rfl
  · intro s n on fitted
    refine completes ?_
    rw [if_neg (by simp [on, fitted])]
    rfl
  · intro s n l on fitted some_
    refine completes ?_
    rw [if_neg (by simp [on, fitted])]
    dsimp only
    rw [if_neg some_]

end Sys2Proof.Machine
end

section

/-! Order on a queue, connections and regions, the remote window, loans, and host accesses (chapters 10, 11 and 12). -/

namespace Sys2Proof.Machine
open Sys2Proof

/-- Settles O20: the row's condition decides whether the request waits. -/
theorem queueOrderComplete : Obligations.QueueOrderComplete := by
  refine ⟨?_, ?_, ?_, ?_, ?_⟩
  · intro s r q runs quiet
    have row : exec (.fence r) s = .next (s.okReq q q.after.length) := by
      refine congrArg Host.Outcome.next ?_
      rw [State.runReq_runs runs, if_neg (by simp [quiet])]
    exact ⟨_, row, State.ended_okReq runs.1 _, rfl⟩
  · intro s r q runs busy
    have row : exec (.fence r) s = .next (s.waitReq r .queueFence) := by
      refine congrArg Host.Outcome.next ?_
      rw [State.runReq_runs runs, if_pos busy]
    exact ⟨_, row, State.waits_waitReq runs.1 _, rfl⟩
  · intro s r q w runs queue own live reached
    have row : exec (.waitCount r) s = .next (s.okReq q w.ended) := by
      refine congrArg Host.Outcome.next ?_
      rw [State.runReq_runs runs, queue]
      dsimp only
      rw [if_neg (by simp [own, live]), if_pos reached]
    exact ⟨_, row, State.ended_okReq runs.1 _, rfl⟩
  · intro s r q w runs queue own live short
    have row : exec (.waitCount r) s = .next (s.waitReq r .waitCount) := by
      refine congrArg Host.Outcome.next ?_
      rw [State.runReq_runs runs, queue]
      dsimp only
      rw [if_neg (by simp [own, live]), if_neg (Nat.not_le.mpr short)]
    exact ⟨_, row, State.waits_waitReq runs.1 _, rfl⟩
  · intro s r q n found origin waits runs keep
    have row : exec (.waitCountTimeout r) s = .next (s.endReq r .timeout (s.watched q.entry)) := by
      refine congrArg Host.Outcome.next ?_
      rw [found]
      dsimp only
      rw [origin]
      dsimp only
      rw [if_pos ⟨waits, runs⟩, if_neg (by simp [keep])]
    exact ⟨_, row, State.ended_endReq found _ _, rfl⟩

/-! ### Connections and regions -/

theorem freeRegion_region (s : State) (slot : Nat) : (s.freeRegion slot).fab.regions.find? (·.slot == slot) = none := find_dropWhere _ _

/-- Settles O22: the checks of each row are passed; a region that is freed is in its slot no more. -/
theorem connectAndRegionComplete : Obligations.ConnectAndRegionComplete := by
  refine ⟨?_, ?_, ?_, ?_, ?_, ?_, ?_⟩
  · intro s r q c n runs checks comp run
    refine completes ?_
    rw [State.runReq_runs runs, State.checked_none checks, comp, run]
  · intro s r q c runs conn own state
    refine completes ?_
    rw [State.runReq_runs runs, conn]
    dsimp only
    rw [if_neg (by simp [own, state])]
  · intro s r q slot runs checks free
    have row : exec (.reg r) s = .next ((({ s with
        fab := { s.fab with regions := s.fab.regions ++ [regionOf q.tenant q.entry slot (s.regionGen slot).gen] } } : State).setRegionGen
          (s.regionGen slot)).okReq q (slot * 256 + (s.regionGen slot).gen)) := by
      refine congrArg Host.Outcome.next ?_
      rw [State.runReq_runs runs, State.checked_none checks, free]
    exact ⟨_, row, State.ended_okReq runs.1 _, rfl, rfl⟩
  · intro s r q g runs fresh region key gen own unused
    have row : exec (.revoke r) s = .next (((s.advanceRegion g).freeRegion (rvKey q.entry / 256)).okReq q 0) := by
      refine congrArg Host.Outcome.next ?_
      rw [State.runReq_runs runs]
      dsimp only
      rw [if_neg (by simp [fresh]), region]
      dsimp only
      rw [if_pos ⟨key, gen, own⟩, if_pos unused]
    exact ⟨_, row, State.ended_okReq runs.1 _, freeRegion_region _ _⟩
  · intro s r q g runs fresh region key gen own used
    refine completes ?_
    rw [State.runReq_runs runs]
    dsimp only
    rw [if_neg (by simp [fresh]), region]
    dsimp only
    rw [if_pos ⟨key, gen, own⟩, if_neg (by omega)]
  · intro s n c s1 u v conn fetching dma room hu hv
    refine completes ?_
    rw [conn]
    dsimp only
    rw [if_neg (by simp [fetching, dma]), room]
    dsimp only
    rw [← hu, ← hv]
  · intro s d c evict full fetching
    refine completes ?_
    rw [evict]
    exact if_pos ⟨full, fetching⟩

/-! ### The window -/

/-- An access to a bound slot of the aperture waits for its queue pair. -/
theorem winAccess_bound {s : State} {ld n a : Nat} {w : Window} {ap : Aperture} (aperture : s.windowAperture ld n = some ap)
    (inside : a < ap.length) (on : s.node.powered = true) (runs : s.coreRuns = true) (bound : s.window n (winSlot a) = some w)
    (wr : Option (BitVec 512)) :
    s.winAccess ld n a wr = ({ s.count 0x6400 (if wr.isSome then 0xB else 0xA) with
      fab := { s.fab with
        winOps := s.fab.winOps ++ [{ id := s.fab.nextWin, ld := ld, tenant := n, qp := w.qpFor (winOff a), dpa := ap.base + a, addr := a,
                                     slot := w.slot, rbase := w.rbase, rkey := w.rkey, write := wr }],
        nextWin := s.fab.nextWin + 1 } } : State).winPump := by
  have bound' : ∀ c, (s.count 0x6400 c).window n (winSlot a) = some w := fun _ => bound
  unfold State.winAccess
  rw [aperture]
  dsimp only
  rw [if_neg (by simp [on, inside]), if_neg (by simp [runs]), bound']
  rfl

theorem window_setWindow (s : State) (t slot : Nat) {w : Option Window} (own : ∀ x ∈ w, x.tenant = t ∧ x.slot = slot) :
    (s.setWindow t slot w).window t slot = w := by
  unfold State.setWindow State.window
  cases w with
  | none => exact find_dropWhere _ _
  | some x =>
    obtain ⟨tenant, at_⟩ := own x rfl
    exact List.find?_cons_of_pos (by simp [tenant, at_])

/-- What a WIN_BIND puts into its slot. -/
def boundWindow (q : Req) : Option Window :=
  if wbNqp q.entry = 0 then none else some ⟨q.tenant, wbSlot q.entry, wbRbase q.entry, wbRkey q.entry, wbQp0 q.entry, wbNqp q.entry⟩

theorem boundWindow_own (q : Req) : ∀ x ∈ boundWindow q, x.tenant = q.tenant ∧ x.slot = wbSlot q.entry := by
  unfold boundWindow
  split <;> simp

/-- A WIN_BIND of a slot without an operation ends at once. -/
theorem exec_winBind {s : State} {r : Nat} {q : Req} (runs : s.Runs r q opWIN_BIND) (fresh : q.accepted = false)
    (aligned : wbRbase q.entry % 64 = 0) (many : wbNqp q.entry ≤ 16)
    (qps : wbNqp q.entry = 0 ∨ s.windowQps q.tenant (wbQp0 q.entry) (wbNqp q.entry) = true)
    (idle : ∀ o ∈ s.fab.winOps, ¬ (o.tenant = q.tenant ∧ o.slot = wbSlot q.entry)) :
    exec (.winBind r) s = .next ((s.setWindow q.tenant (wbSlot q.entry) (boundWindow q)).okReq q 0) := by
  have noOps : (s.fab.winOps.filter fun o => o.tenant == q.tenant && o.slot == wbSlot q.entry) = [] :=
    List.filter_eq_nil_iff.mpr fun o ho => by simpa using idle o ho
  refine congrArg Host.Outcome.next ?_
  rw [State.runReq_runs runs]
  dsimp only
  rw [if_neg (by simp [fresh]), State.checked_none (by rcases qps with h | h <;> simp [aligned, many, h]), noOps]
  rfl

/-- Settles O23: the slot is bound or emptied; an access to a bound slot is taken; a late read is undefined. -/
theorem windowRowsComplete : Obligations.WindowRowsComplete := by
  refine ⟨?_, ?_, ?_, ?_, ?_⟩
  · intro s r q runs fresh aligned none_ idle
    have window := window_setWindow s q.tenant (wbSlot q.entry) (boundWindow_own q)
    refine ⟨_, exec_winBind runs fresh aligned (by omega) (.inl none_) idle, State.ended_okReq (s := s.setWindow ..) runs.1 0, ?_⟩
    exact window.trans (if_pos none_)
  · intro s r q runs fresh aligned some_ many qps idle
    have window := window_setWindow s q.tenant (wbSlot q.entry) (boundWindow_own q)
    refine ⟨_, exec_winBind runs fresh aligned many (.inr qps) idle, State.ended_okReq (s := s.setWindow ..) runs.1 0, ?_⟩
    exact window.trans (if_neg some_.ne')
  · intro s ld n a x w ap c wr ctr row aperture inside on runs bound
    simp only [List.mem_cons, Prod.mk.injEq, List.not_mem_nil, or_false] at row
    rcases row with ⟨rfl, rfl, rfl⟩ | ⟨rfl, rfl, rfl⟩
    · exact completes (winAccess_bound aperture inside on runs bound none)
    · exact completes (winAccess_bound aperture inside on runs bound (some x))
  · intro s ld n on own
    refine completes ?_
    rw [if_neg (by simp [on]), if_neg (by simp [own])]
  · intro s i o op read late taken
    refine completes ?_
    rw [op]
    dsimp only
    rw [if_neg (by simp [read, late]), if_pos taken]

/-! ### Loans -/

/-- Settles O24: each row finds its loan, tenant or composition in the state that it takes. -/
theorem loanRowsComplete : Obligations.LoanRowsComplete := by
  refine ⟨?_, ?_, ?_, ?_, ?_, ?_, ?_, ?_⟩
  · intro s r q c runs checks loan
    refine completes ?_
    rw [State.runReq_runs runs, State.checked_none checks, loan]
  · intro s r q c runs fresh checks loan terms
    refine completes ?_
    rw [runs.1]
    dsimp only
    rw [if_neg (by simp [fresh]), State.runReq_runs runs, State.checked_none checks, loan]
    dsimp only
    rw [State.checked_none terms]
  · intro s r q found op taken live runs
    refine completes ?_
    rw [found]
    dsimp only
    rw [if_pos ⟨op, taken, live⟩, if_pos runs]
  · intro s k c comp state runs
    refine completes ?_
    rw [comp]
    exact if_pos ⟨state, runs⟩
  · intro s n x tenant state runs
    refine ⟨_, _, ?_, rfl, rfl⟩
    refine congrArg Host.Outcome.next ?_
    rw [tenant]
    dsimp only
    rw [if_neg (by simp [state, runs])]
  · intro s k c comp on state unused
    have row : exec (.compositionFreed k) s = .next (s.freeComp k) := by
      refine congrArg Host.Outcome.next ?_
      rw [comp]
      exact if_pos ⟨on, state, unused⟩
    exact ⟨_, row, rfl, comp_find_drop s k⟩
  · intro s k c m comp old on unused
    refine completes ?_
    rw [comp, Option.bind_some, old]
    exact if_pos ⟨on, unused⟩
  · intro s on
    exact completes (if_pos on)

/-! ### Host accesses -/

/-- Settles O25: the link carries the access and a decoder holds its address. -/
theorem cxlAccessComplete : Obligations.CxlAccessComplete := by
  have decoded : ∀ (s : State) ld hpa dpa w, (s.ld ld).decode hpa = some dpa → s.cxlAccess ld hpa w = s.dpaAccess ld dpa w := by
    intro s ld hpa dpa w decode
    unfold State.cxlAccess
    rw [decode]
  refine ⟨?_, ?_, ?_, ?_, ?_⟩
  · intro s ld hpa dpa up decode
    exact completes ((if_pos up).trans (decoded s ld hpa dpa none decode))
  · intro s ld hpa dpa x up decode
    refine completes ?_
    rw [if_neg (by simp [up]), if_neg Bool.false_ne_true]
    exact decoded s ld hpa dpa (some x) decode
  · intro s ld hpa dpa x up decode
    refine completes ?_
    rw [if_neg (by simp [up]), if_pos rfl, decode]
  · intro s ld d b n k w present small ok
    exact completes (if_pos ⟨present, small, ok⟩)
  · intro s ld d b n k w present small bad free
    refine completes ?_
    rw [if_neg (by simp [bad]), if_pos ⟨present, small, by simp only [free]; rfl⟩]

end Sys2Proof.Machine
end

section

/-! Mailbox commands, firmware commands, DOE and assay (chapters 12 and 15). -/

namespace Sys2Proof.Machine
open Sys2Proof

/-! ### Standard commands -/

theorem mailboxRow_up {s : State} {ld op : Nat} (up : s.linkCarries ld = true) (go : State → State) :
    s.mailboxRow ld op go = go (s.mboxTake ld op) := if_pos up

theorem mboxReport_up {s : State} {ld op : Nat} (up : s.linkCarries ld = true) (vs : List Nat) :
    s.mboxReport ld op vs = (s.mboxTake ld op).mbox ld rcSuccess (Config.cxlPayload op vs) := by
  unfold State.mboxReport
  rw [mailboxRow_up up, List.append_nil]

/-- Settles O26: a command that the link carries is answered, as its operands stand. -/
theorem mailboxStandardComplete : Obligations.MailboxStandardComplete := by
  refine ⟨?_, ?_, ?_, ?_, ?_, ?_, ?_, ?_, ?_, ?_, ?_, ?_, ?_⟩
  · intro s ld up
    refine ⟨completes (mboxReport_up up _), completes (mboxReport_up up _), completes (mboxReport_up up _), completes (mboxReport_up up _),
      completes (mailboxRow_up up _), completes (mboxReport_up up _), completes (mboxReport_up up _), ?_⟩
    exact ⟨_, _, congrArg Host.Outcome.next (mailboxRow_up up _), rfl, rfl⟩
  · intro s ld up idle
    refine completes ?_
    rw [idle]
    exact mboxReport_up up _
  · intro s ld b up work running
    refine completes ?_
    rw [work]
    simp only [Option.map_some, Option.getD_some, Background.bytes, running, Bool.false_eq_true, if_false]
    exact mboxReport_up up _
  · intro s ld b st up work done status
    refine completes ?_
    rw [work]
    simp only [Option.map_some, Option.getD_some, Background.bytes, done, if_true, status]
    exact mailboxRow_up up _
  · intro s ld v up
    exact ⟨_, congrArg Host.Outcome.next (mailboxRow_up up _), rfl, rfl⟩
  · intro s ld off n up inside
    exact completes ((mailboxRow_up up _).trans (if_pos inside))
  · intro s ld k up known
    refine completes ((mailboxRow_up up _).trans ?_)
    rw [if_neg (Nat.not_lt.mpr known)]
    dsimp only
    rw [mboxTake_log]
  · intro s ld k hs up known
    exact completes ((mailboxRow_up up _).trans (if_neg (Nat.not_lt.mpr known)))
  · intro s ld k hs up known held
    refine completes ((mailboxRow_up up _).trans ?_)
    have all : (hs.all fun h => (s.ld ld).log.any fun r => r.log == k && r.handle == h) = true := by
      simp only [List.all_eq_true, List.any_eq_true, Bool.and_eq_true, beq_iff_eq]
      exact held
    rw [if_neg (Nat.not_lt.mpr known), if_neg Bool.false_ne_true, if_neg]
    rw [mboxTake_log, all]
    exact Bool.false_ne_true
  · intro s ld k e up known small owns
    have owns' : bit ((s.mboxTake ld 0x0103).targets ld) (e / 32) = true := owns
    refine completes ((mailboxRow_up up _).trans (if_neg ?_))
    simp [known, small, owns']
  · intro s ld rs up ok
    refine completes ((mailboxRow_up up _).trans (if_pos (.inr ?_)))
    rw [mboxTake_extents]
    exact ok
  · intro s ld rs up
    exact completes (mailboxRow_up up _)
  · intro s ld op up unknown
    exact completes ((if_neg (by simpa using unknown)).trans (mailboxRow_up up _))

/-! ### Vendor commands -/

/-- Settles O27: a vendor command passes R349's checks, then its own. -/
theorem mailboxVendorComplete : Obligations.MailboxVendorComplete := by
  refine ⟨?_, ?_, ?_, ?_, ?_, ?_, ?_, ?_⟩
  · intro s v ld p n up runs length hv checks number
    subst hv
    refine completes ?_
    rw [vendorRow_go up runs length rfl (by simp)]
    dsimp only
    rw [checks, number]
  · intro s v ld p u up runs free length hv checks hu
    subst hv hu
    refine completes ?_
    rw [vendorRow_go up runs length rfl fun _ => free]
    dsimp only
    rw [checks]
  · intro s v ld p k up runs length hk may hv known zero notHeld base aligned low high
    subst hv hk
    refine completes ?_
    rw [vendorRow_go up runs length may (by simp)]
    dsimp only
    rw [if_neg (by simp [zero, notHeld, base, aligned]; omega)]
  · intro s v ld p k up runs free length hk may hv known held unused
    subst hv hk
    refine completes ?_
    rw [vendorRow_go up runs length may fun _ => free]
    rw [if_neg (by simp [held]; omega)]
    split
    · rfl
    next other => rw [if_neg (by simp [unused other])]
  · intro s ld p up runs free length mgmt op zero
    refine completes ?_
    rw [vendorRow_go up runs length (by simpa using mgmt) fun _ => free]
    dsimp only
    rw [if_neg]
    simp only [List.mem_cons, List.not_mem_nil, or_false] at op
    simp only [zero, ne_eq, not_true_eq_false, or_false]
    tauto
  · intro s ld b work on running
    refine completes ?_
    rw [work]
    exact if_pos ⟨on, by simp [running]⟩
  · intro s ld f x on up whole length hx
    subst hx
    refine completes ?_
    rw [if_neg (by simp [length])]
    unfold State.vopArrive
    rw [if_neg (by simp [on])]
    exact if_pos ⟨up, by simp [whole]⟩
  · intro s ld f up whole length
    exact completes (if_pos ⟨up, by simp [whole], length⟩)

/-! ### Firmware, DOE and assay -/

/-- A staged image is activated at a node that does nothing else with its firmware. -/
theorem activate_ok {s : State} {v : Nat} (idle : s.activating = false) (steady : s.recalibrating = false)
    (cold : s.node.warmRunning = false)
    (staged : s.scalar 0x7100 stageState = 2) (known : v = 1 ∨ v = 2) :
    s.activate v = (.ok, if v = 1 then (s.setScalar 0x7100 activateState 1).setCause causeActivation true
      else ({ s with trust := { s.trust with activeB := s.idleSlot } } : State).flashWrite) := by
  unfold State.activate
  rw [if_neg (by simp [idle, steady, cold]), if_neg (by simp only [staged]; omega)]
  split <;> rfl

/-- An assay that passes its checks starts a quote. -/
theorem assay_passes {s : State} {route : Route} {role : Option Nat} {bs : List Byte}
    (checks : firstFail (s.assayChecks route role bs) = none)
    (session : Nat) :
    s.assay route session role bs = { s with trust := { s.trust with
      quotes := s.trust.quotes ++ [⟨s.trust.nextQuote, route, session,
        s.quoteBody (leVal (slice bs 5 1) == 1) (leVal (slice bs 6 2)) (slice bs 8 32)⟩]
      nextQuote := s.trust.nextQuote + 1 } } := by
  unfold State.assay
  rw [checks]

/-- Settles O28: the management LD's commands pass their checks; a DOE request is carried by the link, a quote is found. -/
theorem firmwareAndAssayComplete : Obligations.FirmwareAndAssayComplete := by
  refine ⟨?_, ?_, ?_, ?_, ?_, ?_, ?_, ?_⟩
  · intro s ld up mgmt
    exact completes (fwRow_go up mgmt)
  · intro s v ld off bs u up mgmt idle own small hv hu
    subst hv hu
    have idle' : (s.mboxTake ld 0x0201).activating = false := idle
    have own' : ((s.mboxTake ld 0x0201).mgmt.staged.any fun x => x.index == 0x7100 && x.session != mailboxSession) = false := by
      simp only [List.any_eq_false, Bool.and_eq_true, beq_iff_eq, bne_iff_ne, not_and, not_not]
      exact own
    refine completes ?_
    rw [fwRow_go up mgmt, if_neg (by simp only [idle', own']; simp), if_neg (Nat.not_lt.mpr small)]
    rfl
  · intro s v ld on up mgmt idle steady cold staged hv
    subst hv
    have steady' : (s.mboxTake ld 0x0202).recalibrating = false := steady
    have idle' : (s.mboxTake ld 0x0202).activating = false := idle
    have cold' : (s.mboxTake ld 0x0202).node.warmRunning = false := cold
    have staged' : (s.mboxTake ld 0x0202).scalar 0x7100 stageState = 2 := staged
    refine completes ?_
    rw [fwRow_go up mgmt, activate_ok idle' steady' cold' staged' (by cases on <;> simp)]
    cases on <;> rfl
  · intro s ld i p up known
    refine completes ((if_pos up).trans ?_)
    rw [known]
  · intro s ld h up
    exact completes (if_pos up)
  · intro s n p u arrives src hu checks
    subst hu
    refine completes ?_
    rw [if_neg (by simp [arrives.1])]
    dsimp only
    rw [if_neg (by simp [src]), receive_arrives arrives]
    exact assay_passes checks 0
  · intro s ld bs p on up checks
    refine completes ?_
    rw [if_neg (by simp [on])]
    exact (if_pos up).trans (assay_passes checks 0)
  · intro s id q u quote hu
    subst hu
    refine completes ?_
    rw [quote]

end Sys2Proof.Machine
end

section

/-! Units and spares, calibration, faults, temperatures, the governor's tick and the clocks (chapters 14 to 18). -/

namespace Sys2Proof.Machine
open Sys2Proof

/-- Settles O35: the unit stands in the state of its row. -/
theorem unitRowsComplete : Obligations.UnitRowsComplete := by
  refine ⟨?_, ?_, ?_, ?_, ?_, ?_⟩
  · intro s k n on state empty
    exact completes (if_pos ⟨on, state, empty⟩)
  · intro s k n on state
    exact completes (if_pos ⟨on, state⟩)
  · intro s k n u on state
    refine ⟨fun hu => ?_, fun hu => ?_⟩
    · subst hu
      refine completes ?_
      rw [if_neg (by simp [on, state]), if_pos rfl]
    · subst hu
      refine completes ?_
      rw [if_neg (by simp [on, state]), if_neg Bool.false_ne_true]
  · intro s k n j piece runs
    refine completes ?_
    rw [piece]
    exact if_neg (by simp [runs])
  · intro s k n u runs waits boundary hu
    subst hu
    have ready : ¬((!s.coreRuns) = true ∨ (!s.flt.switching.contains (k, n)) = true ∨ (!s.atBoundary k n) = true) := by
      simp [runs, waits, boundary]
    refine ⟨fun p ps spares => ?_, fun none_ => ?_⟩
    · refine completes ?_
      rw [if_neg ready]
      dsimp only
      rw [spares]
    · refine completes ?_
      rw [if_neg ready]
      dsimp only
      rw [none_]
  · intro s ps u qs p on hu hqs hp
    subst hu hqs hp
    exact completes (if_neg (by simp [on]))

/-- The results of an activation that fails with a status. -/
theorem exec_activationDone_failed {s : State} {o : Option Status} {st : Status} (on : s.node.powered = true) (runs : s.activating = true)
    (banked : s.node.phase = .banked) (fails : (o.orElse fun _ => s.bootBad s.idleSlot) = some st) :
    exec (.activationDone o) s = .next
      (((((s.bootSlot s.trust.runningB).setScalar 0x7100 activateState 3).setScalar 0x7100 stageState 3).setScalar
      0x7100 stageReject st.code).clearCause causeActivation) := by
  refine congrArg Host.Outcome.next ?_
  rw [if_neg (by simp [on, runs, banked]), fails]

/-- Settles O36: the node is banked or the run is due, and what was measured or booted is taken. -/
theorem calibrationRowsComplete : Obligations.CalibrationRowsComplete := by
  refine ⟨?_, ?_, ?_, ?_, ?_⟩
  · intro s xs failed gs bad u on runs banked hgs hbad hu
    subst hgs hbad hu
    exact completes (if_neg (by simpa [on, banked] using runs))
  · intro s i k n u small runs phase enabled idle hk hn hu
    subst hk hn hu
    exact completes (if_neg (by simp [runs, phase, enabled, idle, small]))
  · intro s i x run
    refine completes ?_
    rw [run]
  · intro s u v on runs banked hu hv
    subst hu hv
    cases bad : s.bootBad s.idleSlot with
    | some st =>
      refine ⟨_, exec_activationDone_failed on runs banked bad, fun st' same => ?_, fun none_ => by cases none_⟩
      cases same
      rfl
    | none =>
      refine ⟨_, ?_, fun st' same => (by cases same), fun _ => rfl⟩
      refine congrArg Host.Outcome.next ?_
      rw [if_neg (by simp [on, runs, banked]), show ((none : Option Status).orElse fun _ => s.bootBad s.idleSlot) = none from bad]
  · intro s st on runs banked
    exact ⟨_, exec_activationDone_failed on runs banked rfl, rfl⟩

/-! ### Faults -/

/-- Settles O37: an error meets what stands there. -/
theorem faultRowsComplete : Obligations.FaultRowsComplete := by
  refine ⟨?_, ?_, ?_, ?_, ?_⟩
  · intro s runs
    have live : ¬(!s.coreRuns) = true := by simp [runs]
    refine ⟨?_, ?_, ?_, ?_, ?_, ?_, ?_, ?_, ?_, ?_, ?_, ?_, ?_, ?_, ?_, ?_, ?_, ?_⟩
    · intro n l r f frame line
      refine completes ((if_neg live).trans ?_)
      dsimp only
      rw [frame]
      exact if_neg (by simp [line])
    · exact fun c g fitted free => completes ((if_neg live).trans (if_pos ⟨fitted, free⟩))
    · exact fun c g fitted free => completes ((if_neg live).trans (if_pos ⟨fitted, free⟩))
    · exact fun k n key r => completes (if_neg live)
    · exact fun b i => completes (if_neg live)
    · exact fun b i => completes (if_neg live)
    · exact fun c i => completes (if_neg live)
    · exact fun m i => completes (if_neg live)
    · exact fun r => completes (if_neg live)
    · exact ⟨_, _, congrArg Host.Outcome.next (if_neg live), rfl⟩
    · exact fun c => completes (if_neg live)
    · intro p x held
      have held' : (s.count 0x6000 0x25).fab.missBuf.find? (·.port == p) = some x := held
      refine completes ((if_neg live).trans ?_)
      dsimp only
      rw [held']
    · exact fun k n row => completes (if_neg live)
    · exact fun c g l fitted => completes ((if_neg live).trans (if_pos fitted))
    · exact fun c g l fitted => completes ((if_neg live).trans (if_pos fitted))
    · exact fun k n => completes (if_neg live)
    · exact fun b i => completes (if_neg live)
    · exact fun r => completes (if_pos runs)
  · intro s up c on fitted
    exact completes (if_pos ⟨on, fitted⟩)
  · intro s up c f runs fitted waits
    exact congrArg Host.Outcome.next (if_pos (by simp [waits]))
  · intro s up c b loc u runs fitted free hb hloc hu
    have ready : ¬((!s.coreRuns) = true ∨ (if up = true then s.variant.channels else s.variant.packages) ≤ c ∨ s.burnWaits up c = true) :=
      by
      simp [runs, free, fitted]
    subst hb hloc hu
    exact ⟨completes (if_neg ready), completes (if_neg ready), completes (if_neg ready)⟩
  · intro s n f frame runs retires free
    have ready : ¬((!s.coreRuns) = true ∨ f.retire.isEmpty = true ∨ s.allocStalled n = true) := by simp [runs, retires, free]
    refine ⟨fun swapped => ?_, fun resident still => ?_, fun m resident mig reloc past => ?_⟩
    · refine completes ?_
      rw [frame]
      dsimp only
      rw [if_neg ready, if_pos swapped]
    · refine completes ?_
      rw [frame]
      dsimp only
      rw [if_neg ready, if_neg (by simp [resident]), still]
    · refine completes ?_
      rw [frame]
      dsimp only
      rw [if_neg ready, if_neg (by simp [resident]), mig]
      exact if_pos ⟨reloc, past⟩

/-! ### Temperatures and clocks -/

/-- Settles O39: with power, each row does what its pin, sensor or clock says. -/
theorem thermalAndClockComplete : Obligations.ThermalAndClockComplete := by
  refine ⟨?_, ?_, ?_, ?_, ?_⟩
  · intro s on
    have live : ¬(!s.node.powered) = true := by simp [on]
    refine ⟨?_, ?_, ?_, ?_, ?_, ?_, ?_, ?_, ?_, ?_, ?_, ?_, ?_⟩
    · intro u hu
      subst hu
      exact completes (if_neg live)
    · exact completes (if_neg live)
    · intro u hu
      subst hu
      exact completes (if_neg live)
    · intro u hu
      subst hu
      exact completes (if_neg live)
    · intro u off set_ resumed hu
      subst hu
      refine completes ((if_neg (by simp [on, off])).trans ?_)
      exact if_pos ⟨set_, resumed⟩
    · intro trip first
      exact completes (if_pos ⟨on, trip, by simp [first]⟩)
    · intro i x u small fitted hu
      subst hu
      have known : ¬((!s.node.powered) = true ∨ 20 ≤ i ∨ (!s.sensorFitted i) = true) := by simp [on, fitted, small]
      exact ⟨completes (if_neg known), completes (if_neg known)⟩
    · intro hold resumed
      exact completes (if_pos ⟨on, hold, resumed⟩)
    · intro xs w m n u v b hu hv hb
      subst hu hv hb
      exact ⟨_, _, congrArg Host.Outcome.next (if_neg live), rfl, rfl⟩
    · intro fabref
      exact ⟨_, _, congrArg Host.Outcome.next (if_neg (by simp [on, fabref])), rfl, rfl⟩
    · intro fabref
      exact completes (if_neg (by simp [on, fabref]))
    · exact completes (if_pos on)
    · intro whole off
      exact completes (if_pos ⟨on, by simp [whole], by simp [off]⟩)
  · intro s ld off v up low high
    refine completes ((if_neg (by simp [up])).trans ?_)
    exact if_pos ⟨low, high⟩
  · intro s ld off v up outside
    refine completes ((if_neg (by simp [up])).trans ?_)
    exact if_neg (by omega)
  · intro s ld r v up other
    refine completes ((if_neg (by simp [up])).trans ?_)
    cases r with
    | bar2 off => exact absurd rfl (other off)
    | _ => rfl
  · intro s n k tenant runs
    exact completes (if_neg (by simpa [runs, Option.isSome_iff_ne_none] using tenant))

end Sys2Proof.Machine
end
